-- ==== Sys2Proof/Word.lean ====
section
/-! DEFINITION. The two word types of the part: a 32-bit word of the shared window or the register window, and a
character of the device link (R188, R68). -/

namespace Sys2Proof

/-- A word of the shared window or of the register window (R170, R188). -/
abbrev Word := BitVec 32

/-- A byte of the shared window, and a character of the device link (R68). -/
abbrev Byte := BitVec 8

end Sys2Proof
end

