-- ==== Sys2Proof/Syntax.lean ====
section
/-! DEFINITION. The commands: one constructor for each row of spec/opcode_table.json, in the table's order. -/

namespace Sys2Proof

/-- One character received on the device link: its eight data bits, and whether its stop bit was low (R68). -/
structure RxChar where
  value : Byte
  framingError : Bool := false
deriving DecidableEq, Repr

/-- The two time registers of the register window, whose writes are ignored (R20). -/
inductive TimeRegister
  | timeLow
  | timeHigh
deriving DecidableEq, Repr

/-- A command: one whole event of the part (95_what_each_step_holds.md). The operands are what the event brings from
outside: the strap levels, a register write's value, the channel concerned, the characters of an answer. The orders
carry none: their parameters are the words that ORDER_FETCH has read from the order block (R173, R174). -/
inductive Instr
  | reset (strap1 strap2 : Bool)
  | referenceEdge
  | referenceMiss
  | timeLowRead
  | ignoredRegisterWrite (r : TimeRegister) (v : Word)
  | chainStart (v : Word)
  | returnToIdle
  | abort
  | engineClear
  | refusedOrderHeadWrite (v : Word)
  | attentionWrite (v : Word)
  | attentionMaskWrite (v : Word)
  | orderFetch
  | terminationWritten
  | linkRead
  | pass
  | snapshot
  | snapshotWritten
  | setReference
  | setChannel
  | startChannel
  | stopChannel
  | channelEdge (c : Fin 16)
  | channelArmedStart (c : Fin 16)
  | pulseEnd (c : Fin 16)
  | nextTurn
  | setTurnEnd
  | answerWindowOpen
  | answerStart
  | answerEnd (chars : List RxChar)
  | quietLine (chars : List RxChar)
  | answerWindowClose
  | enrol
  | setDevice
  | release
  | adopt
  | exchange
  | exchangeReadDone
  | exchangeWriteDone
  | jam
  | setAction
  | setTake
  | injectMark
  | translate
  | givePages
  | flushLog
  | pageClaim
  | recordWritten
  | pageCloseDone
  | oscillatorTick
deriving DecidableEq, Repr

end Sys2Proof
end

