-- ==== Sys2Proof/Decode.lean ====
section
/-! DEFINITION. Reading the operands of commands: the words that spell a command (none, for spec/opcode_table.json
gives no row any bits), and the characters of an answer, by the kind-and-length character of R195. -/

namespace Sys2Proof

/-- The command that a word spells by the table's bits: none, for the table gives bits to no row. -/
def decodeTableWord (_nbits _w : Nat) : Option Instr := none

/-- The length a kind-and-length character declares: bits 4:0 of the third character (R195). -/
def declaredLength (chars : List RxChar) : Nat :=
  match chars with
  | _ :: _ :: k :: _ => k.value.toNat % 32
  | _ => 0

/-- The legal lengths of a REPORT, for 0 to 3 marks (R69, R73). -/
def legalReportLength (n : Nat) : Bool :=
  n == 10 || n == 16 || n == 22 || n == 28

/-- An answer that holds exactly the legal length it declares: it has ended (R73). -/
def answerComplete (chars : List RxChar) : Bool :=
  legalReportLength (declaredLength chars) && chars.length == declaredLength chars

/-- An answer that a quiet line can end: begun, and its declared length not complete or not legal (R73). -/
def answerCutShort (chars : List RxChar) : Bool :=
  !chars.isEmpty &&
    (!legalReportLength (declaredLength chars) || decide (chars.length < declaredLength chars))

/-- A value that starts a chain when written to ORDER HEAD in IDLE: a non-zero multiple of 4 (R172). -/
def startsChain (v : Word) : Bool := v != 0 && v.toNat % 4 == 0

end Sys2Proof
end

