-- ==== Sys2Proof/Config.lean ====
section
/-! DEFINITION. What the manual leaves to the implementation or leaves open: the contents of memory that nothing has
written, and the free values. A free value has no body, so no proof can see what it is. -/

namespace Sys2Proof.Config

/-- What a byte of the shared window reads as when nothing has written it.
DESIGN CHOICE (log entry 5, unsafe): the manual gives the window no contents at power-on. -/
def unlistedByte : Byte := 0

/-- Free value: how many words of a memory operation had been made when engine clear or reset cut it off.
Applied to the counter `State.free` (log entry 14). -/
opaque freeCount : Nat → Nat

/-- Free value: what a word holds whose write reset cut off (R187: a partly written value).
Applied to the counter `State.free` (log entry 15). -/
opaque freeWord : Nat → Word

/-- Free value: which agent makes the next word access when several have one to make (R170: these interleave word by
word). Applied to the counter `State.free` (log entry 32). -/
opaque freePick : Nat → Nat

/-- Free value: the 64-bit instant that stands where exact arithmetic gives one past 2^64 - 1 and the manual states
no result. Applied to the exact instant (log entry 4). -/
opaque pastEndOfTime : Nat → BitVec 64

/-- Free value: whether a label is taken as valid when the called slot has become EMPTY and so names no label format
(R74 reads the record's format, R90 says it is absent). Applied to HH, MM, SS and FF (log entry 20). -/
opaque emptySlotLabelValid : Nat → Nat → Nat → Nat → Bool

end Sys2Proof.Config
end

