-- ==== Sys2Proof/Machine/State.lean ====
section
/-! DEFINITION. The state of the part: every item that spec/ gives its seven blocks, the bytes of the shared window,
and the model's own fields (the queue of commands, the value of the last register read, the counter of free values).
INVENTORY.md lists each with its rule and its reset value. -/

namespace Sys2Proof.Machine

/-! ## Picture time: rates, segments, labels -/

/-- A rate N/D: a period of N/D ticks (R23). -/
structure Rate where
  n : Nat
  d : Nat
deriving DecidableEq, Repr

/-- The six bases of a label format (R29). -/
inductive Base
  | b24 | b25 | b30 | b48 | b50 | b60
deriving DecidableEq, Repr

/-- A label format: a base together with a drop flag (R29). -/
structure Fmt where
  base : Base
  drop : Bool
deriving DecidableEq, Repr

/-- A label's fields HH:MM:SS:FF (R29). -/
structure Label where
  hh : Nat
  mm : Nat
  ss : Nat
  ff : Nat
deriving DecidableEq, Repr

/-- A segment: an origin, a base index and a rate (R44). -/
structure Segment where
  origin : Nat
  base : Nat
  rate : Rate
deriving DecidableEq, Repr

/-- A prior segment: a segment with its end index (R44). -/
structure PriorSegment where
  seg : Segment
  endIndex : Nat
deriving DecidableEq, Repr

/-! ## Time base -/

/-- The reference states (R4). -/
inductive RefState
  | free | acquiring | locked | holdover
deriving DecidableEq, Repr

/-- The time base (R21). `rem` is the fractional remainder in units of 1/10^9 tick (R1). -/
structure TimeBase where
  st : Nat
  rem : Nat
  trim : Int
  slew : Int
  period : Rate
  phi : Nat
  ref : RefState
  qual : Nat
  prevEdge : Option Nat
  expected : Option Nat
  wide : Nat
  missed : Nat
  gen : BitVec 16
  timeHigh : Word
deriving DecidableEq, Repr

/-! ## Channel array -/

inductive ChanKind
  | picture | sample
deriving DecidableEq, Repr

inductive ChanState
  | stopped | armed | running
deriving DecidableEq, Repr

/-- The settings a full staged set holds, which are also those of the record (R42). -/
structure Settings where
  rate : Rate
  width : Nat
  fmt : Fmt
  start : Nat
  labelOut : Bool
  userWord : Word
  stamping : Bool
deriving DecidableEq, Repr

/-- A staged set: a full one, or a user word alone (R42). -/
inductive Staged
  | full (set : Settings)
  | user (w : Word)
deriving DecidableEq, Repr

/-- A timecode word on a timecode line: its edge, the channel's next edge, and its 64 cells, cell i in bit i
(R50, R196). -/
structure TimecodeWord where
  edge : Nat
  next : Nat
  cells : BitVec 64
deriving DecidableEq, Repr

/-- A channel record (R42) with its two lines: `pulse` holds the instant at which a high pulse falls (R49), `tcWord` the
timecode word in progress (R50). -/
structure Channel where
  kind : ChanKind
  state : ChanState
  stopPending : Bool
  cfg : Settings
  staged : Option Staged
  cur : Option Segment
  prior : Option PriorSegment
  frame : Nat
  lastEdge : Option Nat
  startSt : Option Nat
  bound : Nat
  pulse : Option Nat
  tcWord : Option TimecodeWord
deriving DecidableEq, Repr

/-! ## Result codes -/

/-- The result codes of orders (R188). -/
inductive Result
  | done | accepted
  | refusedState | refusedRange | refusedBusy | refusedOccupied | refusedDuplicate | refusedBound
  | refusedProtected | refusedMismatch | refusedClass | refusedAbsent | refusedKind
  | windowFault | packageInvalid
  | verifyError | noAnswer | sourceStopped | aborted | protectedDevice
deriving DecidableEq, Repr

/-! ## Roster -/

/-- The device states (R89). -/
inductive DevState
  | empty | enrolled | settling | locked | jamming | drifting | absent
deriving DecidableEq, Repr

inductive DevClass
  | camera | recorder | slate | suite
deriving DecidableEq, Repr

inductive Recovery
  | noRecovery | jam | adopt
deriving DecidableEq, Repr

/-- A pair of a label index and an ST: an anchor or a verify point (R89). -/
structure Tie where
  label : Nat
  st : Nat
deriving DecidableEq, Repr

inductive JamOrigin
  | order | recovery
deriving DecidableEq, Repr

/-- The outcomes of a jam (R128). -/
inductive JamOutcome
  | done | protectedDevice | verifyError | sourceStopped | noAnswer | abandoned
deriving DecidableEq, Repr

/-- A jam context (R119). -/
structure JamContext where
  source : Fin 16
  origin : JamOrigin
  waiting : Bool
  remembered : DevState
  setPending : Bool
  setSent : Bool
  sets : Nat
  lastLabel : Option Nat
  setInstant : Option Nat
  label : Option Nat
  retries : Nat
  reports : Nat
  pendingDelay : Option Nat
deriving DecidableEq, Repr

/-- A device record (R89). `linkAddr`, `cls`, `rate` and `fmt` of an EMPTY record are absent; they then hold the values
that are shown as 0 (R90, log entry 21). -/
structure Device where
  state : DevState
  held : Bool
  linkAddr : Nat
  cls : DevClass
  rate : Rate
  fmt : Fmt
  boundTo : Option (Fin 16)
  offset : Option Int
  pathDelay : Nat
  window : Nat
  recovery : Recovery
  jamSource : Option (Fin 16)
  protectedFlag : Bool
  dualTrack : Bool
  anchor : Option Tie
  verify : Option Tie
  drift : Int
  driftClamped : Bool
  good : Nat
  bad : Nat
  miss : Nat
  before : Option DevState
  jam : Option JamContext
  lastResult : Option Result
  marksLogged : BitVec 16
deriving DecidableEq, Repr

/-- What an EXCHANGE is doing (R113, R115, R117). `reading` holds the package words read so far, `writing` the words of
the outgoing image still to be written, from `area` up (R170). -/
inductive ExchangePhase
  | waitService
  | reading (got : List Word)
  | writing (area : Nat) (image : List Word)
deriving DecidableEq, Repr

/-- The EXCHANGE in progress; `dropped` when engine clear has dropped it after its read had begun (R114). -/
structure Exchange where
  slot : Fin 48
  package : Nat
  phase : ExchangePhase
  dropped : Bool
deriving DecidableEq, Repr

/-! ## Link controller -/

/-- The turn in progress: the slot in service, the address it is called by, and whether the turn is urgent
(R80, R82). -/
structure Turn where
  slot : Fin 48
  addr : Nat
  urgent : Bool
deriving DecidableEq, Repr

/-- What the wire is doing. `answering` holds the stamp and the scale generation noted at the start bit (R75). -/
inductive LinkPhase
  | idle
  | gap
  | sendingSet
  | sendingCall
  | window
  | answering (stamp : Nat) (gen : BitVec 16)
deriving DecidableEq, Repr

/-- The link controller (R88). `timer` counts oscillator ticks since the phase began (R68). -/
structure Link where
  urgent : List (Fin 48)
  rotation : Fin 48
  lastUrgent : Bool
  turn : Option Turn
  phase : LinkPhase
  timer : Nat
  tx : List Byte
  garbled : Word
  unknown : Word
deriving DecidableEq, Repr

/-! ## Log unit -/

inductive TakeStep
  | none | nextTake | nextSlate
deriving DecidableEq, Repr

/-- An action table entry (R135). The class mask has CAMERA in bit 0 to SUITE in bit 3. -/
structure Action where
  enabled : Bool
  classMask : BitVec 4
  step : TakeStep
  watch : List (Fin 16)
  attention : Bool
deriving DecidableEq, Repr

/-- A watch entry (R41). For a SAMPLE channel `index` is a sample index and the format plays no part. -/
structure Watch where
  chan : Fin 16
  sample : Bool
  stale : Bool
  stopped : Bool
  fmt : Fmt
  sub : Nat
  index : Nat
deriving DecidableEq, Repr

/-- The source and device label of a MARK record that names a slot (R146). -/
structure MarkSource where
  slot : Fin 48
  linkAddr : Nat
  label : Nat
  fmt : Fmt
  sub : Nat
deriving DecidableEq, Repr

/-- The flags of a MARK record (R143). -/
structure MarkFlags where
  noAnchor : Bool
  uncertain : Bool
  refNotLocked : Bool
  driftClamped : Bool
  stClamped : Bool
  stale : Bool
  adjusted : Bool
  jamInProgress : Bool
deriving DecidableEq, Repr

/-- The reasons of an entry into DRIFTING (R101). -/
inductive DriftReason
  | inconsistent | driftClamp | channelStopped | verifyError
deriving DecidableEq, Repr

/-- The recovery taken on an entry into DRIFTING (R102). -/
inductive RecoveryTaken
  | none | adopted | jamStarted | sourceUnusable
deriving DecidableEq, Repr

/-- The events of a DEVICE STATE record (R148). -/
inductive DeviceEvent
  | absent | returned | locked
  | drifting (reason : DriftReason) (taken : RecoveryTaken)
deriving DecidableEq, Repr

inductive ChannelEventKind
  | start | retime | stop
deriving DecidableEq, Repr

/-- The subkinds of SYSTEM record with their details (R148). -/
inductive SysEvent
  | timeStep (d : Nat)
  | referenceState (new old : RefState)
  | deviceState (slot : Fin 48) (linkAddr : Nat) (ev : DeviceEvent)
  | jamOutcome (slot : Fin 48) (linkAddr : Nat) (outcome : JamOutcome) (origin : JamOrigin) (sets : Nat)
      (lastLabel : Option Nat) (left : DevState)
  | channelEvent (chan : Fin 16) (kind : ChannelEventKind) (seg : Option (Nat × Nat))
deriving DecidableEq, Repr

/-- What distinguishes a MARK record from a SYSTEM record (R146, R147). A mark without a source is a host mark. -/
inductive RecordBody
  | mark (kind : Fin 16) (source : Option MarkSource) (flags : MarkFlags) (watch : List Watch)
  | system (ev : SysEvent)
deriving DecidableEq, Repr

/-- A take record (R146, R147). -/
structure TakeRecord where
  seq : Word
  lostBefore : Word
  body : RecordBody
  st : Option Nat
  gen : BitVec 16
  slate : Nat
  take : Nat
deriving DecidableEq, Repr

/-- The log unit (R155). -/
structure LogUnit where
  actions : Vector Action 16
  slate : Nat
  take : Nat
  queue : List TakeRecord
  seq : Word
  lostRun : Word
  lostTotal : Word
  discarded : Word
deriving DecidableEq, Repr

/-! ## Page writer -/

/-- Why an open page is being closed: full (R163), for a flush (R165), or by engine clear (R168). -/
inductive CloseWhy
  | full | flush | clear
deriving DecidableEq, Repr

/-- The page writer's activities (R158). `made` counts the words of the record write made so far (R162, R170); `cleared`
notes that an engine clear was taken meanwhile (R168). -/
inductive Activity
  | idle
  | claiming (page : Nat) (cleared : Bool)
  | writing (made : Nat)
  | closing (why : CloseWhy) (cleared : Bool)
  | starved
deriving DecidableEq, Repr

/-- The open page: its address, page sequence number, record count and record-area words used (R156). -/
structure OpenPage where
  addr : Nat
  pageSeq : Word
  records : Nat
  used : Nat
deriving DecidableEq, Repr

/-- The flush set, noted by its tail's sequence number or as empty (R164); `aborted` when an abort was taken while the
flush close was being written (R167). -/
structure FlushSet where
  tail : Option Word
  aborted : Bool
deriving DecidableEq, Repr

/-- The page writer (R169). -/
structure PageWriter where
  activity : Activity
  page : Option OpenPage
  stock : List Nat
  flush : Option FlushSet
  pageSeq : Word
  refused : Word
deriving DecidableEq, Repr

/-! ## Order engine -/

/-- The orders (R190). -/
inductive OrderKind
  | pass | snapshot | setReference | setChannel | startChannel | stopChannel
  | enrol | setDevice | release | adopt | exchange | jam
  | setAction | setTake | injectMark | translate | givePages | flushLog
deriving DecidableEq, Repr

/-- An order in hand: its kind, the three flags of its kind-and-flags word, and the parameter words as the fetch read
them (R173, R189). -/
structure Order where
  kind : OrderKind
  stForm : Bool
  waitFlag : Bool
  grid : Bool
  params : List Word
deriving DecidableEq, Repr

/-- The chain states (R171). -/
inductive ChainState
  | idle | running | done | stopped
deriving DecidableEq, Repr

/-- The order that an owner keeps while the engine is WAITING (R174). -/
inductive Kept
  | jam (slot : Fin 48)
  | exchange
  | flushLog
deriving DecidableEq, Repr

/-- The engine's step with respect to its current block. `fetching` holds the words of the block read so far, the
kind-and-flags word first, and none before the header test has been passed; `taken` is an order whose TAKEN has been written and which has not been handed yet; `held` one
that waits for a dropped EXCHANGE to end; `imaging` is HANDED while a SNAPSHOT's image is written, and holds the words still
to be written, from `area` up; `terminating` carries the result words still to be written before the termination word
(R170, R173 to R176, R183). -/
inductive EngineStep
  | none
  | fetching (got : List Word)
  | taken (o : Order)
  | held (o : Order)
  | imaging (area : Nat) (image : List Word)
  | waiting (kept : Kept)
  | terminating (results : List (Nat × Word)) (code : Result) (detail : Nat)
  | linking (code : Result)
deriving DecidableEq, Repr

/-- The order engine (R187). `block` is the current block's address, 0 when there is none; `stopAfter` notes an abort
after which the chain ends STOPPED (R177). -/
structure Engine where
  chain : ChainState
  head : Nat
  block : Nat
  step : EngineStep
  stopAfter : Bool
  causes : BitVec 8
  mask : BitVec 8
deriving DecidableEq, Repr

/-! ## The whole -/

/-- The state of the part. `readData`, `free` and `pending` are the model's own (INVENTORY.md). -/
structure State where
  tb : TimeBase
  chans : Vector Channel 16
  lc : Link
  slots : Vector Device 48
  exch : Option Exchange
  lu : LogUnit
  pw : PageWriter
  oe : Engine
  mem : List Host.Cell
  straps : Bool × Bool
  readData : Word
  free : Nat
  pending : List Instr
deriving DecidableEq, Repr

/-- Why the machine stops with a fault. -/
inductive Fault
  /-- Raised by a command whose memory operation would reach an address that the shared window does not have (R170).
  Every address is tested before it is used, so only states that no run reaches raise it. Safe: the model stops where
  the part would have refused the address before. -/
  | outsideWindow (address : Nat)
deriving DecidableEq, Repr

/-- Why a command is refused. -/
inductive Refusal
  /-- Raised by exec's arm for a command that has no meaning yet; safe. No arm raises it now. -/
  | notModelled (mnemonic : String)
deriving DecidableEq, Repr

/-! ## Reset values -/

/-- The time base after reset (R21). -/
def TimeBase.reset : TimeBase where
  st := 0
  rem := 0
  trim := 0
  slew := 0
  period := ⟨1080000, 1⟩
  phi := 0
  ref := .free
  qual := 0
  prevEdge := none
  expected := none
  wide := 0
  missed := 0
  gen := 0
  timeHigh := 0

/-- A channel record after reset, its lines low and idle (R67). -/
def Channel.reset : Channel where
  kind := .picture
  state := .stopped
  stopPending := false
  cfg :=
    { rate := ⟨1080000, 1⟩, width := 0, fmt := ⟨.b25, false⟩, start := 0, labelOut := false, userWord := 0,
      stamping := false }
  staged := none
  cur := none
  prior := none
  frame := 0
  lastEdge := none
  startSt := none
  bound := 0
  pulse := none
  tcWord := none

/-- The values of an EMPTY record (R90). -/
def Device.emptyRecord : Device where
  state := .empty
  held := false
  linkAddr := 0
  cls := .camera
  rate := ⟨0, 0⟩
  fmt := ⟨.b24, false⟩
  boundTo := none
  offset := none
  pathDelay := 0
  window := 13500
  recovery := .noRecovery
  jamSource := none
  protectedFlag := false
  dualTrack := false
  anchor := none
  verify := none
  drift := 0
  driftClamped := false
  good := 0
  bad := 0
  miss := 0
  before := none
  jam := none
  lastResult := none
  marksLogged := 0

/-- The link controller after reset (R88). -/
def Link.reset : Link where
  urgent := []
  rotation := 47
  lastUrgent := false
  turn := none
  phase := .idle
  timer := 0
  tx := []
  garbled := 0
  unknown := 0

/-- An action table entry after reset (R135). -/
def Action.reset : Action where
  enabled := false
  classMask := 0
  step := .none
  watch := []
  attention := false

/-- The log unit after reset (R155). -/
def LogUnit.reset : LogUnit where
  actions := Vector.replicate 16 Action.reset
  slate := 0
  take := 0
  queue := []
  seq := 0
  lostRun := 0
  lostTotal := 0
  discarded := 0

/-- The page writer after reset (R169). -/
def PageWriter.reset : PageWriter where
  activity := .idle
  page := none
  stock := []
  flush := none
  pageSeq := 0
  refused := 0

/-- The order engine after reset (R187). -/
def Engine.reset : Engine where
  chain := .idle
  head := 0
  block := 0
  step := .none
  stopAfter := false
  causes := 0
  mask := 0

/-- The part right after reset: every block at its reset values (R21, R67, R88, R118, R155, R169, R187), nothing
listed in memory. The straps, the value of the last register read and the counter of free values have no reset value in
the manual (log entries 7, 8, 14). -/
def State.reset : State where
  tb := TimeBase.reset
  chans := Vector.replicate 16 Channel.reset
  lc := Link.reset
  slots := Vector.replicate 48 Device.emptyRecord
  exch := none
  lu := LogUnit.reset
  pw := PageWriter.reset
  oe := Engine.reset
  mem := []
  straps := (false, false)
  readData := 0
  free := 0
  pending := []

end Sys2Proof.Machine
end

