-- ==== Sys2Proof/Machine/Operands.lean ====
section
/-! DEFINITION. The operand forms: bit fields of words, the codes of R188, the parameter words of orders (R189, R190),
the words of 64-bit quantities, and the characters of telegrams (R69, R195). -/

namespace Sys2Proof.Machine

/-! ## Bit fields -/

/-- The field of a word that occupies bits hi:lo, as a number. -/
def bits (w : Word) (hi lo : Nat) : Nat := (w.toNat / 2 ^ lo) % 2 ^ (hi + 1 - lo)

/-- One bit of a word. -/
def bit (w : Word) (i : Nat) : Bool := w.toNat.testBit i

/-- A word whose field of `width` bits at bit `lo` holds `v`, and 0 elsewhere. -/
def field (lo width v : Nat) : Word := BitVec.ofNat 32 ((v % 2 ^ width) * 2 ^ lo)

/-- A word whose bit `i` holds the flag, and 0 elsewhere. -/
def flagBit (i : Nat) (b : Bool) : Word := if b then BitVec.ofNat 32 (2 ^ i) else 0

/-- A word composed of fields that do not overlap. -/
def orAll (ws : List Word) : Word := ws.foldr (· ||| ·) 0

/-- The low word of a 64-bit quantity (R188). -/
def lowWord (v : Nat) : Word := BitVec.ofNat 32 v

/-- The high word of a 64-bit quantity (R188). -/
def highWord (v : Nat) : Word := BitVec.ofNat 32 (v / 2 ^ 32)

/-- A 64-bit quantity from its two words (R188). -/
def wide (lo hi : Word) : Nat := lo.toNat + 2 ^ 32 * hi.toNat

/-- A signed quantity as a word: 32-bit two's complement (R188). -/
def signedWord (v : Int) : Word := BitVec.ofInt 32 v

/-! ## Codes (R188, R192) -/

def Base.code : Base → Nat
  | .b24 => 0 | .b25 => 1 | .b30 => 2 | .b48 => 3 | .b50 => 4 | .b60 => 5

/-- The 4-bit code of a label format (R188). -/
def Fmt.code (f : Fmt) : Nat := f.base.code + (if f.drop then 8 else 0)

/-- The label format of a 4-bit code; none when the format is illegal (R29, R188). -/
def fmtOfCode (c : Nat) : Option Fmt :=
  let drop := decide (8 ≤ c)
  match c % 8 with
  | 0 => if drop then none else some ⟨.b24, false⟩
  | 1 => if drop then none else some ⟨.b25, false⟩
  | 2 => some ⟨.b30, drop⟩
  | 3 => if drop then none else some ⟨.b48, false⟩
  | 4 => if drop then none else some ⟨.b50, false⟩
  | 5 => some ⟨.b60, drop⟩
  | _ => none

def DevClass.code : DevClass → Nat
  | .camera => 0 | .recorder => 1 | .slate => 2 | .suite => 3

def classOfCode (c : Nat) : DevClass :=
  match c % 4 with
  | 0 => .camera | 1 => .recorder | 2 => .slate | _ => .suite

def Recovery.code : Recovery → Nat
  | .noRecovery => 0 | .jam => 1 | .adopt => 2

/-- The recovery of a 2-bit field; none for 3, which is out of range (R190). -/
def recoveryOfCode (c : Nat) : Option Recovery :=
  match c with
  | 0 => some .noRecovery | 1 => some .jam | 2 => some .adopt | _ => none

def DevState.code : DevState → Nat
  | .empty => 0 | .enrolled => 1 | .settling => 2 | .locked => 3 | .jamming => 4 | .drifting => 5 | .absent => 6

/-- The device state of a code; none for 7, which names no state (R188). -/
def devStateOfCode (c : Nat) : Option DevState :=
  match c with
  | 0 => some .empty | 1 => some .enrolled | 2 => some .settling | 3 => some .locked | 4 => some .jamming
  | 5 => some .drifting | 6 => some .absent | _ => none

/-- The result codes 1 to 20 (R188). -/
def Result.code : Result → Nat
  | .done => 1 | .accepted => 2 | .refusedState => 3 | .refusedRange => 4 | .refusedBusy => 5
  | .refusedOccupied => 6 | .refusedDuplicate => 7 | .refusedBound => 8 | .refusedProtected => 9
  | .refusedMismatch => 10 | .refusedClass => 11 | .refusedAbsent => 12 | .refusedKind => 13
  | .windowFault => 14 | .packageInvalid => 15 | .verifyError => 16 | .noAnswer => 17
  | .sourceStopped => 18 | .aborted => 19 | .protectedDevice => 20

/-- A last result code as shown: 0 for none (R188). -/
def lastResultCode (r : Option Result) : Nat := (r.map Result.code).getD 0

def RefState.code : RefState → Nat
  | .free => 0 | .acquiring => 1 | .locked => 2 | .holdover => 3

def ChainState.code : ChainState → Nat
  | .idle => 0 | .running => 1 | .done => 2 | .stopped => 3

def JamOutcome.code : JamOutcome → Nat
  | .done => 0 | .protectedDevice => 1 | .verifyError => 2 | .sourceStopped => 3 | .noAnswer => 4
  | .abandoned => 5

def JamOrigin.code : JamOrigin → Nat
  | .order => 0 | .recovery => 1

def DriftReason.code : DriftReason → Nat
  | .inconsistent => 0 | .driftClamp => 1 | .channelStopped => 2 | .verifyError => 3

def RecoveryTaken.code : RecoveryTaken → Nat
  | .none => 0 | .adopted => 1 | .jamStarted => 2 | .sourceUnusable => 3

/-- The detail byte of a DEVICE STATE record (R192). -/
def DeviceEvent.code : DeviceEvent → Nat
  | .absent => 1
  | .returned => 2
  | .locked => 3
  | .drifting reason taken => 4 + 8 * reason.code + 32 * taken.code

def ChannelEventKind.code : ChannelEventKind → Nat
  | .start => 1 | .retime => 2 | .stop => 3

/-- The label of a label word: FF, SS, MM, HH in its four bytes (R188). -/
def labelOfWord (w : Word) : Label := ⟨bits w 31 24, bits w 23 16, bits w 15 8, bits w 7 0⟩

/-! ## Orders (R189, R190) -/

/-- The kind of a kind code; none for an unknown kind (R189). -/
def orderKindOfCode (c : Nat) : Option OrderKind :=
  match c with
  | 0x01 => some .pass
  | 0x02 => some .snapshot
  | 0x10 => some .setReference
  | 0x20 => some .setChannel
  | 0x21 => some .startChannel
  | 0x22 => some .stopChannel
  | 0x30 => some .enrol
  | 0x31 => some .setDevice
  | 0x32 => some .release
  | 0x33 => some .adopt
  | 0x34 => some .exchange
  | 0x35 => some .jam
  | 0x40 => some .setAction
  | 0x41 => some .setTake
  | 0x42 => some .injectMark
  | 0x43 => some .translate
  | 0x50 => some .givePages
  | 0x51 => some .flushLog
  | _ => none

/-- The fixed number of parameter words of a kind, result words included; for GIVE PAGES, the count word alone
(R173, R190). -/
def OrderKind.paramWords : OrderKind → Nat
  | .pass => 0 | .snapshot => 2 | .setReference => 4 | .setChannel => 7 | .startChannel => 3
  | .stopChannel => 1 | .enrol => 7 | .setDevice => 4 | .release => 1 | .adopt => 1 | .exchange => 2
  | .jam => 3 | .setAction => 4 | .setTake => 2 | .injectMark => 4 | .translate => 16
  | .givePages => 1 | .flushLog => 0

/-- The orders whose owner is the roster (R174). -/
def OrderKind.ofRoster : OrderKind → Bool
  | .enrol | .setDevice | .release | .adopt | .exchange | .jam => true
  | .pass | .snapshot | .setReference | .setChannel | .startChannel | .stopChannel
  | .setAction | .setTake | .injectMark | .translate | .givePages | .flushLog => false

/-- Parameter word pi of an order. -/
def Order.p (o : Order) (i : Nat) : Word := o.params.getD i 0

/-- A slot number in range (R106). -/
def slotOf (w : Word) : Option (Fin 48) :=
  if h : w.toNat < 48 then some ⟨w.toNat, h⟩ else none

/-- A channel number in range (R51). -/
def chanOf (n : Nat) : Option (Fin 16) :=
  if h : n < 16 then some ⟨n, h⟩ else none

/-- An optional channel field: `some none` when it is absent, none when it is present and above 15 (R190). -/
def optChan (present : Bool) (n : Nat) : Option (Option (Fin 16)) :=
  if present then (chanOf n).map some else some none

/-- The channel numbers of a channel-bytes word, the first `count` of them (R190). -/
def channelBytes (w : Word) (count : Nat) : List Nat :=
  [bits w 7 0, bits w 15 8, bits w 23 16, bits w 31 24].take count

/-- A list of distinct channel numbers, each in range; none otherwise (R136, R152). -/
def distinctChannels (ns : List Nat) : Option (List (Fin 16)) :=
  if ns.Nodup then ns.mapM chanOf else none

/-! ## Telegrams (R69, R195) -/

/-- One left shift of the CRC register (R69). -/
def crcShift (r : Byte) : Byte :=
  if r.toNat < 128 then BitVec.ofNat 8 (2 * r.toNat) else BitVec.ofNat 8 (2 * r.toNat) ^^^ 0x07

/-- One covered character into the CRC register (R69). -/
def crcByte (r c : Byte) : Byte :=
  crcShift (crcShift (crcShift (crcShift (crcShift (crcShift (crcShift (crcShift (r ^^^ c))))))))

/-- The CRC-8 over the covered characters (R69). -/
def crc8 (cs : List Byte) : Byte := cs.foldl crcByte 0

def syncChar : Byte := 0xC5

/-- A telegram from its covered characters: the sync character before, the check after (R69). -/
def telegram (covered : List Byte) : List Byte := syncChar :: covered ++ [crc8 covered]

/-- The address character: the link address in bits 5:0, with bits 7:6 at 0 (R195). -/
def addrChar (addr : Nat) : Byte := BitVec.ofNat 8 (addr % 64)

/-- The characters of a CALL (R70, R195). -/
def callChars (addr : Nat) : List Byte := telegram [addrChar addr, 0x24]

/-- The characters of a SET that carries a label (R71, R195). -/
def setChars (addr : Nat) (l : Label) (drop : Bool) : List Byte :=
  telegram [addrChar addr, 0x49, BitVec.ofNat 8 l.hh, BitVec.ofNat 8 l.mm, BitVec.ofNat 8 l.ss,
    BitVec.ofNat 8 l.ff, if drop then 1 else 0]

/-- Character i of an answer. -/
def charAt (chars : List RxChar) (i : Nat) : Byte := (chars.map (·.value)).getD i 0

/-- A mark entry of a REPORT as received (R72, R195). -/
structure MarkEntry where
  kind : Nat
  sub : Nat
  label : Label
deriving DecidableEq, Repr

/-- The label in four characters of an answer, from character i (R195). -/
def labelAt (chars : List RxChar) (i : Nat) : Label :=
  ⟨(charAt chars i).toNat, (charAt chars (i + 1)).toNat, (charAt chars (i + 2)).toNat,
    (charAt chars (i + 3)).toNat⟩

/-- The status character of a REPORT (R195). -/
def statusChar (chars : List RxChar) : Byte := charAt chars 8

/-- The mark count in the status: bits 3:2 (R195). -/
def markCount (chars : List RxChar) : Nat := (statusChar chars).toNat / 4 % 4

/-- Mark entry j of a REPORT (R195). -/
def markEntryAt (chars : List RxChar) (j : Nat) : MarkEntry :=
  { kind := (charAt chars (9 + 6 * j)).toNat
    sub := (charAt chars (10 + 6 * j)).toNat
    label := labelAt chars (11 + 6 * j) }

/-- The mark entries of a REPORT, in telegram order (R72). -/
def markEntries (chars : List RxChar) : List MarkEntry :=
  (List.range (markCount chars)).map (markEntryAt chars)

/-- A check over the characters between the sync character and the check character (R69, R74). -/
def checkGood (chars : List RxChar) : Bool :=
  let vs := chars.map (·.value)
  crc8 ((vs.drop 1).dropLast) == vs.getLastD 0

end Sys2Proof.Machine
end

