-- ==== Sys2Proof/Machine/Arith.lean ====
section
/-! DEFINITION. Picture-time arithmetic (R22 to R41): edges of segments, indices and subframes, label conversion,
differences across midnight, translation, drift, watch labels. Everything is exact in Nat and Int; Int division by a
positive divisor is floor, and its remainder is `mod`, as R22 asks. -/

namespace Sys2Proof.Machine

/-! ## Rates and segments (R23 to R28) -/

/-- A legal rate (R23). -/
def Rate.legal (r : Rate) : Bool :=
  decide (1 ≤ r.n) && decide (r.n ≤ 16777215) && decide (1 ≤ r.d) && decide (r.d ≤ 65535)
    && decide (128 * r.d ≤ r.n)

/-- floor(N/D), the shortest distance between two edges of a rate (R23). -/
def Rate.floorPeriod (r : Rate) : Nat := r.n / r.d

/-- The instant of edge k of a segment (R24). -/
def Segment.instant (g : Segment) (k : Int) : Int :=
  g.origin + ((k - g.base) * g.rate.n) / g.rate.d

/-- The index of the edge at or before an instant (R25). -/
def Segment.edgeAt (g : Segment) (t : Int) : Int :=
  g.base + ((t - g.origin + 1) * g.rate.d - 1) / g.rate.n

/-- The index of the edge nearest to an instant; halfway, the earlier one (R25). -/
def Segment.nearestEdge (g : Segment) (t : Int) : Int :=
  let k := g.edgeAt t
  if t - g.instant k ≤ g.instant (k + 1) - t then k else k + 1

/-- The subframe of an instant relative to edge k (R26). -/
def Segment.subframe (g : Segment) (t k : Int) : Nat :=
  (min 255 ((256 * (t - g.instant k) * g.rate.d) / g.rate.n)).toNat

/-- s/256 of a nominal period, rounded half up (R27, R36). -/
def Rate.fraction (r : Rate) (s : Nat) : Nat := (2 * s * r.n + 256 * r.d) / (512 * r.d)

/-- The instant of a fractional position (k, s) (R27). -/
def Segment.positionInstant (g : Segment) (k : Int) (s : Nat) : Int := g.instant k + g.rate.fraction s

/-- The segment that answers for a channel at an instant, and whether the answer is STALE (R28). -/
def Channel.segmentAt (ch : Channel) (t : Int) : Option (Segment × Bool) :=
  match ch.cur with
  | none => none
  | some c =>
    if (c.origin : Int) ≤ t then some (c, false)
    else
      match ch.prior with
      | none => some (c, true)
      | some p => if (p.seg.origin : Int) ≤ t then some (p.seg, false) else some (p.seg, true)

/-- The segment that answers for a channel index, and whether the answer is STALE (R28). -/
def Channel.segmentForIndex (ch : Channel) (k : Int) : Option (Segment × Bool) :=
  match ch.cur with
  | none => none
  | some c =>
    if (c.base : Int) ≤ k then some (c, false)
    else
      match ch.prior with
      | none => some (c, true)
      | some p => if (p.seg.base : Int) ≤ k then some (p.seg, false) else some (p.seg, true)

/-! ## Labels (R29 to R35) -/

/-- Frames per second of a base (R29). -/
def Base.fps : Base → Nat
  | .b24 => 24 | .b25 => 25 | .b30 => 30 | .b48 => 48 | .b50 => 50 | .b60 => 60

/-- The count of frame numbers dropped per minute: 2 for base 30, 4 for base 60 (R31). -/
def Base.dropCount : Base → Nat
  | .b30 => 2
  | .b60 => 4
  | .b24 | .b25 | .b48 | .b50 => 0

/-- Fday, the number of label indices in one day (R29, the table under Conventions). -/
def Fmt.fday (f : Fmt) : Nat :=
  if f.drop then
    match f.base with
    | .b30 => 2589408
    | .b60 => 5178816
    | b => 86400 * b.fps
  else 86400 * f.base.fps

/-- The non-drop label of an index in base B (R30). -/
def nonDropLabel (B i : Nat) : Label :=
  ⟨i / (3600 * B), i / (60 * B) % 60, i / B % 60, i % B⟩

/-- The index with the dropped frame numbers restored (R31). -/
def restoreDropped (b : Base) (i : Nat) : Nat :=
  match b with
  | .b30 =>
    let q := i / 17982
    let m := i % 17982
    i + 18 * q + (if 2 ≤ m then 2 * ((m - 2) / 1798) else 0)
  | .b60 =>
    let q := i / 35964
    let m := i % 35964
    i + 36 * q + (if 4 ≤ m then 4 * ((m - 4) / 3596) else 0)
  | .b24 | .b25 | .b48 | .b50 => i

/-- The label of an index (R30, R31). -/
def Fmt.labelOf (f : Fmt) (i : Nat) : Label :=
  if f.drop then nonDropLabel f.base.fps (restoreDropped f.base i) else nonDropLabel f.base.fps i

/-- The index of a label that exists (R30, R32). -/
def Fmt.indexOf (f : Fmt) (l : Label) : Nat :=
  let plain := (3600 * l.hh + 60 * l.mm + l.ss) * f.base.fps + l.ff
  if f.drop then
    let tm := 60 * l.hh + l.mm
    plain - f.base.dropCount * (tm - tm / 10)
  else plain

/-- A label is valid when every field is in range for its format (R33). -/
def Fmt.valid (f : Fmt) (l : Label) : Bool :=
  decide (l.hh < 24) && decide (l.mm < 60) && decide (l.ss < 60) && decide (l.ff < f.base.fps)

/-- A valid label that does not exist in its drop-frame format (R34). -/
def Fmt.skipped (f : Fmt) (l : Label) : Bool :=
  f.drop && l.ss == 0 && l.mm % 10 != 0 && decide (l.ff < f.base.dropCount)

/-- A label moved forward to the first existing label of its minute (R34). -/
def Fmt.moved (f : Fmt) (l : Label) : Label :=
  if f.skipped l then { l with ff := f.base.dropCount } else l

/-- A label as it enters the part: its index, and whether it was moved forward (ADJUSTED); none when it is invalid
(R33, R34). -/
def Fmt.enter (f : Fmt) (l : Label) : Option (Nat × Bool) :=
  if f.valid l then some (f.indexOf (f.moved l), f.skipped l) else none

/-- The signed difference of two label indices (R35). -/
def labelDiff (fday : Nat) (a b : Int) : Int :=
  let r := (a - b) % (fday : Int)
  if (fday : Int) < 2 * r then r - fday else r

/-- The label index of a channel at an index, in the start label index and format held now (R29). -/
def Channel.labelAt (ch : Channel) (k : Int) : Nat :=
  (((ch.cfg.start : Int) + k) % (ch.cfg.fmt.fday : Int)).toNat

/-! ## Instants kept as an ST -/

/-- An exact instant as a 64-bit ST. Past 2^64 - 1 the manual states no result: a free value (log entry 4). -/
def instant64 (t : Nat) : Nat :=
  if t < 2 ^ 64 then t else (Config.pastEndOfTime t).toNat

/-! ## Device edge instants and translation (R36 to R39) -/

/-- The edge instant of a REPORT; 0 when it computes below 0 (R36). -/
def reportEdge (stamp : Nat) (pathDelay : Nat) (rate : Rate) (edgeAge : Nat) : Nat :=
  ((stamp : Int) - pathDelay - rate.fraction edgeAge).toNat

/-- What a translation gives: a studio time or none, with the conditions the record flags report (R37, R39). -/
structure Translation where
  st : Option Nat
  clamped : Bool
  stale : Bool
  uncertain : Bool
deriving DecidableEq, Repr

/-- No studio time: the NO ANCHOR case (R37, R39). -/
def Translation.noAnchor : Translation := ⟨none, false, false, false⟩

/-- The exact result of R37 before its clamp. -/
def anchorInstant (fday : Nat) (rate : Rate) (anchor : Tie) (drift : Int) (label sub : Nat) : Int :=
  let delta := labelDiff fday label anchor.label
  let x := (256 * delta + sub) * rate.n * (1000000000 + drift)
  let y : Int := 256 * rate.d * 1000000000
  anchor.st + (2 * x + y) / (2 * y)

/-- The studio time of an unbound device's label (R37). -/
def translateUnbound (dev : Device) (label sub : Nat) : Translation :=
  match dev.anchor with
  | none => .noAnchor
  | some a =>
    let t := anchorInstant dev.fmt.fday dev.rate a dev.drift label sub
    if t < 0 then ⟨some 0, true, false, false⟩
    else if 2 ^ 64 ≤ t then ⟨some (2 ^ 64 - 1), true, false, false⟩
    else ⟨some t.toNat, false, false, false⟩

/-- The channel index of a bound device's label (R38). -/
def boundIndex (ch : Channel) (offset : Int) (label : Nat) : Int :=
  let fday := ch.cfg.fmt.fday
  ch.frame + labelDiff fday (((label : Int) - offset) % (fday : Int)) (ch.labelAt ch.frame)

/-- The studio time of a bound device's position (R39). -/
def translateBound (ch : Channel) (offset : Int) (label sub : Nat) : Translation :=
  let k := boundIndex ch offset label
  match ch.segmentForIndex k with
  | none => .noAnchor
  | some (g, stale) =>
    let t := g.positionInstant k sub
    { st := some (if t < 0 then 0 else instant64 t.toNat)
      clamped := decide (t < 0)
      stale := stale
      uncertain := decide ((ch.frame : Int) < k) }

/-! ## Drift (R40) -/

/-- The measured drift before its clamp; none when the span is below 1,000 frames (R40). -/
def measuredDrift (fday : Nat) (rate : Rate) (anchor verify : Tie) : Option Int :=
  let df := labelDiff fday verify.label anchor.label
  if df < 1000 then none
  else
    let dt : Int := verify.st - anchor.st
    some ((2 * dt * rate.d * 1000000000 + df * rate.n) / (2 * df * rate.n) - 1000000000)

/-! ## Watch labels (R41) -/

/-- The watch entry for a channel at an instant; none when the channel has never run (R41). -/
def watchEntry (c : Fin 16) (ch : Channel) (t : Nat) : Option Watch :=
  match ch.segmentAt t with
  | none => none
  | some (g, stale) =>
    let k := g.edgeAt t
    let stopped := ch.state != .running
    match ch.kind with
    | .picture => some ⟨c, false, stale, stopped, ch.cfg.fmt, g.subframe t k, ch.labelAt k⟩
    | .sample =>
      if k < 0 then some ⟨c, true, stale, stopped, ch.cfg.fmt, 0, 0⟩
      else some ⟨c, true, stale, stopped, ch.cfg.fmt, g.subframe t k, k.toNat⟩

/-! ## The reference grid (R3) -/

/-- The largest grid point at or before an instant that is not before the phase offset (R3). -/
def TimeBase.gridAt (tb : TimeBase) (t : Nat) : Nat :=
  tb.phi + (((t - tb.phi + 1) * tb.period.d - 1) / tb.period.n) * tb.period.n / tb.period.d

/-- The first grid point strictly after an instant (R3, R53). -/
def TimeBase.gridAfter (tb : TimeBase) (t : Nat) : Nat :=
  if t < tb.phi then tb.phi
  else
    tb.phi + (((t - tb.phi + 1) * tb.period.d - 1) / tb.period.n + 1) * tb.period.n / tb.period.d

/-- g′, the largest grid point at or before an instant; none before the phase offset (R7). -/
def TimeBase.gridBefore? (tb : TimeBase) (t : Nat) : Option Nat :=
  if t < tb.phi then none else some (tb.gridAt t)

/-- g, the smallest grid point at or after an instant (R7). -/
def TimeBase.gridFrom (tb : TimeBase) (t : Nat) : Nat :=
  match tb.gridBefore? t with
  | some g => if g = t then t else tb.gridAfter t
  | none => tb.phi

/-- H, the half-period of the reference (R3). -/
def TimeBase.half (tb : TimeBase) : Nat := tb.period.floorPeriod / 2

end Sys2Proof.Machine
end

