-- ==== Sys2Proof/Machine/Ops.lean ====
section
/-! DEFINITION. The named operations that the blocks share: memory and the shared window, the register files of
channels and slots, attention causes and the order engine's report, free values. -/

namespace Sys2Proof.Machine

/-! ## Memory

The shared window's bytes are a list of (address, byte) pairs with addresses strictly rising and no entry equal to what
an unlisted address reads as. -/

/-- The byte at an address. -/
def Memory.read : List Host.Cell → Nat → Byte
  | [], _ => Config.unlistedByte
  | (k, v) :: r, a => if k = a then v else Memory.read r a

/-- The memory with one byte written; writing what an unlisted address reads as removes the entry. -/
def Memory.write : List Host.Cell → Nat → Byte → List Host.Cell
  | [], a, v => if v = Config.unlistedByte then [] else [(a, v)]
  | (k, w) :: r, a, v =>
    if a < k then (if v = Config.unlistedByte then (k, w) :: r else (a, v) :: (k, w) :: r)
    else if a = k then (if v = Config.unlistedByte then r else (a, v) :: r)
    else (k, w) :: Memory.write r a v

/-- The canonical form: addresses strictly rising, no entry equal to what an unlisted address reads as. -/
def Memory.wf : List Host.Cell → Bool
  | [] => true
  | (k, v) :: r => v != Config.unlistedByte && r.all (fun c => decide (k < c.1)) && Memory.wf r

/-- A word, stored little-endian (R170). -/
def Memory.readWord (m : List Host.Cell) (a : Nat) : Word :=
  Memory.read m (a + 3) ++ Memory.read m (a + 2) ++ Memory.read m (a + 1) ++ Memory.read m a

/-- The memory with one word written, little-endian (R170). -/
def Memory.writeWord (m : List Host.Cell) (a : Nat) (w : Word) : List Host.Cell :=
  Memory.write (Memory.write (Memory.write (Memory.write m a (w.extractLsb' 0 8)) (a + 1) (w.extractLsb' 8 8))
    (a + 2) (w.extractLsb' 16 8)) (a + 3) (w.extractLsb' 24 8)

/-- The memory with words written one after another, each at its own address. -/
def Memory.writeAll (m : List Host.Cell) (ws : List (Nat × Word)) : List Host.Cell :=
  ws.foldl (fun m p => Memory.writeWord m p.1 p.2) m

/-- The memory after the first `k` of a list of word writes. -/
def Memory.writeFirst (m : List Host.Cell) (ws : List (Nat × Word)) (k : Nat) : List Host.Cell :=
  Memory.writeAll m (ws.take k)

/-- The memory after a list of word writes that was cut off in the word after the first `k`, which then holds `torn`
(R187). -/
def Memory.writeCut (m : List Host.Cell) (ws : List (Nat × Word)) (k : Nat) (torn : Word) : List Host.Cell :=
  Memory.writeAll m (ws.take k ++ ((ws.drop k).take 1).map (fun p => (p.1, torn)))

/-- Consecutive words with their addresses, from an address up. -/
def wordsAt (a : Nat) : List Word → List (Nat × Word)
  | [] => []
  | w :: ws => (a, w) :: wordsAt (a + 4) ws

/-- `n` consecutive words from an address up. -/
def Memory.readWords (m : List Host.Cell) (a n : Nat) : List Word :=
  (List.range n).map (fun i => Memory.readWord m (a + 4 * i))

/-! ## The shared window (R170) -/

/-- The window size by the straps as sampled (R170, the table under Signals and Physical Notes). -/
def State.windowSize (s : State) : Nat :=
  match s.straps with
  | (false, false) => 0x100000
  | (true, false) => 0x200000
  | (false, true) => 0x400000
  | (true, true) => 0x800000

/-- An area of `n` bytes lies wholly in the window. -/
def State.inWindow (s : State) (a n : Nat) : Bool := decide (a + n ≤ s.windowSize)

/-- Answer a next state when every word that the command accesses lies in the window, and the fault otherwise (R170:
the part reads and writes nothing outside the window). -/
def State.guarded (s : State) (addresses : List Nat) (t : State) : Host.Outcome State Fault Refusal :=
  match addresses.find? (fun a => !s.inWindow a 4) with
  | none => .next t
  | some a => .fault (.outsideWindow a)

/-! ## Channels and slots -/

def State.chan (s : State) (c : Fin 16) : Channel := s.chans.get c

def State.setChan (s : State) (c : Fin 16) (x : Channel) : State := { s with chans := s.chans.set c.val x c.isLt }

def State.slot (s : State) (i : Fin 48) : Device := s.slots.get i

def State.setSlot (s : State) (i : Fin 48) (x : Device) : State := { s with slots := s.slots.set i.val x i.isLt }

/-- A slot is occupied when its state is anything other than EMPTY (R89). -/
def Device.occupied (d : Device) : Bool := d.state != .empty

/-- A slot that either kind of turn may serve: occupied and not held (R84, R86). -/
def Device.callable (d : Device) : Bool := d.occupied && !d.held

/-- Set a slot's last result code (R105). -/
def State.setLastResult (s : State) (i : Fin 48) (r : Option Result) : State :=
  s.setSlot i { s.slot i with lastResult := r }

/-! ## Attention (R184 to R186) -/

/-- The attention causes (R184). -/
inductive Cause
  | chain | page | stock | reference | device | mark | refused | cleared
deriving DecidableEq, Repr

/-- The bit of a cause in ATTENTION (R189). -/
def Cause.bitMask : Cause → BitVec 8
  | .chain => 0x01 | .page => 0x02 | .stock => 0x04 | .reference => 0x08
  | .device => 0x10 | .mark => 0x20 | .refused => 0x40 | .cleared => 0x80

/-- A block raises a cause; one already set stays set (R184). -/
def State.raise (s : State) (c : Cause) : State :=
  { s with oe := { s.oe with causes := s.oe.causes ||| c.bitMask } }

/-- The interrupt line: asserted exactly when some set cause is enabled (R186). -/
def State.interruptLine (s : State) : Bool := s.oe.causes &&& s.oe.mask != 0

/-! ## Register reads that change nothing -/

/-- What a read of ORDER HEAD returns (R171, R189). -/
def State.orderHeadRead (s : State) : Word :=
  BitVec.ofNat 32 (s.oe.head / 4 * 4) ||| BitVec.ofNat 32 s.oe.chain.code

/-- What a read of ATTENTION returns (R185, R189). -/
def State.attentionRead (s : State) : Word := s.oe.causes.setWidth 32

/-- What a read of ATTENTION MASK returns (R186). -/
def State.attentionMaskRead (s : State) : Word := s.oe.mask.setWidth 32

/-- What a read of TIME HIGH returns: the latch (R20). -/
def State.timeHighRead (s : State) : Word := s.tb.timeHigh

/-! ## The order engine's report and the chain's end (R174 to R176) -/

/-- The owner reports a result, a detail and the result words, and the engine moves to TERMINATING (R174, R175). -/
def State.report (s : State) (code : Result) (detail : Nat := 0) (results : List (Nat × Word) := []) : State :=
  { s with oe := { s.oe with step := .terminating results code detail } }

/-- The chain ends in one event: the state becomes DONE or STOPPED, there is no current block, CHAIN is raised
(R176). -/
def State.chainEnd (s : State) (e : ChainState) : State :=
  State.raise { s with oe := { s.oe with chain := e, block := 0, step := .none, stopAfter := false } } .chain

/-- The owner keeps the order and the engine is WAITING (R174). -/
def State.keep (s : State) (k : Kept) : State := { s with oe := { s.oe with step := .waiting k } }

/-- The order engine hands the order in hand to its owner, who takes it in this event: `take` is what the owner does with
an order of kind `k` (R174). Nothing happens when no order of that kind is in hand with TAKEN written. -/
def State.handOrder (k : OrderKind) (take : Order → State → State) (s : State) : State :=
  match s.oe.step with
  | .taken o => if o.kind = k then take o s else s
  | _ => s

/-- The same for a roster order, which waits, with TAKEN written, while an EXCHANGE that engine clear has dropped runs
on (R174). -/
def State.handRosterOrder (k : OrderKind) (take : Order → State → State) (s : State) : State :=
  match s.oe.step with
  | .taken o =>
    if o.kind = k then
      if s.exch.isSome then { s with oe := { s.oe with step := .held o } } else take o s
    else s
  | _ => s

end Sys2Proof.Machine
end

