-- ==== Sys2Proof/Machine/Flags.lean ====
section
/-! DEFINITION. The flag computations: the flags of a MARK record (R143), the tests that make an answer garbled (R74),
the conditions on a channel as a jam's source (R102, R120, R123). -/

namespace Sys2Proof.Machine

/-- The flag bits of R191: bit 0 NO ANCHOR to bit 7 JAM IN PROGRESS. -/
def MarkFlags.byte (f : MarkFlags) : Nat :=
  (if f.noAnchor then 1 else 0) + (if f.uncertain then 2 else 0) + (if f.refNotLocked then 4 else 0)
    + (if f.driftClamped then 8 else 0) + (if f.stClamped then 16 else 0) + (if f.stale then 32 else 0)
    + (if f.adjusted then 64 else 0) + (if f.jamInProgress then 128 else 0)

/-- The state used for a translation: for a JAMMING record the remembered state of its jam context (R142). -/
def Device.translationState (d : Device) : DevState :=
  match d.state, d.jam with
  | .jamming, some j => j.remembered
  | st, _ => st

/-- UNCERTAIN by the record's state: SETTLING, DRIFTING or ABSENT, or JAMMING with remembered state SETTLING or
DRIFTING (R143). -/
def Device.uncertainByState (d : Device) : Bool :=
  match d.state with
  | .settling | .drifting | .absent => true
  | .jamming => d.jam.any (fun j => j.remembered == .settling || j.remembered == .drifting)
  | .empty | .enrolled | .locked => false

/-- The flags of a mark that names a slot (R143). -/
def slotMarkFlags (ref : RefState) (d : Device) (tr : Translation) (adjusted : Bool) : MarkFlags where
  noAnchor := tr.st.isNone
  uncertain := d.uncertainByState || tr.uncertain
  refNotLocked := ref != .locked
  driftClamped := d.boundTo.isNone && d.driftClamped
  stClamped := tr.clamped
  stale := tr.stale
  adjusted := adjusted
  jamInProgress := d.state == .jamming

/-- The flags of a host mark: REFERENCE NOT LOCKED alone can be set (R144). -/
def hostMarkFlags (ref : RefState) : MarkFlags where
  noAnchor := false
  uncertain := false
  refNotLocked := ref != .locked
  driftClamped := false
  stClamped := false
  stale := false
  adjusted := false
  jamInProgress := false

/-- The validity of an answer's current label, read in the called slot's label format (R74). An EMPTY slot names no
format: a label valid in all formats or in none is judged so, any other by a free value (log entry 20). -/
def labelValidForSlot (d : Device) (l : Label) : Bool :=
  if d.occupied then d.fmt.valid l
  else if Fmt.valid ⟨.b24, false⟩ l then true
  else if Fmt.valid ⟨.b60, false⟩ l then Config.emptySlotLabelValid l.hh l.mm l.ss l.ff
  else false

/-- The tests of R74. `quiet` when the line fell quiet before the declared length was complete; `addr` is the address
of the CALL, `d` the record of the called slot. -/
def garbledAnswer (chars : List RxChar) (quiet : Bool) (addr : Nat) (d : Device) : Bool :=
  charAt chars 0 != syncChar
    || chars.any (·.framingError)
    || (charAt chars 2).toNat / 32 != 3
    || !legalReportLength (declaredLength chars)
    || quiet
    || markCount chars != (declaredLength chars - 10) / 6
    || !checkGood chars
    || (charAt chars 1).toNat != addr
    || !labelValidForSlot d (labelAt chars 3)

/-- A usable source of a jam: a RUNNING PICTURE channel whose label format equals the record's (R102, R123). -/
def usableSource (ch : Channel) (d : Device) : Bool :=
  ch.state == .running && ch.kind == .picture && ch.cfg.fmt == d.fmt

end Sys2Proof.Machine
end

