-- ==== Sys2Proof/Machine/Formats.lean ====
section
/-! DEFINITION. The layouts that software and receivers see: take records (R191, R192), device packages (R193),
snapshot images (R194), termination words (R189), timecode words (R196). -/

namespace Sys2Proof.Machine

/-! ## Termination words (R189) -/

/-- TAKEN: code 0xFF and detail 0 (R189). -/
def takenWord : Word := 0x00FF0000

/-- A final termination word: the detail in bits 15:0, the result code in bits 23:16 (R189). -/
def terminationWord (code : Result) (detail : Nat) : Word := orAll [field 0 16 detail, field 16 8 code.code]

/-! ## Take records (R191, R192) -/

/-- A watch entry's two words (R192). A sample index is given modulo 2^40. -/
def Watch.words (w : Watch) : List Word :=
  let index := if w.sample then w.index % 2 ^ 40 else w.index
  [orAll [field 0 4 w.chan.val, flagBit 4 w.sample, flagBit 5 w.stale, flagBit 6 w.stopped,
     field 8 4 (if w.sample then 0 else w.fmt.code), field 16 8 w.sub, field 24 8 (index / 2 ^ 32)],
   BitVec.ofNat 32 index]

/-- The detail byte of a SYSTEM record (R192). -/
def SysEvent.detailByte : SysEvent → Nat
  | .timeStep _ => 0
  | .referenceState new old => new.code + 4 * old.code
  | .deviceState _ _ ev => ev.code
  | .jamOutcome _ _ outcome origin sets last _ =>
    outcome.code + 8 * origin.code + 16 * (sets % 8) + (if last.isSome then 128 else 0)
  | .channelEvent _ _ seg => match seg with
    | some (origin, _) => origin / 2 ^ 32 % 256
    | none => 0

/-- The subkind codes (R192). -/
def SysEvent.subkind : SysEvent → Nat
  | .timeStep _ => 1
  | .referenceState _ _ => 2
  | .deviceState _ _ _ => 3
  | .jamOutcome _ _ _ _ _ _ _ => 4
  | .channelEvent _ _ _ => 5

/-- The source byte of a SYSTEM record (R192). -/
def SysEvent.sourceByte : SysEvent → Nat
  | .timeStep _ => 63
  | .referenceState _ _ => 63
  | .deviceState slot _ _ => slot.val
  | .jamOutcome slot _ _ _ _ _ _ => slot.val
  | .channelEvent chan kind seg =>
    chan.val + 16 * kind.code + (match seg with
      | some (origin, _) => 64 + 128 * (origin / 2 ^ 40 % 2)
      | none => 0)

/-- Word 4 of a SYSTEM record (R192). -/
def SysEvent.word4 : SysEvent → Word
  | .timeStep d => BitVec.ofNat 32 d
  | .referenceState _ _ => 0
  | .deviceState _ _ _ => 0
  | .jamOutcome _ _ _ _ _ last left => orAll [field 0 23 (last.getD 0), field 24 3 left.code]
  | .channelEvent _ _ seg => match seg with
    | some (origin, _) => BitVec.ofNat 32 origin
    | none => 0

/-- Word 5 of a SYSTEM record (R192). -/
def SysEvent.word5 : SysEvent → Word
  | .timeStep _ => 0
  | .referenceState _ _ => 0
  | .deviceState _ addr _ => field 8 6 addr
  | .jamOutcome _ addr _ _ _ _ _ => field 8 6 addr
  | .channelEvent _ _ seg => match seg with
    | some (_, base) => BitVec.ofNat 32 base
    | none => 0

/-- The watch entries of a record. -/
def RecordBody.watch : RecordBody → List Watch
  | .mark _ _ _ watch => watch
  | .system _ => []

/-- A record is 8 words plus 2 for each watch entry (R191). -/
def TakeRecord.length (r : TakeRecord) : Nat := 8 + 2 * r.body.watch.length

/-- Words 2 to 5 of a record, which its kind decides (R191). -/
def TakeRecord.middle (r : TakeRecord) : List Word :=
  match r.body with
  | .mark kind source flags watch =>
    [orAll [field 0 8 flags.byte, field 8 4 kind.val, field 12 3 watch.length, field 16 16 r.gen.toNat],
     orAll [field 0 14 r.slate, field 14 10 r.take,
       field 24 6 (match source with | some m => m.slot.val | none => 63)],
     (match source with
      | some m => orAll [field 0 23 m.label, field 24 4 m.fmt.code]
      | none => 0),
     (match source with
      | some m => orAll [field 0 8 m.sub, field 8 6 m.linkAddr]
      | none => 0)]
  | .system ev =>
    [orAll [field 0 8 ev.detailByte, field 8 4 ev.subkind, flagBit 15 true, field 16 16 r.gen.toNat],
     orAll [field 0 14 r.slate, field 14 10 r.take, field 24 8 ev.sourceByte],
     ev.word4, ev.word5]

/-- A take record's words in a page (R191). -/
def TakeRecord.words (r : TakeRecord) : List Word :=
  [r.seq, r.lostBefore] ++ r.middle ++ [lowWord (r.st.getD 0), highWord (r.st.getD 0)]
    ++ r.body.watch.flatMap Watch.words

/-! ## Device packages (R193) -/

def packageTag : Word := 0xA5C30016

/-- The outgoing image of a slot (R193). -/
def Device.package (d : Device) : List Word :=
  match d.state with
  | .empty =>
    [packageTag, 0, 0, 0, 0, field 0 20 13500, 0, 0, 0, 0, 0, 0, 0, 0, field 0 5 (lastResultCode d.lastResult), 0]
  | st =>
    [packageTag,
     orAll [field 0 3 st.code,
       field 4 3 (match st, d.before with | .absent, some b => b.code | _, _ => 0),
       field 8 6 d.linkAddr, field 16 2 d.cls.code, field 18 2 d.recovery.code,
       flagBit 20 d.protectedFlag, flagBit 21 d.dualTrack, flagBit 22 d.driftClamped, field 24 4 d.fmt.code],
     field 0 24 d.rate.n,
     orAll [field 0 16 d.rate.d,
       field 16 4 (match d.boundTo with | some c => c.val | none => 0), flagBit 20 d.boundTo.isSome,
       field 24 4 (match d.jamSource with | some c => c.val | none => 0), flagBit 28 d.jamSource.isSome,
       flagBit 29 d.anchor.isSome, flagBit 30 d.verify.isSome],
     orAll [field 0 16 d.pathDelay, field 16 16 d.marksLogged.toNat],
     field 0 20 d.window,
     if d.boundTo.isSome then 0 else signedWord d.drift,
     signedWord (if d.boundTo.isSome && d.anchor.isSome then d.offset.getD 0 else 0),
     BitVec.ofNat 32 ((d.anchor.map Tie.label).getD 0),
     lowWord ((d.anchor.map Tie.st).getD 0), highWord ((d.anchor.map Tie.st).getD 0),
     BitVec.ofNat 32 ((d.verify.map Tie.label).getD 0),
     lowWord ((d.verify.map Tie.st).getD 0), highWord ((d.verify.map Tie.st).getD 0),
     field 0 5 (lastResultCode d.lastResult),
     0]

/-- Word i of a package image that has been read. -/
def imageWord (image : List Word) (i : Nat) : Word := image.getD i 0

/-! ## Snapshot images (R194) -/

/-- A channel's four summary words (R194). -/
def Channel.summary (ch : Channel) : List Word :=
  let state := match ch.state with
    | .stopped => 0
    | .armed => 1
    | .running => if ch.stopPending then 3 else 2
  [ch.cfg.userWord,
   orAll [field 0 23 ch.cfg.start, field 23 2 state, flagBit 25 (ch.kind == .sample),
     flagBit 26 ch.staged.isSome, flagBit 27 ch.prior.isSome, field 28 4 ch.cfg.fmt.code],
   orAll [field 0 24 ch.cfg.rate.n, field 24 6 ch.bound, flagBit 30 ch.cfg.labelOut],
   orAll [field 0 16 ch.cfg.rate.d, field 16 16 ch.frame]]

/-- A slot's four summary words; an EMPTY slot shows only its state and last result code (R194). -/
def Device.summary (d : Device) : List Word :=
  match d.state with
  | .empty => [field 17 5 (lastResultCode d.lastResult), 0, 0, 0]
  | st =>
    [orAll [field 0 3 st.code, flagBit 3 d.held, field 4 6 d.linkAddr, field 10 2 d.cls.code,
       flagBit 12 d.driftClamped, field 13 4 d.miss, field 17 5 (lastResultCode d.lastResult),
       field 22 2 (match st, d.jam with | .jamming, some j => j.retries | _, _ => 0),
       field 24 3 (match st, d.jam with | .jamming, some j => j.reports | _, _ => 0)],
     signedWord d.drift,
     field 0 16 d.marksLogged.toNat,
     0]

/-- The general section (R194). -/
def State.generalSection (s : State) : List Word :=
  [lowWord s.tb.st, highWord s.tb.st,
   orAll [field 0 16 s.tb.gen.toNat, field 16 2 s.tb.ref.code, field 24 5 s.tb.qual],
   signedWord s.tb.trim, signedWord s.tb.slew,
   orAll [field 0 14 s.lu.slate, field 14 10 s.lu.take],
   orAll [field 0 7 s.lu.queue.length, field 16 6 s.pw.stock.length],
   BitVec.ofNat 32 (match s.pw.page with | some p => p.addr | none => 0),
   s.lc.garbled, s.lc.unknown, s.lu.discarded, s.pw.refused, s.lu.seq, s.lu.lostTotal, 0, 0]

/-- The 272 words of a snapshot image (R182, R194). -/
def State.snapshotImage (s : State) : List Word :=
  s.generalSection ++ s.chans.toList.flatMap Channel.summary ++ s.slots.toList.flatMap Device.summary

/-! ## Timecode words (R196) -/

/-- The cells of a number of `width` cells, least significant first, from cell `lo` (R196). -/
def cellField (lo width v : Nat) : Nat := (v % 2 ^ width) * 2 ^ lo

/-- The number of 1 cells in a number's low `n` cells. -/
def onesCount : Nat → Nat → Nat
  | 0, _ => 0
  | n + 1, v => v % 2 + onesCount n (v / 2)

/-- The 64 cells of a timecode word, cell i in bit i (R196). -/
def timecodeCells (l : Label) (f : Fmt) (userWord : Word) : BitVec 64 :=
  let body := cellField 4 6 l.ff + cellField 10 6 l.ss + cellField 16 6 l.mm + cellField 22 5 l.hh
    + cellField 27 1 (if f.drop then 1 else 0) + cellField 28 3 f.base.code + cellField 32 32 userWord.toNat
  BitVec.ofNat 64 (0xD + body + cellField 31 1 (onesCount 64 body % 2))

/-- The level of a timecode line at an instant while a word is on it: cell i from the edge plus floor(i·L/64) to the
edge plus floor((i + 1)·L/64) (R196). -/
def TimecodeWord.level (w : TimecodeWord) (t : Nat) : Bool :=
  let len := w.next - w.edge
  (List.range 64).any fun i =>
    w.cells.toNat.testBit i && decide (w.edge + i * len / 64 ≤ t) && decide (t < w.edge + (i + 1) * len / 64)

/-- The level of a channel's timecode line: low when idle (R196). -/
def State.timecodeLine (s : State) (c : Fin 16) : Bool :=
  match (s.chan c).tcWord with
  | none => false
  | some w => w.level s.tb.st

/-- The level of a channel's pulse line (R49). -/
def State.pulseLine (s : State) (c : Fin 16) : Bool := (s.chan c).pulse.isSome

end Sys2Proof.Machine
end

