-- ==== Sys2Proof/Machine/PageWriter.lean ====
section
/-! DEFINITION. The page writer: its choice of activity (R158), the claim, the record write and the close, the page
stock with GIVE PAGES, FLUSH LOG, and its engine-clear action (R156 to R169). -/

namespace Sys2Proof.Machine

/-! ## Memory operations of the page writer -/

/-- The words a claim writes into an EMPTY page's header (R160, R191). R160 gives them no order; that they are written in
address order, the state word first, is the model's choice, seen when a reset cuts the claim off (R169; log entry 33). -/
def State.claimWrites (s : State) (page : Nat) : List (Nat × Word) :=
  wordsAt page [1, s.pw.pageSeq, 0, (s.lu.queue.head?.map TakeRecord.seq).getD 0]

/-- The words a record write puts into the open page: the record's words, then the record count (R157, R162). -/
def recordWrites (p : OpenPage) (r : TakeRecord) : List (Nat × Word) :=
  wordsAt (p.addr + 16 + 4 * p.used) r.words ++ [(p.addr + 8, BitVec.ofNat 32 (p.records + 1))]

/-- The words of a record write still to be made after the first `made` (R170). -/
def recordLeft (p : OpenPage) (r : TakeRecord) (made : Nat) : List (Nat × Word) := (recordWrites p r).drop made

/-- The word a close writes: FULL into the state word (R163, R191). -/
def closeWrites (p : OpenPage) : List (Nat × Word) := [(p.addr, 2)]

/-- A record fits when the words used and its length are at most 252 together (R156). -/
def OpenPage.fits (p : OpenPage) (r : TakeRecord) : Bool := decide (p.used + r.length ≤ 252)

/-! ## The flush set -/

/-- How many records of the flush set are still unwritten: those in the queue up to the noted tail (R164). -/
def unwrittenUpTo (tail : Option Word) (queue : List TakeRecord) : Nat :=
  match tail with
  | none => 0
  | some t =>
    match queue.findIdx? (fun r => r.seq == t) with
    | some j => j + 1
    | none => 0

/-- The unwritten records of the flush set that a FLUSH LOG waits for; none when no FLUSH LOG waits. -/
def State.flushLeft (s : State) : Option Nat :=
  s.pw.flush.map (fun f => unwrittenUpTo f.tail s.lu.queue)

/-- FLUSH LOG ends: the flush set is forgotten and the order terminates (R165 to R167). -/
def State.endFlush (s : State) (code : Result) (detail : Nat) : State :=
  State.report { s with pw := { s.pw with flush := none } } code detail

/-! ## The choice (R158) -/

def State.setActivity (s : State) (a : Activity) : State := { s with pw := { s.pw with activity := a } }

/-- The claim of the stock's head begins: the address leaves the stock, and STOCK is raised when fewer than 4 are left
(R160, R161; log entry 13). -/
def State.beginClaim (s : State) (page : Nat) (rest : List Nat) : State :=
  let s1 := { s with pw := { s.pw with activity := .claiming page false, stock := rest } }
  if rest.length < 4 then s1.raise .stock else s1

/-- Entry into STARVED: STOCK is raised, unless the entry follows an engine clear (R161, R168), and a FLUSH LOG whose
records are unwritten ends with their number (R166). -/
def State.enterStarved (s : State) (afterClear : Bool) : State :=
  let s1 := s.setActivity .starved
  let s2 := if afterClear then s1 else s1.raise .stock
  match s2.flushLeft with
  | some (n + 1) => s2.endFlush .done (n + 1)
  | _ => s2

/-- The choice from its second row on: idle, write, close as full, claim or starve (R158). -/
def State.chooseWork (s : State) (afterClear : Bool) : State :=
  match s.lu.queue with
  | [] => s.setActivity .idle
  | r :: _ =>
    match s.pw.page with
    | some p => if p.fits r then s.setActivity (.writing 0) else s.setActivity (.closing .full false)
    | none =>
      match s.pw.stock with
      | page :: rest => s.beginClaim page rest
      | [] => s.enterStarved afterClear

/-- The page writer's choice (R158). A flush set that is written closes the open page for the flush when it holds a
record, and ends FLUSH LOG at once otherwise (R165). -/
def State.choose (s : State) (afterClear : Bool) : State :=
  if s.flushLeft = some 0 then
    if (s.pw.page.map OpenPage.records).getD 0 = 0 then (s.endFlush .done 0).chooseWork afterClear
    else s.setActivity (.closing .flush false)
  else s.chooseWork afterClear

/-! ## The events of the page writer -/

/-- The claim of an EMPTY page: its header is written, the page sequence counter advances, the page is open (R160).
When an engine clear was taken meanwhile, the page is closed at once (R168). -/
def State.claimEmpty (s : State) (page : Nat) (cleared : Bool) : State :=
  let s1 :=
    { s with
      mem := Memory.writeAll s.mem (s.claimWrites page)
      pw := { s.pw with page := some ⟨page, s.pw.pageSeq, 0, 0⟩, pageSeq := s.pw.pageSeq + 1 } }
  if cleared then s1.setActivity (.closing .clear true) else s1.choose false

/-- The claim of a page that is not EMPTY: the address is dropped and counted (R160). -/
def State.claimRefused (s : State) (cleared : Bool) : State :=
  State.choose { s with pw := { s.pw with refused := s.pw.refused + 1 } } cleared

/-- PAGE_CLAIM (R160): the locked claim of a page completes. -/
def execPageClaim (s : State) : Host.Outcome State Fault Refusal :=
  match s.pw.activity with
  | .claiming page cleared =>
    s.guarded [page, page + 12]
      (if Memory.readWord s.mem page = 0 then s.claimEmpty page cleared else s.claimRefused cleared)
  | _ => .next s

/-- A record write is complete, its words after the first `made` written now: the page's counts take their new values,
the head leaves the queue, and the writer chooses (R162). -/
def State.recordDone (s : State) (p : OpenPage) (r : TakeRecord) (rest : List TakeRecord) (made : Nat) : State :=
  State.choose
    { s with
      mem := Memory.writeAll s.mem (recordLeft p r made)
      pw := { s.pw with page := some { p with records := p.records + 1, used := p.used + r.length } }
      lu := { s.lu with queue := rest } } false

/-- RECORD_WRITTEN (R162). -/
def execRecordWritten (s : State) : Host.Outcome State Fault Refusal :=
  match s.pw.activity, s.pw.page, s.lu.queue with
  | .writing made, some p, r :: rest =>
    s.guarded ((recordLeft p r made).map Prod.fst) (s.recordDone p r rest made)
  | _, _, _ => .next s

/-- What the end of a close does once the page is no longer open: PAGE for a full close (R163), the end of FLUSH LOG
for a flush close (R165, R167), and then the choice (R158, R168). -/
def State.afterClose (s : State) (why : CloseWhy) (cleared : Bool) : State :=
  match why with
  | .full => (s.raise .page).choose cleared
  | .flush =>
    match s.pw.flush with
    | some f => (s.endFlush (if f.aborted then .aborted else .done) 0).choose cleared
    | none => s.choose cleared
  | .clear => s.choose true

/-- A close write has ended: FULL stands in the state word and the page is no longer open (R163). -/
def State.closeDone (s : State) (p : OpenPage) (why : CloseWhy) (cleared : Bool) : State :=
  State.afterClose
    { s with mem := Memory.writeAll s.mem (closeWrites p), pw := { s.pw with page := none } } why cleared

/-- PAGE_CLOSE_DONE (R163). -/
def execPageCloseDone (s : State) : Host.Outcome State Fault Refusal :=
  match s.pw.activity, s.pw.page with
  | .closing why cleared, some p => s.guarded [p.addr] (s.closeDone p why cleared)
  | _, _ => .next s

/-! ## GIVE PAGES (R159) -/

/-- The address that counts as the open page: the open page's, or that of the page being claimed (R159). -/
def State.pageInUse (s : State) (a : Nat) : Bool :=
  (match s.pw.page with | some p => p.addr == a | none => false)
    || (match s.pw.activity with | .claiming p _ => p == a | _ => false)

/-- An address that GIVE PAGES takes, the stock standing as `stock` (R159). -/
def State.pageAcceptable (s : State) (stock : List Nat) (a : Nat) : Bool :=
  a != 0 && a % 1024 == 0 && s.inWindow a 1024 && !stock.contains a && !s.pageInUse a
    && decide (stock.length < 32)

/-- The stock after the addresses have been taken in the order given, each one skipped joining nothing (R159). -/
def State.stockWith (s : State) : List Nat → List Nat → List Nat
  | stock, [] => stock
  | stock, a :: rest => s.stockWith (if s.pageAcceptable stock a then stock ++ [a] else stock) rest

/-- GIVE PAGES, taken by the page writer (R159). The writer chooses at once when it was STARVED and the order took an
address. -/
def givePagesOrder (o : Order) (s : State) : State :=
  let count := (o.p 0).toNat
  if count = 0 ∨ 32 < count then s.report .refusedRange
  else
    let stock := s.stockWith s.pw.stock (((o.params.drop 1).take count).map BitVec.toNat)
    let taken := stock.length - s.pw.stock.length
    let s1 := State.report { s with pw := { s.pw with stock := stock } } .done taken
    if s.pw.activity = .starved ∧ 0 < taken then s1.choose false else s1

/-! ## FLUSH LOG (R164 to R166) -/

/-- FLUSH LOG, taken by the page writer: it notes the flush set and waits. An IDLE writer chooses at once; a STARVED one
ends the order with the number of unwritten records (R164 to R166). -/
def flushLogOrder (_o : Order) (s : State) : State :=
  let s1 :=
    State.keep { s with pw := { s.pw with flush := some ⟨s.lu.queue.getLast?.map TakeRecord.seq, false⟩ } } .flushLog
  match s.pw.activity with
  | .idle => s1.choose false
  | .starved => s1.endFlush .done (s1.flushLeft.getD 0)
  | _ => s1

/-- An abort taken while FLUSH LOG waits: the flush set is forgotten and the order terminates ABORTED, after the flush
close when that is being written (R167). -/
def State.abortFlush (s : State) : State :=
  match s.pw.activity, s.pw.flush with
  | .closing .flush _, some f => { s with pw := { s.pw with flush := some { f with aborted := true } } }
  | _, _ => s.endFlush .aborted 0

/-! ## Engine clear (R168) -/

/-- The number of words, of `n` that an operation writes, that were made before engine clear or reset cut it off: a free
value (log entry 14). -/
def State.wordsMade (s : State) (n : Nat) : Nat := Config.freeCount s.free % (n + 1)

/-- The words of the record itself that are still to be written after the first `made`: the record count is none of them
(R162, R168). -/
def recordWordsLeft (p : OpenPage) (r : TakeRecord) (made : Nat) : List (Nat × Word) :=
  (wordsAt (p.addr + 16 + 4 * p.used) r.words).drop made

/-- A record write, its first `made` words made, is cut off after the word being written; no new record count is
written (R168). -/
def State.cutRecord (s : State) (p : OpenPage) (r : TakeRecord) (made : Nat) : State :=
  match recordWordsLeft p r made with
  | [] => s
  | ws => { s with mem := Memory.writeFirst s.mem ws (s.wordsMade ws.length), free := s.free + 1 }

/-- The page writer's engine-clear action: the stock is emptied, a flush set is dropped, and the open page is closed by
activity; a flush close in progress becomes the writer's own (R167, R168). A STARVED writer with no page open stays
STARVED and raises nothing (log entry 30). -/
def State.pageWriterClear (s : State) : State :=
  let s1 := { s with pw := { s.pw with stock := [], flush := none } }
  match s1.pw.activity, s1.pw.page with
  | .claiming page _, _ => s1.setActivity (.claiming page true)
  | .closing .full _, _ => s1.setActivity (.closing .full true)
  | .closing .flush _, _ => s1.setActivity (.closing .clear true)
  | .closing .clear _, _ => s1.setActivity (.closing .clear true)
  | .writing made, some p =>
    match s1.lu.queue with
    | r :: _ => (s1.cutRecord p r made).setActivity (.closing .clear true)
    | [] => s1.setActivity (.closing .clear true)
  | .idle, some _ => s1.setActivity (.closing .clear true)
  | _, _ => s1

end Sys2Proof.Machine
end

