-- ==== Sys2Proof/Machine/Log.lean ====
section
/-! DEFINITION. The log unit: records and their queue, system events, the take counter and take stamping, the path of a
mark, and the orders SET ACTION, SET TAKE, INJECT MARK and TRANSLATE (R135 to R155, R63). -/

namespace Sys2Proof.Machine

/-! ## The record queue (R149, R150) -/

/-- A record is submitted: it takes the sequence counter's value, and joins the queue with the lost-run count before it,
or is lost and counted when the queue holds 64 (R149). A record that joins while the page writer is IDLE makes it choose
(R158). -/
def State.submit (r : TakeRecord) (s : State) : State :=
  let lu := s.lu
  if lu.queue.length < 64 then
    let s1 :=
      { s with
        lu :=
          { lu with
            queue := lu.queue ++ [{ r with seq := lu.seq, lostBefore := lu.lostRun }]
            lostRun := 0
            seq := lu.seq + 1 } }
    if s.pw.activity = .idle then s1.choose false else s1
  else
    { s with lu := { lu with seq := lu.seq + 1, lostRun := lu.lostRun + 1, lostTotal := lu.lostTotal + 1 } }

/-- A system event becomes a SYSTEM record with ST, G and the take counter as they stand (R147). -/
def State.sysEvent (ev : SysEvent) (s : State) : State :=
  s.submit
    { seq := 0, lostBefore := 0, body := .system ev, st := some s.tb.st, gen := s.tb.gen, slate := s.lu.slate,
      take := s.lu.take }

/-! ## The take counter and take stamping (R137, R63) -/

/-- A take step applied to the take counter (R137). -/
def LogUnit.stepTake (lu : LogUnit) (step : TakeStep) : LogUnit :=
  match step with
  | .none => lu
  | .nextTake => { lu with take := if lu.take < 999 then lu.take + 1 else 999 }
  | .nextSlate => { lu with slate := if lu.slate < 9999 then lu.slate + 1 else 9999, take := 1 }

/-- The user word of a take-stamping request: slate × 1,000 + take (R63, R141). -/
def LogUnit.takeWord (lu : LogUnit) : Word := BitVec.ofNat 32 (lu.slate * 1000 + lu.take)

/-- A take-stamping request on a channel, by its state and staged set (R63). -/
def Channel.stamp (ch : Channel) (w : Word) : Channel :=
  match ch.state with
  | .stopped | .armed => { ch with cfg := { ch.cfg with userWord := w } }
  | .running =>
    match ch.staged with
    | some (.full set) => { ch with staged := some (.full { set with userWord := w }) }
    | some (.user _) => { ch with staged := some (.user w) }
    | none => { ch with staged := some (.user w) }

/-- The take-stamping requests of a mark: one to each watch channel whose take stamping is on, in list order
(R141). -/
def State.stampChannels (s : State) (w : Word) : List (Fin 16) → State
  | [] => s
  | c :: cs =>
    State.stampChannels (if (s.chan c).cfg.stamping then s.setChan c ((s.chan c).stamp w) else s) w cs

/-! ## Translation (R142) and watch entries (R41) -/

/-- The translation of a slot's label: by its anchor when unbound, by its label offset and channel when bound
(R142). -/
def State.translateSlot (s : State) (d : Device) (label sub : Nat) : Translation :=
  match d.boundTo with
  | none => translateUnbound d label sub
  | some c =>
    match d.offset with
    | none => .noAnchor
    | some o => translateBound (s.chan c) o label sub

/-- The watch entries of a list of channels at a studio time; none without a studio time (R41, R141). -/
def State.watchEntries (s : State) (watch : List (Fin 16)) (st : Option Nat) : List Watch :=
  match st with
  | none => []
  | some t => watch.filterMap (fun c => watchEntry c (s.chan c) t)

/-! ## The path of a mark (R139 to R144) -/

/-- Where a mark comes from: a slot with a label index, a subframe and ADJUSTED or not, or the host with an ST
(R139). -/
inductive MarkOrigin
  | slot (i : Fin 48) (label sub : Nat) (adjusted : Bool)
  | host (st : Nat)
deriving DecidableEq, Repr

/-- The tests of R140 that apply to every mark: its action entry is enabled, and a slot's class is in the mask. -/
def State.markPasses (s : State) (kind : Fin 16) (m : MarkOrigin) : Bool :=
  let a := s.lu.actions.get kind
  a.enabled &&
    match m with
    | .slot i _ _ _ => a.classMask.getLsbD (s.slot i).cls.code
    | .host _ => true

/-- A mark is discarded (R140). -/
def State.discardMark (s : State) : State := { s with lu := { s.lu with discarded := s.lu.discarded + 1 } }

/-- The studio time, flags and source of a mark's record (R142 to R144, R146). -/
def State.markReading (s : State) (m : MarkOrigin) : Option Nat × MarkFlags × Option MarkSource :=
  match m with
  | .slot i label sub adjusted =>
    let d := s.slot i
    let tr := s.translateSlot d label sub
    (tr.st, slotMarkFlags s.tb.ref d tr adjusted, some ⟨i, d.linkAddr, label, d.fmt, sub⟩)
  | .host t => (some t, hostMarkFlags s.tb.ref, none)

/-- The MARK record of a mark, the take counter already stepped (R146). -/
def State.markRecord (s : State) (kind : Fin 16) (watch : List (Fin 16)) (m : MarkOrigin) : TakeRecord :=
  let reading := s.markReading m
  { seq := 0, lostBefore := 0
    body := .mark kind reading.2.2 reading.2.1 (s.watchEntries watch reading.1)
    st := reading.1, gen := s.tb.gen, slate := s.lu.slate, take := s.lu.take }

/-- The marks-logged count of a mark's slot is raised; a host mark raises none (R105, R144). -/
def State.countMark (s : State) (m : MarkOrigin) : State :=
  match m with
  | .slot i _ _ _ => s.setSlot i { s.slot i with marksLogged := (s.slot i).marksLogged + 1 }
  | .host _ => s

/-- A mark is logged: take step, stamping, translation, record, marks-logged count, attention, in this order (R141).
Stamping moves no segment, so the translation after it reads what stood before it. -/
def State.logMark (s : State) (kind : Fin 16) (m : MarkOrigin) : State :=
  let a := s.lu.actions.get kind
  let s1 := { s with lu := s.lu.stepTake a.step }
  let s2 := s1.stampChannels s1.lu.takeWord a.watch
  let s3 := s2.submit (s2.markRecord kind a.watch m)
  let s4 := s3.countMark m
  if a.attention then s4.raise .mark else s4

/-- A formed mark is logged or discarded (R140, R141). -/
def State.takeMark (s : State) (kind : Fin 16) (m : MarkOrigin) : State :=
  if s.markPasses kind m then s.logMark kind m else s.discardMark

/-- A REPORT's mark entry reaches the log unit: it is discarded for a kind above 15 or an invalid label, and otherwise
goes the path of a mark of the slot (R139, R140, R33, R34). -/
def State.takeEntry (i : Fin 48) (s : State) (e : MarkEntry) : State :=
  match chanOf e.kind, (s.slot i).fmt.enter e.label with
  | some kind, some (label, adjusted) => s.takeMark kind (.slot i label e.sub adjusted)
  | _, _ => s.discardMark

/-! ## SET ACTION and SET TAKE (R136, R138) -/

/-- The take step of its 2-bit field; none for 3 (R190). -/
def takeStepOfCode (c : Nat) : Option TakeStep :=
  match c with
  | 0 => some .none | 1 => some .nextTake | 2 => some .nextSlate | _ => none

/-- The action entry that a SET ACTION carries; none when a check of R136 fails. -/
def actionOf (o : Order) : Option (Fin 16 × Action) :=
  match chanOf (o.p 0).toNat, takeStepOfCode (bits (o.p 1) 5 4) with
  | some kind, some step =>
    if (o.p 2).toNat ≤ 4 then
      match distinctChannels (channelBytes (o.p 3) (o.p 2).toNat) with
      | some watch =>
        some (kind,
          { enabled := bit (o.p 1) 0, classMask := BitVec.ofNat 4 (bits (o.p 1) 11 8), step := step,
            watch := watch, attention := bit (o.p 1) 1 })
      | none => none
    else none
  | _, _ => none

/-- SET ACTION, taken by the log unit (R136). -/
def setActionOrder (o : Order) (s : State) : State :=
  match actionOf o with
  | some (kind, a) =>
    State.report { s with lu := { s.lu with actions := s.lu.actions.set kind.val a kind.isLt } } .done
  | none => s.report .refusedRange

/-- SET TAKE, taken by the log unit (R138). -/
def setTakeOrder (o : Order) (s : State) : State :=
  if (o.p 0).toNat ≤ 9999 ∧ (o.p 1).toNat ≤ 999 then
    State.report { s with lu := { s.lu with slate := (o.p 0).toNat, take := (o.p 1).toNat } } .done
  else s.report .refusedRange

/-! ## INJECT MARK (R145) -/

/-- The mark that a slot or ST form names, by the checks of R145 and R152 on the slot, its subframe and its label. -/
def State.orderMark (s : State) (stForm : Bool) (w0 w1 sub : Word) : Except Result MarkOrigin :=
  if stForm then .ok (.host (wide w0 w1))
  else
    match slotOf w0 with
    | none => .error .refusedRange
    | some i =>
      if 255 < sub.toNat then .error .refusedRange
      else if (s.slot i).state = .empty then .error .refusedState
      else
        match (s.slot i).fmt.enter (labelOfWord w1) with
        | none => .error .refusedRange
        | some (label, adjusted) => .ok (.slot i label sub.toNat adjusted)

/-- What became of an injected mark: 0 when its record entered the queue, 1 when it was lost, 2 when the mark was
discarded (R145). -/
def State.markFate (s : State) (kind : Fin 16) (m : MarkOrigin) : Nat :=
  if s.markPasses kind m then (if s.lu.queue.length < 64 then 0 else 1) else 2

/-- INJECT MARK, taken by the log unit (R145). -/
def injectMarkOrder (o : Order) (s : State) : State :=
  match chanOf (o.p 0).toNat with
  | none => s.report .refusedRange
  | some kind =>
    match s.orderMark o.stForm (o.p 1) (o.p 2) (o.p 3) with
    | .error code => s.report code
    | .ok m => (s.takeMark kind m).report .done (s.markFate kind m)

/-! ## TRANSLATE (R152, R153) -/

/-- The eleven result words p5 to p15 of a TRANSLATE (R153, R190). -/
def translateResults (st : Option Nat) (gen : BitVec 16) (flags : MarkFlags) (watch : List Watch) : List Word :=
  let entries := watch.flatMap Watch.words
  [lowWord (st.getD 0), highWord (st.getD 0),
    orAll [field 0 16 gen.toNat, field 16 8 flags.byte, field 24 3 watch.length]]
    ++ entries ++ List.replicate (8 - entries.length) 0

/-- The channels that a TRANSLATE names; none when a check of R152 on them fails. -/
def translateChannels (o : Order) : Option (List (Fin 16)) :=
  if (o.p 3).toNat ≤ 4 then distinctChannels (channelBytes (o.p 4) (o.p 3).toNat) else none

/-- The range checks of R152, which come before the slot's state: the slot, the subframe and the channels. -/
def translateInRange (o : Order) : Bool :=
  (o.stForm || ((slotOf (o.p 0)).isSome && decide ((o.p 2).toNat ≤ 255))) && (translateChannels o).isSome

/-- TRANSLATE, taken by the log unit: it changes nothing and reports its result words (R152, R153). -/
def translateOrder (o : Order) (s : State) : State :=
  if translateInRange o then
    match s.orderMark o.stForm (o.p 0) (o.p 1) (o.p 2) with
    | .error code => s.report code
    | .ok m =>
      let reading := s.markReading m
      s.report .done 0
        (wordsAt (s.oe.block + 36)
          (translateResults reading.1 s.tb.gen reading.2.1
            (s.watchEntries ((translateChannels o).getD []) reading.1)))
  else s.report .refusedRange

/-! ## The commands -/

/-- SET_ACTION (R136): handed to the log unit. -/
def execSetAction (s : State) : Host.Outcome State Fault Refusal := .next (s.handOrder .setAction setActionOrder)

/-- SET_TAKE (R138): handed to the log unit. -/
def execSetTake (s : State) : Host.Outcome State Fault Refusal := .next (s.handOrder .setTake setTakeOrder)

/-- INJECT_MARK (R145): handed to the log unit. -/
def execInjectMark (s : State) : Host.Outcome State Fault Refusal := .next (s.handOrder .injectMark injectMarkOrder)

/-- TRANSLATE (R153): handed to the log unit. -/
def execTranslate (s : State) : Host.Outcome State Fault Refusal := .next (s.handOrder .translate translateOrder)

/-- GIVE_PAGES (R159): handed to the page writer. -/
def execGivePages (s : State) : Host.Outcome State Fault Refusal := .next (s.handOrder .givePages givePagesOrder)

/-- FLUSH_LOG (R164): handed to the page writer. -/
def execFlushLog (s : State) : Host.Outcome State Fault Refusal := .next (s.handOrder .flushLog flushLogOrder)

end Sys2Proof.Machine
end

