-- ==== Sys2Proof/Machine/Roster.lean ====
section
/-! DEFINITION. The roster's records: the urgent queue, recovery and entry into DRIFTING and ABSENT, adoption, the end
of a jam, the handling of REPORTs and misses, channel-stop notices and steps (R81, R89 to R105, R119 to R133). -/

namespace Sys2Proof.Machine

/-! ## The urgent queue (R81) -/

/-- The slot is in service at an urgent turn (R81). -/
def State.inUrgentService (s : State) (i : Fin 48) : Bool :=
  match s.lc.turn with
  | some t => t.urgent && t.slot == i
  | none => false

/-- The slot is in service: a turn that serves it is in progress (R80). -/
def State.inService (s : State) (i : Fin 48) : Bool :=
  match s.lc.turn with
  | some t => t.slot == i
  | none => false

/-- The roster inserts a slot at the tail of the urgent queue; one already there or in service at an urgent turn leaves
it unchanged (R81). -/
def State.urgentInsert (s : State) (i : Fin 48) : State :=
  if s.lc.urgent.contains i || s.inUrgentService i then s
  else { s with lc := { s.lc with urgent := s.lc.urgent ++ [i] } }

/-- The roster removes a slot's entry, wherever it stands (R81). -/
def State.urgentRemove (s : State) (i : Fin 48) : State :=
  { s with lc := { s.lc with urgent := s.lc.urgent.filter (fun x => x != i) } }

/-! ## Changes of a record -/

/-- The record forgets its tie to studio time: anchor, verify point and label offset absent, good and bad counts 0
(R102, R109, R111, R128). -/
def Device.forget (d : Device) : Device :=
  { d with anchor := none, verify := none, offset := none, good := 0, bad := 0 }

/-- A jam context as a jam is accepted (R119). -/
def JamContext.start (source : Fin 16) (origin : JamOrigin) (remembered : DevState) (retries : Nat) (waiting : Bool) :
    JamContext where
  source := source
  origin := origin
  waiting := waiting
  remembered := remembered
  setPending := true
  setSent := false
  sets := 0
  lastLabel := none
  setInstant := none
  label := none
  retries := retries
  reports := 5
  pendingDelay := none

/-- A jam is accepted: the record gets its jam context and becomes JAMMING, and the slot joins the urgent queue
(R121, R122). -/
def State.startJam (s : State) (i : Fin 48) (source : Fin 16) (origin : JamOrigin) (retries : Nat) (waiting : Bool) :
    State :=
  let d := s.slot i
  State.urgentInsert
    (s.setSlot i { d with state := .jamming, jam := some (.start source origin d.state retries waiting) }) i

/-! ## DRIFTING and ABSENT (R100 to R102) -/

/-- The source of a recovery jam: the jam source channel when present, otherwise the bound channel (R102). -/
def Device.recoverySource (d : Device) : Option (Fin 16) :=
  match d.jamSource with
  | some c => some c
  | none => d.boundTo

/-- The recovery taken on an entry into DRIFTING (R101, R102). -/
def State.recoveryTaken (s : State) (i : Fin 48) (reason : DriftReason) : RecoveryTaken :=
  let d := s.slot i
  if reason = .verifyError then .none
  else
    match d.recovery with
    | .noRecovery => .none
    | .adopt => .adopted
    | .jam =>
      if d.protectedFlag then .adopted
      else
        match d.recoverySource with
        | some c => if usableSource (s.chan c) d then .jamStarted else .sourceUnusable
        | none => .sourceUnusable

/-- What the recovery taken does to the record (R102). -/
def State.recover (s : State) (i : Fin 48) (taken : RecoveryTaken) : State :=
  let d := s.slot i
  match taken with
  | .none | .sourceUnusable => s
  | .adopted => s.setSlot i { d.forget with state := .enrolled }
  | .jamStarted =>
    match d.recoverySource with
    | some c => s.startJam i c .recovery 1 false
    | none => s

/-- Entry into DRIFTING: DEVICE attention, the DEVICE STATE record with reason and recovery taken, then the recovery
(R101, R102). -/
def State.enterDrifting (s : State) (i : Fin 48) (reason : DriftReason) : State :=
  let s1 := (s.setSlot i { s.slot i with state := .drifting }).raise .device
  let taken := s1.recoveryTaken i reason
  (s1.sysEvent (.deviceState i (s.slot i).linkAddr (.drifting reason taken))).recover i taken

/-- Entry into ABSENT with the state before absence it remembers (R100). -/
def State.enterAbsent (s : State) (i : Fin 48) (before : DevState) : State :=
  let s1 := (s.setSlot i { s.slot i with state := .absent, before := some before }).raise .device
  s1.sysEvent (.deviceState i (s.slot i).linkAddr .absent)

/-! ## Adoption (R92) -/

/-- What a REPORT can adopt: nothing (none), an anchor alone for an unbound record (`some none`), or an anchor with the
label offset to the nearest edge of a RUNNING bound channel (R92). -/
def State.adoptionOffset (s : State) (d : Device) (label edge : Nat) : Option (Option Int) :=
  match d.boundTo with
  | none => some none
  | some c =>
    let ch := s.chan c
    if ch.state = .running then
      match ch.segmentAt edge with
      | none => none
      | some (g, _) =>
        let fday := ch.cfg.fmt.fday
        some (some (labelDiff fday ((label : Int) % (fday : Int)) (ch.labelAt (g.nearestEdge edge))))
    else none

/-- The record as a REPORT that adopts leaves it (R92). -/
def Device.adopted (d : Device) (label edge : Nat) (offset : Option Int) : Device :=
  { d with anchor := some ⟨label, edge⟩, offset := offset, verify := none, good := 1, bad := 0, state := .settling }

/-- The record as a REPORT leaves it that cannot adopt because the bound channel is not RUNNING: ENROLLED with no
anchor (R92, R95). -/
def Device.notAdopted (d : Device) : Device :=
  { d with anchor := none, verify := none, offset := none, state := .enrolled }

/-- A REPORT for an ENROLLED record, or one that re-adopts in SETTLING (R92, R95). -/
def State.adoptReport (s : State) (i : Fin 48) (label edge : Nat) : State :=
  match s.adoptionOffset (s.slot i) label edge with
  | some offset => s.setSlot i ((s.slot i).adopted label edge offset)
  | none => s.setSlot i (s.slot i).notAdopted

/-! ## Path delay changes (R109) -/

/-- A path delay change, by the state of the record (R109). -/
def Device.changeDelay (d : Device) (delay : Nat) : Device :=
  match d.state with
  | .enrolled | .settling | .locked | .drifting => { d.forget with pathDelay := delay, state := .enrolled }
  | .absent => { d.forget with pathDelay := delay, before := some .enrolled }
  | .empty | .jamming => d

/-! ## The end of a jam (R128, R129) -/

/-- The result code of an outcome (R129). -/
def JamOutcome.result : JamOutcome → Result
  | .done | .abandoned => .done
  | .protectedDevice => .protectedDevice
  | .verifyError => .verifyError
  | .sourceStopped => .sourceStopped
  | .noAnswer => .noAnswer

/-- The remembered state as step 1 takes it: SETTLING and LOCKED become ENROLLED once a SET has been sent (R128). -/
def JamContext.stateAfter (j : JamContext) : DevState :=
  if j.setSent then
    match j.remembered with
    | .settling | .locked => .enrolled
    | st => st
  else j.remembered

/-- The end enters DRIFTING: VERIFY ERROR, or SOURCE STOPPED with SET sent on (R128). -/
def JamContext.endsDrifting (j : JamContext) (o : JamOutcome) : Bool :=
  match o with
  | .verifyError => true
  | .sourceStopped => j.setSent
  | .done | .protectedDevice | .noAnswer | .abandoned => false

/-- Step 1 of a jam's end: the state the record is left in (R128). For DONE the record stands as R125 left it. -/
def Device.jamEnded (d : Device) (j : JamContext) (o : JamOutcome) : Device :=
  let d1 := if j.setSent then d.forget else d
  match o with
  | .done | .abandoned => d
  | .protectedDevice => { d1 with state := j.stateAfter }
  | .verifyError => { d1 with state := .drifting }
  | .sourceStopped => { d1 with state := if j.setSent then .drifting else j.stateAfter }
  | .noAnswer => { d1 with state := .absent, before := some j.stateAfter }

/-- Step 5 of a jam's end: an entry into DRIFTING or ABSENT is reported (R128). -/
def State.jamStateRecords (s : State) (i : Fin 48) (j : JamContext) (o : JamOutcome) : State :=
  if j.endsDrifting o then s.enterDrifting i .verifyError
  else
    match o with
    | .noAnswer => s.enterAbsent i j.stateAfter
    | _ => s

/-- Step 6 of a jam's end: a pending path delay acts on the record (R128, R109). -/
def State.applyPendingDelay (s : State) (i : Fin 48) (j : JamContext) : State :=
  match j.pendingDelay with
  | some delay => s.setSlot i ((s.slot i).changeDelay delay)
  | none => s

/-- Step 7 of a jam's end: a waiting JAM order terminates with the outcome, a background jam raises DEVICE; the outcome
becomes the last result code (R129). -/
def State.deliverOutcome (s : State) (i : Fin 48) (j : JamContext) (o : JamOutcome) : State :=
  let s1 := s.setLastResult i (some o.result)
  if j.waiting then s1.report o.result else s1.raise .device

/-- The end of a jam, steps 1 to 7 in order (R128). -/
def State.jamEnd (s : State) (i : Fin 48) (o : JamOutcome) : State :=
  match (s.slot i).jam with
  | none => s
  | some j =>
    let d := (s.slot i).jamEnded j o
    let s1 := (s.setSlot i { d with jam := none }).urgentRemove i
    let s2 := s1.sysEvent (.jamOutcome i d.linkAddr o j.origin j.sets j.lastLabel d.state)
    ((s2.jamStateRecords i j o).applyPendingDelay i j).deliverOutcome i j o

/-- A RELEASE abandons the jam of its slot: steps 2 to 4 of the end, the record being left EMPTY (R131). -/
def State.jamAbandon (s : State) (i : Fin 48) : State :=
  match (s.slot i).jam with
  | none => s
  | some j =>
    let d := s.slot i
    let s1 := (s.setSlot i { d with jam := none }).urgentRemove i
    s1.sysEvent (.jamOutcome i d.linkAddr .abandoned j.origin j.sets j.lastLabel .empty)

/-! ## Verification (R124 to R126) -/

/-- The expected label E of a verify REPORT (R124). -/
def expectedLabel (fday : Nat) (rate : Rate) (label setInstant edge : Nat) : Nat :=
  (label + (edge - (setInstant + 2430)) * rate.d / rate.n) % fday

/-- A verify REPORT passes when its label is E or the label before E (R124). -/
def labelPasses (fday expected label : Nat) : Bool :=
  label == expected || label == (expected + fday - 1) % fday

/-- A passing REPORT: the record adopts from it and the jam ends DONE (R125). -/
def State.jamPass (s : State) (i : Fin 48) (label edge : Nat) : State :=
  let d := s.slot i
  let d1 := match s.adoptionOffset d label edge with
    | some offset => d.adopted label edge offset
    | none => { d.forget with state := .enrolled }
  (s.setSlot i d1).jamEnd i .done

/-- A retry is taken: a new SET is pending, and the slot joins the urgent queue (R126). -/
def State.jamRetry (s : State) (i : Fin 48) (j : JamContext) : State :=
  State.urgentInsert
    (s.setSlot i
      { s.slot i with
        jam := some { j with retries := j.retries - 1, reports := 0, setPending := true, setInstant := none,
                             label := none } }) i

/-- A failing REPORT: reports left is lowered, and at 0 the jam takes a retry or ends (R126). -/
def State.jamFail (s : State) (i : Fin 48) (j : JamContext) : State :=
  if 1 < j.reports then s.setSlot i { s.slot i with jam := some { j with reports := j.reports - 1 } }
  else
    let s1 := s.setSlot i { s.slot i with jam := some { j with reports := 0 } }
    if j.retries = 0 then s1.jamEnd i .verifyError
    else if usableSource (s.chan j.source) (s.slot i) then s1.jamRetry i j
    else s1.jamEnd i .sourceStopped

/-- A REPORT that arrives for a JAMMING slot, after the common steps of R91 (R124). -/
def State.jamReport (s : State) (i : Fin 48) (label edge : Nat) : State :=
  let d := s.slot i
  match d.jam with
  | none => s
  | some j =>
    if d.protectedFlag then s.jamEnd i .protectedDevice
    else if j.setPending then s
    else
      match j.setInstant, j.label with
      | some si, some lab =>
        if edge ≤ si + 2430 then s
        else if labelPasses d.fmt.fday (expectedLabel d.fmt.fday d.rate lab si edge) label then
          s.jamPass i label edge
        else s.jamFail i j
      | _, _ => s

/-! ## Consistency and drift (R93 to R96) -/

/-- The REPORT is consistent: the edge instant and the predicted instant of its label differ by no more than the
record's window (R93). -/
def State.consistent (s : State) (d : Device) (label edge : Nat) : Bool :=
  match (s.translateSlot d label 0).st with
  | some t => decide (((edge : Int) - t).natAbs ≤ d.window)
  | none => false

/-- Verify point and drift are updated: for an unbound record while the time base is LOCKED or FREE (R94, R96). -/
def State.tracks (s : State) (d : Device) : Bool :=
  d.boundTo.isNone && (s.tb.ref == .locked || s.tb.ref == .free)

/-- The record with a new verify point and its drift measured, and whether the measurement was out of range
(R94, R40). -/
def Device.measure (d : Device) (label edge : Nat) : Device × Bool :=
  match d.anchor with
  | none => (d, false)
  | some a =>
    let d1 := { d with verify := some ⟨label, edge⟩ }
    match measuredDrift d.fmt.fday d.rate a ⟨label, edge⟩ with
    | none => (d1, false)
    | some m =>
      if m < -100000 then ({ d1 with drift := -100000, driftClamped := true }, true)
      else if 100000 < m then ({ d1 with drift := 100000, driftClamped := true }, true)
      else ({ d1 with drift := m, driftClamped := false }, false)

/-- The lock count: 3 when the dual-track flag is on, 2 otherwise (R91). -/
def Device.lockCount (d : Device) : Nat := if d.dualTrack then 3 else 2

/-- A consistent REPORT: the bad count becomes 0 and the good count the value given, the verify point and drift are
updated, and the record enters DRIFTING on a drift clamp or becomes LOCKED at the lock count, when `mayLock` (R94,
R98). -/
def State.consistentReport (s : State) (i : Fin 48) (label edge good : Nat) (mayLock : Bool) : State :=
  let d := { s.slot i with bad := 0, good := good }
  let r := if s.tracks d then d.measure label edge else (d, false)
  let s1 := s.setSlot i r.1
  if r.2 then s1.enterDrifting i .driftClamp
  else if mayLock && r.1.state == .settling && decide (r.1.lockCount ≤ good) then
    (s1.setSlot i { r.1 with state := .locked }).sysEvent (.deviceState i r.1.linkAddr .locked)
  else s1

/-- An inconsistent REPORT: SETTLING re-adopts, LOCKED counts it and the second in a row enters DRIFTING (R95). -/
def State.inconsistentReport (s : State) (i : Fin 48) (label edge : Nat) : State :=
  let d := s.slot i
  match d.state with
  | .settling => s.adoptReport i label edge
  | .locked =>
    let s1 := s.setSlot i { d with bad := d.bad + 1 }
    if 2 ≤ d.bad + 1 then s1.enterDrifting i .inconsistent else s1
  | .empty | .enrolled | .jamming | .drifting | .absent => s

/-- A REPORT for a SETTLING or LOCKED record (R93 to R95). -/
def State.testedReport (s : State) (i : Fin 48) (label edge : Nat) : State :=
  let d := s.slot i
  if s.consistent d label edge then s.consistentReport i label edge (min 3 (d.good + 1)) true
  else s.inconsistentReport i label edge

/-- A return: RETURNED is recorded, and the record goes on from its state before absence (R98). -/
def State.returnReport (s : State) (i : Fin 48) (label edge : Nat) : State :=
  let d := s.slot i
  let s1 := s.sysEvent (.deviceState i d.linkAddr .returned)
  if d.before = some .drifting then s1.setSlot i { d with state := .drifting, before := none }
  else if d.before = some .enrolled ∨ d.anchor = none then
    (s1.setSlot i { d with state := .enrolled, before := none }).adoptReport i label edge
  else
    let s2 := s1.setSlot i { d with state := .settling, before := none }
    if s2.consistent (s2.slot i) label edge then s2.consistentReport i label edge 1 false
    else s2.enterDrifting i .inconsistent

/-! ## REPORT arrival (R91) -/

/-- A REPORT as the link controller delivers it (R76). -/
structure Report where
  stamp : Nat
  label : Nat
  edgeAge : Nat
  protectedFlag : Bool
  dualTrack : Bool
  marks : List MarkEntry
deriving DecidableEq, Repr

/-- The roster's own update for a REPORT, by the record's state (R91 to R98). -/
def State.reportUpdate (s : State) (i : Fin 48) (r : Report) : State :=
  let d := { s.slot i with miss := 0, protectedFlag := r.protectedFlag, dualTrack := r.dualTrack }
  let s1 := s.setSlot i d
  let edge := reportEdge r.stamp d.pathDelay d.rate r.edgeAge
  match d.state with
  | .empty => s
  | .enrolled => s1.adoptReport i r.label edge
  | .settling | .locked => s1.testedReport i r.label edge
  | .drifting => s1
  | .jamming => s1.jamReport i r.label edge
  | .absent => s1.returnReport i r.label edge

/-- A REPORT's arrival: the roster's update first, then the mark entries to the log unit in telegram order (R91). -/
def State.reportArrival (s : State) (i : Fin 48) (r : Report) : State :=
  r.marks.foldl (State.takeEntry i) (s.reportUpdate i r)

/-! ## Misses (R99, R127) -/

/-- A miss for an occupied slot (R99). In ABSENT it changes nothing (log entry 22). -/
def State.deviceMiss (s : State) (i : Fin 48) : State :=
  let d := s.slot i
  let s1 := s.setSlot i { d with miss := d.miss + 1 }
  match d.state with
  | .empty | .absent => s
  | .jamming => if 8 ≤ d.miss + 1 then s1.jamEnd i .noAnswer else s1
  | .enrolled | .settling | .locked | .drifting =>
    if 8 ≤ d.miss + 1 then s1.enterAbsent i d.state else s1

/-! ## Channel-stop notices (R103) -/

/-- SETTLING and LOCKED become DRIFTING, any other remembered state stays (R103). -/
def stoppedState (st : DevState) : DevState :=
  match st with
  | .settling | .locked => .drifting
  | st => st

/-- A channel-stop notice at one slot (R103). -/
def State.stopNoticeAt (c : Fin 16) (s : State) (i : Fin 48) : State :=
  let d := s.slot i
  if d.boundTo = some c then
    match d.state with
    | .enrolled | .settling | .locked => s.enterDrifting i .channelStopped
    | .absent => s.setSlot i { d with before := d.before.map stoppedState }
    | .jamming =>
      s.setSlot i { d with jam := d.jam.map (fun j => { j with remembered := stoppedState j.remembered }) }
    | .empty | .drifting => s
  else s

/-- A channel-stop notice acts on every occupied record bound to the channel, in slot order (R103). -/
def State.stopNotice (s : State) (c : Fin 16) : State := (List.finRange 48).foldl (State.stopNoticeAt c) s

/-! ## Time steps (R104, R132) -/

/-- A step of size `step` at one record: the instants of an unbound record's anchor and verify point, and every jam's
SET instant, move forward (R104). -/
def Device.shift (step : Nat) (d : Device) : Device :=
  let move (t : Tie) : Tie := { t with st := instant64 (t.st + step) }
  let d1 := if d.boundTo.isNone then { d with anchor := d.anchor.map move, verify := d.verify.map move } else d
  { d1 with jam := d.jam.map (fun j => { j with setInstant := j.setInstant.map (fun t => instant64 (t + step)) }) }

/-- The roster applies a step to every record (R104). -/
def State.rosterStep (s : State) (step : Nat) : State := { s with slots := s.slots.map (Device.shift step) }

end Sys2Proof.Machine
end

