-- ==== Sys2Proof/Machine/RosterOrders.lean ====
section
/-! DEFINITION. The roster's orders ENROL, SET DEVICE, RELEASE, ADOPT, EXCHANGE and JAM, and the events of an EXCHANGE
(R105 to R117, R120, R121, R134). -/

namespace Sys2Proof.Machine

/-- A roster order terminates in its own event: the slot's last result code becomes its result (R105). -/
def State.rosterReport (s : State) (i : Fin 48) (code : Result) : State := (s.setLastResult i (some code)).report code

/-! ## Bound counts (R64) -/

def State.raiseBound (s : State) (c : Option (Fin 16)) : State :=
  match c with
  | some c => s.setChan c { s.chan c with bound := (s.chan c).bound + 1 }
  | none => s

def State.lowerBound (s : State) (c : Option (Fin 16)) : State :=
  match c with
  | some c => s.setChan c { s.chan c with bound := (s.chan c).bound - 1 }
  | none => s

/-- A bound channel that is absent or a PICTURE channel (R106, R115). -/
def State.bindable (s : State) (c : Option (Fin 16)) : Bool :=
  match c with
  | some c => (s.chan c).kind == .picture
  | none => true

/-- Another occupied slot holds the link address (R106, R115). -/
def State.addressTaken (s : State) (i : Fin 48) (addr : Nat) : Bool :=
  (List.finRange 48).any (fun j => j != i && (s.slot j).occupied && (s.slot j).linkAddr == addr)

/-! ## ENROL (R106, R107) -/

/-- A window parameter: 0 selects 13,500; none when it is out of range (R106). -/
def windowParam (w : Word) : Option Nat :=
  if w = 0 then some 13500 else if w.toNat ≤ 1000000 then some w.toNat else none

/-- The record that an ENROL's parameters describe; none when one is out of range (R106, R107, R190). -/
def enrolledRecord (o : Order) : Option Device :=
  let w := o.p 2
  let rate : Rate := ⟨(o.p 3).toNat, (o.p 4).toNat⟩
  match fmtOfCode (bits w 7 4), optChan (bit w 8) (bits w 23 16), windowParam (o.p 6),
    recoveryOfCode (bits w 3 2), optChan (bit w 9) (bits w 31 24) with
  | some fmt, some boundTo, some window, some recovery, some jamSource =>
    if 1 ≤ (o.p 1).toNat ∧ (o.p 1).toNat ≤ 63 ∧ rate.legal = true then
      some
        { Device.emptyRecord with
          state := .enrolled, linkAddr := (o.p 1).toNat, cls := classOfCode (bits w 1 0), rate := rate, fmt := fmt,
          boundTo := boundTo, pathDelay := bits (o.p 5) 15 0, window := window, recovery := recovery,
          jamSource := jamSource }
    else none
  | _, _, _, _, _ => none

/-- The result of an ENROL for a slot, and the record to fill it with (R106, R107). -/
def State.enrolCheck (s : State) (i : Fin 48) (o : Order) : Except Result Device :=
  match enrolledRecord o with
  | none => .error .refusedRange
  | some d =>
    if (s.slot i).occupied then .error .refusedOccupied
    else if d.cls = .suite ∧ d.recovery = .jam then .error .refusedClass
    else if s.addressTaken i d.linkAddr then .error .refusedDuplicate
    else if s.bindable d.boundTo then .ok d
    else .error .refusedBound

/-- ENROL, taken by the roster (R106, R107). -/
def enrolOrder (o : Order) (s : State) : State :=
  match slotOf (o.p 0) with
  | none => s.report .refusedRange
  | some i =>
    match s.enrolCheck i o with
    | .error code => s.rosterReport i code
    | .ok d => ((s.setSlot i d).raiseBound d.boundTo).rosterReport i .done

/-! ## SET DEVICE (R108, R109) -/

/-- The parameters of a SET DEVICE: path delay, window, recovery, jam source; none when one is out of range (R108). -/
def setDeviceFields (o : Order) : Option (Nat × Nat × Recovery × Option (Fin 16)) :=
  let w := o.p 3
  match windowParam (o.p 2), recoveryOfCode (bits w 3 2), optChan (bit w 9) (bits w 31 24) with
  | some window, some recovery, some jamSource => some (bits (o.p 1) 15 0, window, recovery, jamSource)
  | _, _, _ => none

/-- The path delay of a SET DEVICE: a change acts by state, and is kept pending in a jam context while the record is
JAMMING (R109). -/
def Device.setDelay (d : Device) (delay : Nat) : Device :=
  match d.state with
  | .jamming =>
    { d with jam := d.jam.map (fun j => { j with pendingDelay := if delay = d.pathDelay then none else some delay }) }
  | _ => if delay = d.pathDelay then d else d.changeDelay delay

/-- SET DEVICE, taken by the roster (R108). -/
def setDeviceOrder (o : Order) (s : State) : State :=
  match slotOf (o.p 0) with
  | none => s.report .refusedRange
  | some i =>
    match setDeviceFields o with
    | none => s.rosterReport i .refusedRange
    | some (delay, window, recovery, jamSource) =>
      let d := s.slot i
      if d.state = .empty then s.rosterReport i .refusedState
      else if d.cls = .suite ∧ recovery = .jam then s.rosterReport i .refusedClass
      else
        (s.setSlot i
          (Device.setDelay { d with window := window, recovery := recovery, jamSource := jamSource } delay)).rosterReport
          i .done

/-! ## RELEASE and ADOPT (R110, R111) -/

/-- The slot takes the values of an EMPTY record, its last result code apart (R90, R110). -/
def State.emptySlot (s : State) (i : Fin 48) : State :=
  s.setSlot i { Device.emptyRecord with lastResult := (s.slot i).lastResult }

/-- RELEASE, taken by the roster: jam abandoned, urgent entry removed, bound count lowered, slot emptied (R110). -/
def releaseOrder (o : Order) (s : State) : State :=
  match slotOf (o.p 0) with
  | none => s.report .refusedRange
  | some i =>
    if (s.slot i).state = .empty then s.rosterReport i .done
    else
      let s1 := (s.jamAbandon i).urgentRemove i
      ((s1.lowerBound (s1.slot i).boundTo).emptySlot i).rosterReport i .done

/-- The record as an ADOPT leaves it (R111). -/
def Device.readopt (d : Device) : Device :=
  match d.state with
  | .absent => { d.forget with before := some .enrolled }
  | _ => { d.forget with state := .enrolled }

/-- ADOPT, taken by the roster (R111). -/
def adoptOrder (o : Order) (s : State) : State :=
  match slotOf (o.p 0) with
  | none => s.report .refusedRange
  | some i =>
    if (s.slot i).state = .empty then s.rosterReport i .refusedState
    else if (s.slot i).state = .jamming then s.rosterReport i .refusedBusy
    else (s.setSlot i (s.slot i).readopt).rosterReport i .done

/-! ## JAM (R120, R121) -/

/-- The parameters of a JAM: its source channel when given, and its retry count; none when one is out of range
(R120, R190). -/
def jamFields (o : Order) : Option (Option (Fin 16) × Nat) :=
  match optChan (bit (o.p 1) 0) (bits (o.p 1) 15 8) with
  | some source => if (o.p 2).toNat ≤ 3 then some (source, (o.p 2).toNat) else none
  | none => none

/-- The result of a JAM for a slot, and the source and retry count of the jam it starts (R120). -/
def State.jamCheck (s : State) (i : Fin 48) (o : Order) : Except Result (Fin 16 × Nat) :=
  let d := s.slot i
  match jamFields o with
  | none => .error .refusedRange
  | some (given, retries) =>
    if d.state = .empty then .error .refusedState
    else if d.state = .jamming then .error .refusedBusy
    else if d.state = .absent then .error .refusedAbsent
    else if d.protectedFlag then .error .refusedProtected
    else if d.cls = .suite then .error .refusedClass
    else
      match (match given with | some c => some c | none => d.boundTo) with
      | none => .error .refusedRange
      | some c => if usableSource (s.chan c) d then .ok (c, retries) else .error .refusedMismatch

/-- JAM, taken by the roster: without wait it terminates ACCEPTED, with wait it is kept until the jam's outcome
(R121). -/
def jamOrder (o : Order) (s : State) : State :=
  match slotOf (o.p 0) with
  | none => s.report .refusedRange
  | some i =>
    match s.jamCheck i o with
    | .error code => s.rosterReport i code
    | .ok (c, retries) =>
      let s1 := (s.setLastResult i none).startJam i c .order retries o.waitFlag
      if o.waitFlag then s1.keep (.jam i) else s1.rosterReport i .accepted

/-! ## EXCHANGE (R112 to R117) -/

def State.setExchange (s : State) (e : Option Exchange) : State := { s with exch := e }

/-- The hold is cleared (R113 to R117). -/
def State.clearHold (s : State) (i : Fin 48) : State := s.setSlot i { s.slot i with held := false }

/-- EXCHANGE, taken by the roster: it checks, sets the hold, and waits for the end of service or begins its read
(R112, R113). -/
def exchangeOrder (o : Order) (s : State) : State :=
  match slotOf (o.p 0) with
  | none => s.report .refusedRange
  | some i =>
    let a := (o.p 1).toNat
    if (s.slot i).state = .jamming then s.rosterReport i .refusedBusy
    else if a = 0 ∨ a % 4 ≠ 0 ∨ s.inWindow a 64 = false then s.rosterReport i .windowFault
    else
      State.keep
        ((s.setSlot i { s.slot i with held := true, lastResult := none }).setExchange
          (some ⟨i, a, if s.inService i then .waitService else .reading [], false⟩)) .exchange

/-- A roster order taken by its owner, by its kind (R174). -/
def rosterOrder (o : Order) (s : State) : State :=
  match o.kind with
  | .enrol => enrolOrder o s
  | .setDevice => setDeviceOrder o s
  | .release => releaseOrder o s
  | .adopt => adoptOrder o s
  | .exchange => exchangeOrder o s
  | .jam => jamOrder o s
  | .pass | .snapshot | .setReference | .setChannel | .startChannel | .stopChannel
  | .setAction | .setTake | .injectMark | .translate | .givePages | .flushLog => s

/-- A roster order that waits for a dropped EXCHANGE is handed in the event in which that ends (R174). -/
def State.handHeld (s : State) : State :=
  match s.oe.step with
  | .held o => rosterOrder o s
  | _ => s

/-- An EXCHANGE ends with a result: the hold is cleared, the slot's last result code set, and the order terminates; one
that engine clear dropped writes no termination word (R105, R114 to R117). -/
def State.endExchange (s : State) (e : Exchange) (code : Result) : State :=
  let s1 := ((s.clearHold e.slot).setLastResult e.slot (some code)).setExchange none
  if e.dropped then s1.handHeld else s1.report code

/-- The link controller's notice that a slot's service has ended: an EXCHANGE that waits for it begins its read, or ends
REFUSED BUSY when the slot has become JAMMING, by the turn's REPORT or by a channel-stop notice taken during the wait
(R86, R113; log entry 29). -/
def State.serviceEnded (s : State) (i : Fin 48) : State :=
  match s.exch with
  | some e =>
    if e.slot = i ∧ e.phase = .waitService then
      if (s.slot i).state = .jamming then s.endExchange e .refusedBusy
      else s.setExchange (some { e with phase := .reading [] })
    else s
  | none => s

/-! ### The package image (R115, R116, R193) -/

/-- The anchor of an image, when its presence bit is on (R193). -/
def imageAnchor (image : List Word) : Option Tie :=
  if bit (imageWord image 3) 29 then
    some ⟨(imageWord image 8).toNat, wide (imageWord image 9) (imageWord image 10)⟩
  else none

/-- The verify point of an image, when its presence bit is on (R193). -/
def imageVerify (image : List Word) : Option Tie :=
  if bit (imageWord image 3) 30 then
    some ⟨(imageWord image 11).toNat, wide (imageWord image 12) (imageWord image 13)⟩
  else none

/-- The bound channel of an image (R193). -/
def imageBound (image : List Word) : Option (Fin 16) :=
  if bit (imageWord image 3) 20 then chanOf (bits (imageWord image 3) 19 16) else none

/-- The state before absence of an image, read only for ABSENT: ENROLLED, SETTLING, LOCKED or DRIFTING (R115). -/
def imageBefore (image : List Word) : Option DevState :=
  match devStateOfCode (bits (imageWord image 1) 6 4) with
  | some .enrolled => some .enrolled
  | some .settling => some .settling
  | some .locked => some .locked
  | some .drifting => some .drifting
  | _ => none

/-- The record an image describes, given its state, label format and recovery; counts 0, no jam context, and for a bound
image drift 0 and no verify point (R116). -/
def imageRecord (image : List Word) (state : DevState) (fmt : Fmt) (recovery : Recovery) : Device :=
  let w1 := imageWord image 1
  let w3 := imageWord image 3
  let boundTo := imageBound image
  let anchor := imageAnchor image
  { Device.emptyRecord with
    state := state
    linkAddr := bits w1 13 8
    cls := classOfCode (bits w1 17 16)
    rate := ⟨bits (imageWord image 2) 23 0, bits w3 15 0⟩
    fmt := fmt
    boundTo := boundTo
    offset := if boundTo.isSome && anchor.isSome then some (imageWord image 7).toInt else none
    pathDelay := bits (imageWord image 4) 15 0
    window := bits (imageWord image 5) 19 0
    recovery := recovery
    jamSource := if bit w3 28 then chanOf (bits w3 27 24) else none
    protectedFlag := bit w1 20
    dualTrack := bit w1 21
    driftClamped := bit w1 22
    anchor := anchor
    verify := if boundTo.isSome then none else imageVerify image
    drift := if boundTo.isSome then 0 else (imageWord image 6).toInt
    before := if state = .absent then imageBefore image else none
    marksLogged := BitVec.ofNat 16 (bits (imageWord image 4) 31 16) }

/-- The anchor is present or absent as the state asks (R115). -/
def Device.anchorFits (d : Device) : Bool :=
  match d.state with
  | .settling | .locked => d.anchor.isSome
  | .enrolled => d.anchor.isNone
  | .absent =>
    match d.before with
    | some .settling | some .locked => d.anchor.isSome
    | _ => true
  | .empty | .jamming | .drifting => true

/-- For a bound image with an anchor: the label offset lies in the range of R35 for the channel's format, and the channel
holds a current segment (R115). -/
def State.offsetFits (s : State) (d : Device) : Bool :=
  match d.boundTo, d.offset with
  | some c, some o =>
    let half : Int := (s.chan c).cfg.fmt.fday / 2
    decide (-half + 1 ≤ o) && decide (o ≤ half) && (s.chan c).cur.isSome
  | _, _ => true

/-- The checks of R115 on a non-EMPTY image whose first checks have passed, in the order of the table. -/
def State.imageCheck (s : State) (i : Fin 48) (image : List Word) (state : DevState) : Except Result Device :=
  let w1 := imageWord image 1
  let addr := bits w1 13 8
  if state = .absent ∧ imageBefore image = none then .error .packageInvalid
  else if addr = 0 then .error .packageInvalid
  else if s.addressTaken i addr then .error .refusedDuplicate
  else
    match fmtOfCode (bits w1 27 24), recoveryOfCode (bits w1 19 18) with
    | some fmt, some recovery =>
      let d := imageRecord image state fmt recovery
      if d.rate.legal && decide (1 ≤ d.window) && decide (d.window ≤ 1000000)
          && !(d.cls == .suite && d.recovery == .jam) && s.bindable d.boundTo && d.anchorFits
          && (d.boundTo.isSome || d.verify.isNone || d.anchor.isSome) && s.offsetFits d
          && decide (-100000 ≤ d.drift) && decide (d.drift ≤ 100000) then .ok d
      else .error .packageInvalid
    | _, _ => .error .packageInvalid

/-- The validation of a package image (R115): the record it loads, or the result of the first check that fails. -/
def State.validateImage (s : State) (i : Fin 48) (image : List Word) : Except Result Device :=
  if imageWord image 0 ≠ packageTag then .error .packageInvalid
  else
    match devStateOfCode (bits (imageWord image 1) 2 0) with
    | none => .error .packageInvalid
    | some .jamming => .error .packageInvalid
    | some .empty => .ok Device.emptyRecord
    | some state => s.imageCheck i image state

/-- The bound counts follow the swap; the same channel keeps its count (R116). -/
def State.swapBound (s : State) (old new : Option (Fin 16)) : State :=
  if old = new then s else (s.lowerBound old).raiseBound new

/-- The swap: the outgoing image is composed, the read image loaded, the bound counts adjusted, and the write begins
(R116, R117). The hold and the last result code stay as they are. -/
def State.exchangeSwap (s : State) (e : Exchange) (d : Device) : State :=
  let old := s.slot e.slot
  ((s.setSlot e.slot { d with held := old.held, lastResult := old.lastResult }).swapBound old.boundTo d.boundTo).setExchange
    (some { e with phase := .writing e.package old.package })

/-- The words of the package: those read so far, and the others as they stand (R113, R170). -/
def State.packageImage (s : State) (e : Exchange) (got : List Word) : List Word :=
  got ++ Memory.readWords s.mem (e.package + 4 * got.length) (16 - got.length)

/-- The package has been read: it is validated and swapped in, or the exchange is refused (R115, R116). -/
def State.exchangeRead (s : State) (e : Exchange) (got : List Word) : State :=
  if (s.slot e.slot).state = .jamming then s.endExchange e .refusedBusy
  else
    match s.validateImage e.slot (s.packageImage e got) with
    | .error code => s.endExchange e code
    | .ok d => s.exchangeSwap e d

/-! ## The commands -/

/-- ENROL (R107): handed to the roster. -/
def execEnrol (s : State) : Host.Outcome State Fault Refusal := .next (s.handRosterOrder .enrol enrolOrder)

/-- SET_DEVICE (R108): handed to the roster. -/
def execSetDevice (s : State) : Host.Outcome State Fault Refusal :=
  .next (s.handRosterOrder .setDevice setDeviceOrder)

/-- RELEASE (R110): handed to the roster. -/
def execRelease (s : State) : Host.Outcome State Fault Refusal := .next (s.handRosterOrder .release releaseOrder)

/-- ADOPT (R111): handed to the roster. -/
def execAdopt (s : State) : Host.Outcome State Fault Refusal := .next (s.handRosterOrder .adopt adoptOrder)

/-- EXCHANGE (R112): handed to the roster. -/
def execExchange (s : State) : Host.Outcome State Fault Refusal := .next (s.handRosterOrder .exchange exchangeOrder)

/-- JAM (R121): handed to the roster. -/
def execJam (s : State) : Host.Outcome State Fault Refusal := .next (s.handRosterOrder .jam jamOrder)

/-- EXCHANGE_READ_DONE (R115): the 16 words of the package have been read. -/
def execExchangeReadDone (s : State) : Host.Outcome State Fault Refusal :=
  match s.exch with
  | some e =>
    match e.phase with
    | .reading got => s.guarded [e.package, e.package + 60] (s.exchangeRead e got)
    | .waitService | .writing _ _ => .next s
  | none => .next s

/-- EXCHANGE_WRITE_DONE (R117): the outgoing image has been written. -/
def execExchangeWriteDone (s : State) : Host.Outcome State Fault Refusal :=
  match s.exch with
  | some e =>
    match e.phase with
    | .writing area image =>
      s.guarded ((wordsAt area image).map Prod.fst)
        (State.endExchange { s with mem := Memory.writeAll s.mem (wordsAt area image) } e .done)
    | .waitService | .reading _ => .next s
  | none => .next s

end Sys2Proof.Machine
end

