-- ==== Sys2Proof/Machine/LinkOps.lean ====
section
/-! DEFINITION. The link controller: the choice of each turn, the SET turn's label, answers and how a turn is disposed of
(R68 to R88, R123). -/

namespace Sys2Proof.Machine

/-! ## Durations in oscillator ticks (R68, R69, R73, R80) -/

/-- One bit on the pair (R68). -/
def bitTicks : Nat := 27

/-- One character: ten bits of 27 ticks (R68). -/
def charTicks : Nat := 270

/-- A CALL: four characters (R69). -/
def callTicks : Nat := 1080

/-- A SET: nine characters (R69). -/
def setTicks : Nat := 2430

/-- The answer window (R73). -/
def windowTicks : Nat := 8100

/-- The quiet line that ends an answer, and the gap between turns (R73, R80). -/
def quietTicks : Nat := 540

/-! ## Characters on the pair (R68) -/

/-- The levels of a character on the pair, in the order in which they stand there: one start bit, low, the eight data bits,
least significant first, and one stop bit, high (R68; log entry 31). -/
def charFrame (c : Byte) : List Bool := false :: (List.range 8).map c.getLsbD ++ [true]

/-- The levels of a telegram on the pair: its characters follow one another with no idle time between them (R68). -/
def telegramLevels (chars : List Byte) : List Bool := chars.flatMap charFrame

/-- The part is sending a telegram: its SET or its CALL. -/
def LinkPhase.sends (p : LinkPhase) : Bool :=
  match p with
  | .sendingSet | .sendingCall => true
  | .idle | .gap | .window | .answering _ _ => false

/-- The level that the part drives onto the pair, each bit for 27 ticks; none when it does not drive the pair, and the
telegram's last stop bit having ended it does not (R68). -/
def State.pairLevel (s : State) : Option Bool :=
  if s.lc.phase.sends then (telegramLevels s.lc.tx)[s.lc.timer / bitTicks]? else none

/-- The part drives the pair from the start bit of a telegram's first character to the end of the stop bit of its last
(R68). -/
def State.driverEnabled (s : State) : Bool := s.pairLevel.isSome

/-- The character that ten levels received from the pair give: the data bits, and a framing error when the stop bit is low
(R68). -/
def receivedChar (levels : List Bool) : RxChar where
  value := (BitVec.ofBoolListLE ((List.range 8).map (fun i => levels.getD (i + 1) false))).setWidth 8
  framingError := !levels.getD 9 false

/-! ## The choice of a turn (R82 to R85) -/

/-- The urgent candidate: the first entry whose slot is not held (R82). -/
def State.urgentCandidate (s : State) : Option (Fin 48) := s.lc.urgent.find? (fun i => !(s.slot i).held)

/-- The slots in the order a rotation search visits them: after the rotation position, wrapping, the position itself
last (R84). -/
def rotationOrder (position : Fin 48) : List (Fin 48) :=
  (List.finRange 48).map (fun k => position + k + 1)

/-- The rotation candidate: the first occupied slot, not held, in slot order after the position (R84). -/
def State.rotationCandidate (s : State) : Option (Fin 48) :=
  (rotationOrder s.lc.rotation).find? (fun i => (s.slot i).callable)

/-- The turn to take: an urgent one (`true`) or a rotation one, and its slot; none when the link is idle (R82). -/
def State.nextTurnChoice (s : State) : Option (Bool × Fin 48) :=
  match s.urgentCandidate, s.rotationCandidate with
  | some u, some r => if s.lc.lastUrgent then some (false, r) else some (true, u)
  | some u, none => some (true, u)
  | none, some r => some (false, r)
  | none, none => none

/-- The part begins to send a telegram (R68, R80). -/
def State.send (s : State) (phase : LinkPhase) (chars : List Byte) : State :=
  { s with lc := { s.lc with phase := phase, timer := 0, tx := chars } }

/-- A CALL to the slot of the turn in progress (R70). -/
def State.sendCall (s : State) (addr : Nat) : State := s.send .sendingCall (callChars addr)

/-! ## The SET turn (R71, R123) -/

/-- The label index that a source channel gives for a SET at an instant: that of its first edge strictly after the SET's
end (R123). -/
def setLabel (ch : Channel) (setInstant : Nat) : Option Nat :=
  match ch.segmentAt ((setInstant : Int) + 2430) with
  | none => none
  | some (g, _) => some (ch.labelAt (g.edgeAt ((setInstant : Int) + 2430) + 1))

/-- The jam context after its SET turn (R123). -/
def JamContext.setTaken (j : JamContext) (setInstant label : Nat) : JamContext :=
  { j with setInstant := some setInstant, label := some label, lastLabel := some label, sets := j.sets + 1,
           setPending := false, setSent := true, reports := 5 }

/-- A SET turn: the label is chosen and the SET sent; when the source is not usable the jam ends SOURCE STOPPED and the
turn carries a CALL (R71, R123). -/
def State.setTurn (s : State) (i : Fin 48) (j : JamContext) (addr : Nat) : State :=
  let ch := s.chan j.source
  let d := s.slot i
  match (if usableSource ch d then setLabel ch s.tb.st else none) with
  | some label =>
    (s.setSlot i { d with jam := some (j.setTaken s.tb.st label) }).send .sendingSet
      (setChars addr (ch.cfg.fmt.labelOf label) ch.cfg.fmt.drop)
  | none => (s.jamEnd i .sourceStopped).sendCall addr

/-! ## Starting a turn (R82 to R84) -/

/-- A slot comes into service with the address its record holds (R68, R80). -/
def State.beginTurn (s : State) (i : Fin 48) (urgent : Bool) : State :=
  { s with
    lc := { s.lc with turn := some ⟨i, (s.slot i).linkAddr, urgent⟩, lastUrgent := urgent,
                      urgent := if urgent then s.lc.urgent.erase i else s.lc.urgent,
                      rotation := if urgent then s.lc.rotation else i } }

/-- An urgent turn: the entry leaves the queue, and the telegram is a SET when one is pending, otherwise a CALL
(R83). -/
def State.urgentTurn (s : State) (i : Fin 48) : State :=
  let s1 := s.beginTurn i true
  let addr := (s.slot i).linkAddr
  match (s.slot i).jam with
  | some j => if j.setPending then s1.setTurn i j addr else s1.sendCall addr
  | none => s1.sendCall addr

/-- A rotation turn: the position becomes the slot, which is called (R84). -/
def State.rotationTurn (s : State) (i : Fin 48) : State :=
  (s.beginTurn i false).sendCall (s.slot i).linkAddr

/-- The choice of the next turn and its start; the link is idle when there is none (R82, R85). -/
def State.takeTurn (s : State) : State :=
  match s.nextTurnChoice with
  | some (true, i) => s.urgentTurn i
  | some (false, i) => s.rotationTurn i
  | none => { s with lc := { s.lc with phase := .idle, timer := 0 } }

/-- NEXT_TURN (R82): at the end of the gap, or while the link is idle. -/
def execNextTurn (s : State) : Host.Outcome State Fault Refusal :=
  match s.lc.phase with
  | .idle => .next s.takeTurn
  | .gap => .next (if quietTicks ≤ s.lc.timer then s.takeTurn else s)
  | .sendingSet | .sendingCall | .window | .answering _ _ => .next s

/-! ## The end of a turn (R80, R83, R86) -/

/-- After an urgent turn the slot goes back to the tail of the queue if it is still JAMMING (R83). -/
def State.putBack (s : State) (t : Turn) : State :=
  if t.urgent && (s.slot t.slot).state == .jamming && !s.lc.urgent.contains t.slot then
    { s with lc := { s.lc with urgent := s.lc.urgent ++ [t.slot] } }
  else s

/-- A turn ends: the slot is put back or not, the gap begins, and the roster learns that the service has ended
(R80, R83, R86). -/
def State.endTurn (s : State) (t : Turn) : State :=
  let s1 := s.putBack t
  State.serviceEnded { s1 with lc := { s1.lc with turn := none, phase := .gap, timer := 0, tx := [] } } t.slot

/-- SET_TURN_END (R71): the SET's ninth character has been sent. -/
def execSetTurnEnd (s : State) : Host.Outcome State Fault Refusal :=
  match s.lc.phase, s.lc.turn with
  | .sendingSet, some t => .next (if setTicks ≤ s.lc.timer then s.endTurn t else s)
  | _, _ => .next s

/-! ## Answers (R73 to R79) -/

/-- ANSWER_WINDOW_OPEN (R73): the CALL's last stop bit has ended. -/
def execAnswerWindowOpen (s : State) : Host.Outcome State Fault Refusal :=
  match s.lc.phase with
  | .sendingCall => .next (if callTicks ≤ s.lc.timer then s.send .window [] else s)
  | .idle | .gap | .sendingSet | .window | .answering _ _ => .next s

/-- ANSWER_START (R75): the start bit of an answer, no later than 8,100 ticks after the CALL, is stamped with ST, and G
is noted. -/
def execAnswerStart (s : State) : Host.Outcome State Fault Refusal :=
  match s.lc.phase with
  | .window => .next (if s.lc.timer ≤ windowTicks then s.send (.answering s.tb.st s.tb.gen) [] else s)
  | .idle | .gap | .sendingSet | .sendingCall | .answering _ _ => .next s

/-- The called slot still holds the called address (R76, R77). -/
def State.holdsAddress (s : State) (t : Turn) : Bool :=
  (s.slot t.slot).occupied && (s.slot t.slot).linkAddr == t.addr

/-- A miss is delivered when the slot still holds the called address (R77, R78). -/
def State.deliverMiss (s : State) (t : Turn) : State := if s.holdsAddress t then s.deviceMiss t.slot else s

/-- The REPORT that the characters of a good answer carry, its label read in the record's format (R72, R76, R195). -/
def readReport (d : Device) (stamp : Nat) (chars : List RxChar) : Report where
  stamp := stamp
  label := ((d.fmt.enter (labelAt chars 3)).map Prod.fst).getD 0
  edgeAge := (charAt chars 7).toNat
  protectedFlag := (statusChar chars).getLsbD 0
  dualTrack := (statusChar chars).getLsbD 1
  marks := markEntries chars

/-- What an answer's end delivers: a garbled answer is counted and is a miss, a good REPORT is discarded and counted when
the slot no longer holds the address, has no effect when it spanned a step (log entry 26), and is delivered otherwise (R74,
R76 to R78). -/
def State.answerDelivery (s : State) (t : Turn) (stamp : Nat) (gen : BitVec 16) (chars : List RxChar) (quiet : Bool) :
    State :=
  if garbledAnswer chars quiet t.addr (s.slot t.slot) then
    State.deliverMiss { s with lc := { s.lc with garbled := s.lc.garbled + 1 } } t
  else if s.holdsAddress t = false then { s with lc := { s.lc with unknown := s.lc.unknown + 1 } }
  else if s.tb.gen ≠ gen then s
  else s.reportArrival t.slot (readReport (s.slot t.slot) stamp chars)

/-- ANSWER_END (R73): the answer holds the characters it declares, each of which takes 270 ticks (log entry 28). -/
def execAnswerEnd (chars : List RxChar) (s : State) : Host.Outcome State Fault Refusal :=
  match s.lc.phase, s.lc.turn with
  | .answering stamp gen, some t =>
    .next
      (if answerComplete chars && decide (chars.length * charTicks ≤ s.lc.timer) then
        (s.answerDelivery t stamp gen chars false).endTurn t
      else s)
  | _, _ => .next s

/-- QUIET_LINE (R73): the line has been quiet for 540 ticks after a character, the answer not complete. -/
def execQuietLine (chars : List RxChar) (s : State) : Host.Outcome State Fault Refusal :=
  match s.lc.phase, s.lc.turn with
  | .answering stamp gen, some t =>
    .next
      (if answerCutShort chars && decide (chars.length * charTicks + quietTicks ≤ s.lc.timer) then
        (s.answerDelivery t stamp gen chars true).endTurn t
      else s)
  | _, _ => .next s

/-- ANSWER_WINDOW_CLOSE (R79): 8,100 ticks after the CALL with no start bit received. -/
def execAnswerWindowClose (s : State) : Host.Outcome State Fault Refusal :=
  match s.lc.phase, s.lc.turn with
  | .window, some t => .next (if windowTicks ≤ s.lc.timer then (s.deliverMiss t).endTurn t else s)
  | _, _ => .next s

end Sys2Proof.Machine
end

