-- ==== Sys2Proof/Machine/Channels.lean ====
section
/-! DEFINITION. The channel array: the edge event, latching, starts and stops, the orders SET CHANNEL, START CHANNEL and
STOP CHANNEL, and what a step does to the channels (R42 to R67). -/

namespace Sys2Proof.Machine

/-! ## Segments and outputs -/

/-- A new current segment; the one held until then becomes the prior segment with end index `endIndex`, and an absent one
leaves the prior segment as it is (R44). -/
def Channel.newSegment (ch : Channel) (g : Segment) (endIndex : Nat) : Channel :=
  { ch with
    cur := some g
    prior := match ch.cur with
      | some old => some ⟨old, endIndex⟩
      | none => ch.prior }

/-- The instant of the next edge of a channel with a current segment (R45). -/
def Channel.nextEdge (ch : Channel) : Option Nat :=
  ch.cur.map (fun g => (g.instant ((ch.frame : Int) + 1)).toNat)

/-- The width at which a pulse is driven: the pulse width clamped to the rate of the current segment (R49). -/
def pulseTicks (width : Nat) (rate : Rate) : Nat := min width (rate.floorPeriod - 1)

/-- The outputs of an emitted edge at an instant, by the settings as they stand after any latch: the pulse of R49, and on
a PICTURE channel whose label output is on the timecode word of R50. -/
def Channel.drive (ch : Channel) (edge : Nat) : Channel :=
  match ch.cur with
  | none => ch
  | some g =>
    let w := pulseTicks ch.cfg.width g.rate
    { ch with
      pulse := if w = 0 then none else some (edge + w)
      tcWord :=
        if ch.kind == .picture && ch.cfg.labelOut then
          some
            { edge := edge
              next := (g.instant ((ch.frame : Int) + 1)).toNat
              cells := timecodeCells (ch.cfg.fmt.labelOf (ch.labelAt ch.frame)) ch.cfg.fmt ch.cfg.userWord }
        else none }

/-- The lines low and idle (R43). -/
def Channel.quiet (ch : Channel) : Channel := { ch with pulse := none, tcWord := none }

/-! ## Counting and latching (R46 to R48) -/

/-- A counted edge: the frame index advances and the last edge ST becomes the edge's instant (R46 step 2). -/
def Channel.count (ch : Channel) (edge : Nat) : Channel := { ch with frame := ch.frame + 1, lastEdge := some edge }

/-- The latch of a staged set at an edge that has been counted (R46 step 3, R47, R48). -/
def Channel.latch (ch : Channel) (edge : Nat) : Channel :=
  match ch.staged with
  | none => ch
  | some (.user w) => { ch with cfg := { ch.cfg with userWord := w }, staged := none }
  | some (.full set) =>
    { (ch.newSegment ⟨edge, ch.frame, set.rate⟩ (ch.frame - 1)) with cfg := set, staged := none }

/-- The RETIME record of a latch, when the staged set was a full one (R47). -/
def State.retimeRecord (s : State) (c : Fin 16) (old : Channel) : State :=
  match old.staged, (s.chan c).cur with
  | some (.full _), some g => s.sysEvent (.channelEvent c .retime (some (g.origin, g.base)))
  | _, _ => s

/-- The origin and base of the current segment held, for a channel event (R57, R59). -/
def Channel.eventSegment (ch : Channel) : Option (Nat × Nat) := ch.cur.map (fun g => (g.origin, g.base))

/-- A channel that enters STOPPED: it keeps its segments, and the staged set is discarded (R57, R59). -/
def Channel.stopped (ch : Channel) : Channel :=
  { ch.quiet with state := .stopped, stopPending := false, staged := none, startSt := none }

/-- Entry into STOPPED: the STOP record, and then the channel-stop notice to the roster (R57, R59). -/
def State.stopChannel (s : State) (c : Fin 16) : State :=
  let s1 := s.setChan c (s.chan c).stopped
  (s1.sysEvent (.channelEvent c .stop (s.chan c).eventSegment)).stopNotice c

/-- The emitted edge of a RUNNING channel at an instant: the stop edge of a pending stop, or count, latch and outputs
(R46, R59). -/
def State.emitEdge (s : State) (c : Fin 16) (edge : Nat) : State :=
  let ch := s.chan c
  if ch.stopPending then s.stopChannel c
  else (s.setChan c (((ch.count edge).latch edge).drive edge)).retimeRecord c ch

/-! ## Starts (R55, R56) -/

/-- The channel becomes RUNNING with a new segment at its origin, base 0, the frame index and last edge ST as given
(R55, R56). -/
def Channel.started (ch : Channel) (origin frame lastEdge : Nat) : Channel :=
  { (ch.newSegment ⟨origin, 0, ch.cfg.rate⟩ ch.frame) with
    state := .running, frame := frame, lastEdge := some lastEdge, startSt := none }

/-- The START record of a channel (R55, R56). -/
def State.startRecord (s : State) (c : Fin 16) (origin : Nat) : State :=
  s.sysEvent (.channelEvent c .start (some (origin, 0)))

/-- An ARMED channel whose start ST has been reached: it runs, and edge 0 is emitted (R55). -/
def State.armedStart (s : State) (c : Fin 16) (start : Nat) : State :=
  (s.setChan c (((s.chan c).started start 0 start).drive start)).startRecord c start

/-- A late start: the edges at or before `now` are counted and not emitted (R56). -/
def State.lateStart (s : State) (c : Fin 16) (t0 : Nat) : State :=
  let ch := s.chan c
  let k := ((s.tb.st - t0 + 1) * ch.cfg.rate.d - 1) / ch.cfg.rate.n
  (s.setChan c (ch.started t0 k (t0 + k * ch.cfg.rate.n / ch.cfg.rate.d))).startRecord c t0

/-! ## Time steps (R60 to R62) -/

/-- The index and instant of the last edge of a RUNNING channel's current segment before `limit`, when it lies after the
frame index: the edges up to it are skipped (R60). -/
def Channel.skipRest (ch : Channel) (limit : Nat) : Channel :=
  match ch.cur with
  | none => ch
  | some g =>
    let k := g.edgeAt ((limit : Int) - 1)
    if (ch.frame : Int) < k then { ch with frame := k.toNat, lastEdge := some (g.instant k).toNat } else ch

/-- The skipped edges of a RUNNING channel in the span after `stamp` and before `limit`: the first one may stop the
channel or latch its staged set; the later ones are counted on the segment then current. The step ends any pulse or
timecode word in progress (R60; log entry 19). -/
def State.skipEdges (s : State) (c : Fin 16) (stamp limit : Nat) : State :=
  let ch := s.chan c
  match ch.nextEdge with
  | none => s
  | some edge =>
    if stamp < edge ∧ edge < limit then
      if ch.stopPending then s.stopChannel c
      else (s.setChan c ((((ch.count edge).latch edge).skipRest limit).quiet)).retimeRecord c ch
    else s.setChan c ch.quiet

/-- A step at one channel: a RUNNING channel skips its edges in the span; an ARMED channel whose start ST lies in the
span starts and skips its edges, edge 0 among them (R60, R61). -/
def State.channelStep (stamp limit : Nat) (s : State) (c : Fin 16) : State :=
  let ch := s.chan c
  match ch.state with
  | .stopped => s
  | .running => s.skipEdges c stamp limit
  | .armed =>
    match ch.startSt with
    | some t =>
      if stamp < t ∧ t < limit then
        (s.setChan c (((ch.started t 0 t).skipRest limit).quiet)).startRecord c t
      else s
    | none => s

/-- The channel array applies a step to the channels in number order (R62). -/
def State.channelsStep (s : State) (stamp limit : Nat) : State :=
  (List.finRange 16).foldl (State.channelStep stamp limit) s

/-- An edge or armed start that is due at the ST as it stands is taken (R45, R55; log entry 18). -/
def State.settleChannel (s : State) (c : Fin 16) : State :=
  let ch := s.chan c
  match ch.state with
  | .stopped => s
  | .running =>
    match ch.nextEdge with
    | some edge => if edge ≤ s.tb.st then s.emitEdge c edge else s
    | none => s
  | .armed =>
    match ch.startSt with
    | some t => if t ≤ s.tb.st then s.armedStart c t else s
    | none => s

/-- What is due at the ST as it stands on any channel is taken before a step (R61; log entry 18). -/
def State.settleChannels (s : State) : State := (List.finRange 16).foldl State.settleChannel s

/-! ## SET CHANNEL (R51, R52) -/

/-- The kind and settings that a SET CHANNEL carries; none when the rate, the format or the start label is out of range
(R51, R190). -/
def channelSettings (o : Order) : Option (ChanKind × Settings) :=
  let w := o.p 1
  let rate : Rate := ⟨(o.p 2).toNat, (o.p 3).toNat⟩
  if rate.legal then
    match fmtOfCode (bits w 7 4) with
    | none => none
    | some fmt =>
      match fmt.enter (labelOfWord (o.p 5)) with
      | none => none
      | some (start, _) =>
        some (if bit w 0 then .sample else .picture,
          { rate := rate, width := bits (o.p 4) 15 0, fmt := fmt, start := start, labelOut := bit w 1,
            userWord := o.p 6, stamping := bit w 2 })
  else none

/-- A SET CHANNEL's settings applied at once, or staged on a RUNNING channel (R52). -/
def Channel.configure (ch : Channel) (kind : ChanKind) (set : Settings) : Channel :=
  match ch.state with
  | .stopped | .armed => { ch with kind := kind, cfg := set }
  | .running => { ch with staged := some (.full set) }

/-- SET CHANNEL, taken by the channel array (R51, R52). -/
def setChannelOrder (o : Order) (s : State) : State :=
  match chanOf (o.p 0).toNat, channelSettings o with
  | some c, some (kind, set) =>
    let ch := s.chan c
    if kind ≠ ch.kind ∧ ch.state ≠ .stopped then s.report .refusedState
    else if ch.stopPending then s.report .refusedState
    else if kind ≠ .picture ∧ ch.bound ≠ 0 then s.report .refusedBound
    else (s.setChan c (ch.configure kind set)).report .done
  | _, _ => s.report .refusedRange

/-! ## START CHANNEL (R53, R54) -/

/-- The start instant of a START CHANNEL: the one it gives, or the first grid point strictly after ST (R53). -/
def State.startInstant (s : State) (o : Order) : Nat :=
  if o.grid then instant64 (s.tb.gridAfter s.tb.st) else wide (o.p 1) (o.p 2)

/-- START CHANNEL, taken by the channel array (R53, R54, R56). -/
def startChannelOrder (o : Order) (s : State) : State :=
  match chanOf (o.p 0).toNat with
  | none => s.report .refusedRange
  | some c =>
    if (s.chan c).state ≠ .stopped then s.report .refusedState
    else
      let t0 := s.startInstant o
      if s.tb.st < t0 then (s.setChan c { s.chan c with state := .armed, startSt := some t0 }).report .done
      else (s.lateStart c t0).report .done

/-! ## STOP CHANNEL (R57, R58) -/

/-- STOP CHANNEL, taken by the channel array (R57, R58). -/
def stopChannelOrder (o : Order) (s : State) : State :=
  match chanOf (o.p 0).toNat with
  | none => s.report .refusedRange
  | some c =>
    match (s.chan c).state with
    | .stopped => s.report .refusedState
    | .armed => (s.stopChannel c).report .done
    | .running => (s.setChan c { s.chan c with stopPending := true }).report .done

/-! ## The commands -/

/-- SET_CHANNEL (R52): handed to the channel array. -/
def execSetChannel (s : State) : Host.Outcome State Fault Refusal := .next (s.handOrder .setChannel setChannelOrder)

/-- START_CHANNEL (R53): handed to the channel array. -/
def execStartChannel (s : State) : Host.Outcome State Fault Refusal :=
  .next (s.handOrder .startChannel startChannelOrder)

/-- STOP_CHANNEL (R57): handed to the channel array. -/
def execStopChannel (s : State) : Host.Outcome State Fault Refusal := .next (s.handOrder .stopChannel stopChannelOrder)

/-- CHANNEL_EDGE (R46): a RUNNING channel's next edge, taken once ST has reached its instant (R45). -/
def execChannelEdge (c : Fin 16) (s : State) : Host.Outcome State Fault Refusal :=
  match (s.chan c).state, (s.chan c).nextEdge with
  | .running, some edge => .next (if edge ≤ s.tb.st then s.emitEdge c edge else s)
  | _, _ => .next s

/-- CHANNEL_ARMED_START (R55): an ARMED channel starts once ST has reached its start ST. -/
def execChannelArmedStart (c : Fin 16) (s : State) : Host.Outcome State Fault Refusal :=
  match (s.chan c).state, (s.chan c).startSt with
  | .armed, some t => .next (if t ≤ s.tb.st then s.armedStart c t else s)
  | _, _ => .next s

/-- PULSE_END (R49): a high pulse falls once ST has reached its end. -/
def execPulseEnd (c : Fin 16) (s : State) : Host.Outcome State Fault Refusal :=
  match (s.chan c).pulse with
  | some t => .next (if t ≤ s.tb.st then s.setChan c { s.chan c with pulse := none } else s)
  | none => .next s

end Sys2Proof.Machine
end

