-- ==== Sys2Proof/Machine/TimeBaseOps.lean ====
section
/-! DEFINITION. The time base: counting studio time, reference edges and misses, acquisition and the forward step,
SET REFERENCE, and the time registers (R1 to R21). -/

namespace Sys2Proof.Machine

/-! ## Counting (R1, R68) -/

/-- The exact sum of ST and the remainder one oscillator tick on, in units of 1/10^9 tick (R1). -/
def TimeBase.nextSum (tb : TimeBase) : Nat :=
  ((tb.st : Int) * 1000000000 + tb.rem + (1000000000 + tb.trim + tb.slew)).toNat

/-- ST and the remainder after one oscillator tick (R1). -/
def TimeBase.tick (tb : TimeBase) : TimeBase :=
  { tb with st := instant64 (tb.nextSum / 1000000000), rem := tb.nextSum % 1000000000 }

/-- The link's own timing: oscillator ticks since the phase began, not counted while the link is idle (R68). -/
def Link.tick (lc : Link) : Link :=
  match lc.phase with
  | .idle => lc
  | .gap | .sendingSet | .sendingCall | .window | .answering _ _ => { lc with timer := lc.timer + 1 }

/-- OSCILLATOR_TICK (R1): one tick of the oscillator. -/
def execOscillatorTick (s : State) : Host.Outcome State Fault Refusal :=
  .next { s with tb := s.tb.tick, lc := s.lc.tick }

/-! ## Reference state changes (R5, R15, R16) -/

/-- A change of reference state: REFERENCE attention and a REFERENCE STATE record (R16). -/
def State.refChanged (s : State) (old : RefState) : State :=
  (s.raise .reference).sysEvent (.referenceState s.tb.ref old)

/-- The time base as each entry into ACQUIRING leaves it; `first` is the stamp of the edge that causes the entry
(R5). -/
def TimeBase.acquiring (tb : TimeBase) (first : Option Nat) : TimeBase :=
  { tb with ref := .acquiring, qual := 0, prevEdge := first, slew := 0, wide := 0, missed := 0, expected := none }

/-- Entry into ACQUIRING (R5). -/
def State.enterAcquiring (s : State) (first : Option Nat) : State :=
  State.refChanged { s with tb := s.tb.acquiring first } s.tb.ref

/-! ## Acquisition (R6 to R9) -/

/-- An interval qualifies when it differs from the reference period by at most 2,700 ticks (R6). -/
def TimeBase.qualifies (tb : TimeBase) (interval : Int) : Bool :=
  decide ((interval * tb.period.d - tb.period.n).natAbs ≤ 2700 * tb.period.d)

/-- The time base as it enters LOCKED with an expected grid point; trim and slew keep their values (R7, R8). -/
def TimeBase.lockedAt (tb : TimeBase) (expected : Nat) : TimeBase :=
  { tb with ref := .locked, expected := some expected, wide := 0, missed := 0 }

/-- The grid point that an alignment without a step takes: the nearer of g and g′ within 1,350 ticks, g′ when they are
equally near; none when the alignment steps (R7, R8). -/
def TimeBase.alignPoint (tb : TimeBase) (stamp : Nat) : Option Nat :=
  let g := tb.gridFrom stamp
  match tb.gridBefore? stamp with
  | none => if g - stamp ≤ 1350 then some g else none
  | some g' =>
    if g - stamp ≤ 1350 ∨ stamp - g' ≤ 1350 then (if stamp - g' ≤ g - stamp then some g' else some g) else none

/-- The announcement of a step: the TIME STEP record, then the channel array and the roster (R9). -/
def State.announceStep (s : State) (stamp d : Nat) : State :=
  ((s.sysEvent (.timeStep d)).channelsStep stamp (stamp + d)).rosterStep d

/-- The forward step: ST becomes g, the remainder 0, G rises, and the time base enters LOCKED; the step is announced, and
the entry into LOCKED is reported after it (R8, R9). -/
def State.stepForward (s : State) (stamp g : Nat) : State :=
  let s0 := s.settleChannels
  let stepped : TimeBase := { s0.tb with st := instant64 g, rem := 0, gen := s0.tb.gen + 1 }
  let tb := stepped.lockedAt (s0.tb.gridAfter g)
  (State.announceStep { s0 with tb := tb } stamp (g - stamp)).refChanged .acquiring

/-- The edge that brings the qualification count to 25 aligns, without a step or with one (R7, R8). -/
def State.align (s : State) (stamp : Nat) : State :=
  match s.tb.alignPoint stamp with
  | some g => State.refChanged { s with tb := s.tb.lockedAt (s.tb.gridAfter g) } .acquiring
  | none => s.stepForward stamp (s.tb.gridFrom stamp)

/-- The qualification count after an edge, by the interval to the previous one (R6). -/
def TimeBase.nextQual (tb : TimeBase) (stamp : Nat) : Nat :=
  match tb.prevEdge with
  | none => 0
  | some prev => if tb.qualifies ((stamp : Int) - prev) then tb.qual + 1 else 0

/-- An edge in ACQUIRING (R6). -/
def State.edgeAcquiring (s : State) (stamp : Nat) : State :=
  let q := s.tb.nextQual stamp
  let s1 := { s with tb := { s.tb with qual := q, prevEdge := some stamp } }
  if q = 25 then s1.align stamp else s1

/-! ## LOCKED (R10 to R14) -/

/-- Clamped to ±x. -/
def clampTo (x v : Int) : Int := max (-x) (min x v)

/-- The phase error of a matched edge, clamped to ±2,047 (R10). -/
def phaseError (stamp expected : Nat) : Int := clampTo 2047 ((stamp : Int) - expected)

/-- A narrow edge's correction of trim and slew (R11). -/
def TimeBase.narrow (tb : TimeBase) (e : Int) : TimeBase :=
  let p : Int := tb.period.floorPeriod
  { tb with
    trim := clampTo 20000 (tb.trim - (e * 1000000000).tdiv (16 * p))
    slew := clampTo 50000 (-((e * 1000000000).tdiv p))
    wide := 0 }

/-- An edge that is matched to the expected grid point (R10 to R12). -/
def State.edgeMatched (s : State) (stamp expected : Nat) : State :=
  let e := phaseError stamp expected
  let tb : TimeBase := { s.tb with missed := 0, expected := some (s.tb.gridAfter expected) }
  if e.natAbs ≤ 1350 then { s with tb := tb.narrow e }
  else
    let s1 := { s with tb := { tb with wide := tb.wide + 1, slew := 0 } }
    if 3 ≤ tb.wide + 1 then s1.enterAcquiring (some stamp) else s1

/-- An edge in LOCKED: matched from P − H to P + H, a stray edge before (R10, R13). -/
def State.edgeLocked (s : State) (stamp : Nat) : State :=
  match s.tb.expected with
  | none => s
  | some p =>
    if (p : Int) - s.tb.half ≤ stamp ∧ stamp ≤ p + s.tb.half then s.edgeMatched stamp p else s

/-- A miss is due: ST has passed P + H in LOCKED (R14). -/
def TimeBase.missDue (tb : TimeBase) : Bool :=
  match tb.ref, tb.expected with
  | .locked, some p => decide (p + tb.half < tb.st)
  | _, _ => false

/-- A miss: S becomes 0, the count rises, P advances, and the third one enters HOLDOVER (R14). -/
def State.refMiss (s : State) : State :=
  let n := s.tb.missed + 1
  if 3 ≤ n then
    State.refChanged { s with tb := { s.tb with slew := 0, missed := n, ref := .holdover, expected := none } } s.tb.ref
  else { s with tb := { s.tb with slew := 0, missed := n, expected := s.tb.expected.map s.tb.gridAfter } }

/-- Misses that are due before an edge are taken first: an edge stamped after P + H finds P already advanced
(R14; log entry 17). At most three can follow one another. -/
def State.settleMisses (s : State) : State :=
  let one (s : State) : State := if s.tb.missDue then s.refMiss else s
  one (one (one s))

/-! ## The reference events -/

/-- A reference edge handled by the reference state (R4). -/
def State.refEdge (s : State) : State :=
  let s1 := s.settleMisses
  let stamp := s1.tb.st
  match s1.tb.ref with
  | .free => s1
  | .acquiring => s1.edgeAcquiring stamp
  | .locked => s1.edgeLocked stamp
  | .holdover => s1.enterAcquiring (some stamp)

/-- REFERENCE_EDGE (R4). -/
def execReferenceEdge (s : State) : Host.Outcome State Fault Refusal := .next s.refEdge

/-- REFERENCE_MISS (R14): taken once ST has passed P + H in LOCKED. -/
def execReferenceMiss (s : State) : Host.Outcome State Fault Refusal :=
  .next (if s.tb.missDue then s.refMiss else s)

/-! ## SET REFERENCE (R17, R18) -/

/-- The settings a SET REFERENCE carries, when they pass the checks of R17. -/
def referenceSettings (o : Order) : Option (Rate × Nat) :=
  let rate : Rate := ⟨(o.p 1).toNat, (o.p 2).toNat⟩
  if rate.legal = true ∧ (o.p 3).toNat < rate.floorPeriod then some (rate, (o.p 3).toNat) else none

/-- SET REFERENCE, taken by the time base (R17, R18). -/
def setReferenceOrder (o : Order) (s : State) : State :=
  match referenceSettings o with
  | none => s.report .refusedRange
  | some (rate, phi) =>
    let set := { s with tb := { s.tb with period := rate, phi := phi } }
    if bit (o.p 0) 0 then
      if s.tb.ref = .locked ∧ s.tb.period = rate ∧ s.tb.phi = phi then s.report .done
      else (set.enterAcquiring none).report .done
    else
      let off := { set with tb := { set.tb with ref := .free, slew := 0, expected := none } }
      if s.tb.ref = .free then off.report .done else (off.refChanged s.tb.ref).report .done

/-- SET_REFERENCE (R18): handed to the time base. -/
def execSetReference (s : State) : Host.Outcome State Fault Refusal :=
  .next (s.handOrder .setReference setReferenceOrder)

/-! ## The time registers (R19, R20) -/

/-- TIME_LOW_READ (R19): the low half of ST is returned and the high half latched. -/
def execTimeLowRead (s : State) : Host.Outcome State Fault Refusal :=
  .next { s with readData := lowWord s.tb.st, tb := { s.tb with timeHigh := highWord s.tb.st } }

/-- IGNORED_REGISTER_WRITE (R20): a write to TIME LOW or TIME HIGH changes nothing. -/
def execIgnoredRegisterWrite (_r : TimeRegister) (_v : Word) (s : State) : Host.Outcome State Fault Refusal :=
  .next s

end Sys2Proof.Machine
end

