-- ==== Sys2Proof/Machine/EngineOps.lean ====
section
/-! DEFINITION. The order engine: ORDER HEAD writes, the fetch, termination and linking of blocks, abort and engine clear,
PASS and SNAPSHOT, the attention registers, and reset (R170 to R187). -/

namespace Sys2Proof.Machine

/-! ## Fetching (R173) -/

/-- The header test of a block: a non-zero multiple of 4 whose four header words lie in the window (R173). -/
def State.headerFits (s : State) (block : Nat) : Bool := block != 0 && block % 4 == 0 && s.inWindow block 16

/-- The address of word i of a fetch: the kind-and-flags word, then the parameter words (R173, R189). -/
def fetchAddress (block : Nat) : Nat → Nat
  | 0 => block
  | i + 1 => block + 16 + 4 * i

/-- Word i of a fetch, of which the words `got` have been read: as it was read, or as it stands (R170, R173). -/
def State.fetchWord (s : State) (block : Nat) (got : List Word) (i : Nat) : Word :=
  got.getD i (Memory.readWord s.mem (fetchAddress block i))

/-- The kind of a block's kind-and-flags word (R189). -/
def State.blockKind (s : State) (block : Nat) (got : List Word) : Option OrderKind :=
  orderKindOfCode (bits (s.fetchWord block got 0) 7 0)

/-- The number of parameter words to read for a kind: for GIVE PAGES the count word, and as many address words as a count
from 1 to 32 says (R173). -/
def State.paramCount (s : State) (block : Nat) (got : List Word) (k : OrderKind) : Nat :=
  match k with
  | .givePages =>
    let count := (s.fetchWord block got 1).toNat
    if 1 ≤ count ∧ count ≤ 32 then 1 + count else 1
  | k => k.paramWords

/-- The first `n` parameter words of a block lie wholly in the window (R173). -/
def State.paramsIn (s : State) (block n : Nat) : Bool := s.inWindow (block + 16) (4 * n)

/-- The parameter words lie wholly in the window; for GIVE PAGES the count word is tested before it is read (R173). -/
def State.paramsFit (s : State) (block : Nat) (got : List Word) (k : OrderKind) : Bool :=
  s.paramsIn block k.paramWords && s.paramsIn block (s.paramCount block got k)

/-- The order that a block's words give, its kind known (R173, R189). -/
def State.readOrder (s : State) (block : Nat) (got : List Word) (k : OrderKind) : Order :=
  let w := s.fetchWord block got 0
  { kind := k, stForm := bit w 8, waitFlag := bit w 9, grid := bit w 10
    params := (List.range (s.paramCount block got k)).map (fun i => s.fetchWord block got (i + 1)) }

/-- The address of the next word that a fetch reads, the words `got` having been read; none when the header test fails,
when the kind is unknown, when the parameter words do not fit, or when every word has been read (R173). -/
def State.nextFetchAddress (s : State) (block : Nat) (got : List Word) : Option Nat :=
  match got with
  | [] => if s.headerFits block then some block else none
  | w :: params =>
    match orderKindOfCode (bits w 7 0) with
    | none => none
    | some k =>
      let n := if params = [] then k.paramWords else s.paramCount block got k
      if s.headerFits block && s.paramsIn block n && decide (params.length < n) then
        some (fetchAddress block got.length)
      else none

/-- The write of TAKEN into a block's termination word (R174). -/
def takenWrites (block : Nat) : List (Nat × Word) := [(block + 12, takenWord)]

/-- A fetch begins at a block, no word read yet (R173). -/
def State.beginFetch (s : State) (block : Nat) : State :=
  { s with oe := { s.oe with block := block, step := .fetching [] } }

/-- The fetch of the current block, its reads complete: the words `got` were read before, the others are read now
(R173, R174; log entries 10, 11 and 12). -/
def State.fetched (s : State) (got : List Word) : State :=
  let b := s.oe.block
  if s.headerFits b then
    match s.blockKind b got with
    | none => s.report .refusedKind
    | some k =>
      if s.paramsFit b got k then
        { s with
          mem := Memory.writeAll s.mem (takenWrites b)
          oe := { s.oe with step := .taken (s.readOrder b got k) } }
      else s.report .windowFault
  else s.chainEnd .stopped

/-- ORDER_FETCH (R173). -/
def execOrderFetch (s : State) : Host.Outcome State Fault Refusal :=
  match s.oe.step with
  | .fetching got => .next (s.fetched got)
  | _ => .next s

/-! ## Terminating and linking (R175, R176) -/

/-- The words written at TERMINATING: result words first, the termination word last (R175). The order among the result
words is their address order, a choice of the model for TRANSLATE (log entry 33). -/
def terminationWrites (block : Nat) (results : List (Nat × Word)) (code : Result) (detail : Nat) :
    List (Nat × Word) :=
  results ++ [(block + 12, terminationWord code detail)]

/-- The final termination word has been written: the engine moves to LINKING, or the chain ends STOPPED after an abort
(R175, R177). -/
def State.terminated (s : State) (writes : List (Nat × Word)) (code : Result) : State :=
  let s1 := { s with mem := Memory.writeAll s.mem writes }
  if s.oe.stopAfter then s1.chainEnd .stopped else { s1 with oe := { s1.oe with step := .linking code } }

/-- TERMINATION_WRITTEN (R175). -/
def execTerminationWritten (s : State) : Host.Outcome State Fault Refusal :=
  match s.oe.step with
  | .terminating results code detail =>
    let writes := terminationWrites s.oe.block results code detail
    s.guarded (writes.map Prod.fst) (s.terminated writes code)
  | _ => .next s

/-- The results that follow the next link; every other one is a fault (R176). -/
def Result.followsNext (code : Result) : Bool := code == .done || code == .accepted

/-- The address of the link word to read: the next link for DONE and ACCEPTED, the fault link otherwise (R176, R189). -/
def linkAddress (block : Nat) (code : Result) : Nat := if code.followsNext then block + 4 else block + 8

/-- The link has been read: 0 ends the chain, another link starts a fetch; after an abort it is not followed
(R176, R177). -/
def State.linked (s : State) (code : Result) : State :=
  let link := (Memory.readWord s.mem (linkAddress s.oe.block code)).toNat
  if s.oe.stopAfter then s.chainEnd .stopped
  else if link = 0 then s.chainEnd (if code.followsNext then .done else .stopped)
  else s.beginFetch link

/-- LINK_READ (R176). -/
def execLinkRead (s : State) : Host.Outcome State Fault Refusal :=
  match s.oe.step with
  | .linking code => s.guarded [linkAddress s.oe.block code] (s.linked code)
  | _ => .next s

/-! ## PASS and SNAPSHOT (R181 to R183) -/

/-- PASS, taken by the order engine (R181). -/
def passOrder (_o : Order) (s : State) : State := s.report .done

/-- SNAPSHOT, taken by the order engine: the image is captured in this event, and the order is HANDED while it is written
(R182, R183). -/
def snapshotOrder (o : Order) (s : State) : State :=
  let a := (o.p 0).toNat
  if a = 0 ∨ a % 4 ≠ 0 ∨ s.inWindow a 1088 = false then s.report .windowFault
  else { s with oe := { s.oe with step := .imaging a s.snapshotImage } }

/-- PASS (R181): handed to the order engine. -/
def execPass (s : State) : Host.Outcome State Fault Refusal := .next (s.handOrder .pass passOrder)

/-- SNAPSHOT (R182): handed to the order engine. -/
def execSnapshot (s : State) : Host.Outcome State Fault Refusal := .next (s.handOrder .snapshot snapshotOrder)

/-- The image has been written, the words still open now: the result word, the number of image words, goes with the
termination (R183, R190). -/
def State.imageWritten (s : State) (area : Nat) (image : List Word) : State :=
  State.report { s with mem := Memory.writeAll s.mem (wordsAt area image) } .done 0 [(s.oe.block + 20, 272)]

/-- SNAPSHOT_WRITTEN (R183). -/
def execSnapshotWritten (s : State) : Host.Outcome State Fault Refusal :=
  match s.oe.step with
  | .imaging area image => s.guarded ((wordsAt area image).map Prod.fst) (s.imageWritten area image)
  | _ => .next s

/-! ## Abort (R177, R178) -/

/-- The chain is to end STOPPED after the step in hand (R177). -/
def State.setStopAfter (s : State) : State := { s with oe := { s.oe with stopAfter := true } }

/-- An abort of a waiting JAM: it terminates ABORTED and the jam goes on in the background (R130). -/
def State.abortJam (s : State) (i : Fin 48) : State :=
  let d := s.slot i
  (s.setSlot i { d with jam := d.jam.map (fun j => { j with waiting := false }), lastResult := some .aborted }).report
    .aborted

/-- An abort of an EXCHANGE: before its read it terminates ABORTED with the hold cleared, after that it runs to its end
(R114, R178). -/
def State.abortExchange (s : State) : State :=
  match s.exch with
  | some e => if e.phase = .waitService then s.endExchange e .aborted else s
  | none => s

/-- An abort of the kept order, settled by its owner (R178). -/
def State.abortKept (s : State) (k : Kept) : State :=
  match k with
  | .jam i => s.abortJam i
  | .exchange => s.abortExchange
  | .flushLog => s.abortFlush

/-- The fetch has passed the header test: the test comes before the first read, so the words `got` read so far are not none
(R173, R177; log entry 11). -/
def State.headerPassed (s : State) (got : List Word) : Bool := !got.isEmpty && s.headerFits s.oe.block

/-- An abort by the engine's step: before the header test has been passed, whatever the block's address, the chain ends with
no word written (R177). A second abort before the chain's end changes nothing further. -/
def State.abortChain (s : State) : State :=
  if s.oe.stopAfter then s
  else
    match s.oe.step with
    | .none => s
    | .fetching got => if s.headerPassed got then s.setStopAfter.report .aborted else s.chainEnd .stopped
    | .taken _ | .held _ => s.setStopAfter.report .aborted
    | .imaging _ _ | .terminating _ _ _ | .linking _ => s.setStopAfter
    | .waiting k => s.setStopAfter.abortKept k

/-! ## Engine clear (R179) -/

/-- The words that the engine has still to write into the window, by its step. -/
def State.engineWrites (s : State) : List (Nat × Word) :=
  match s.oe.step with
  | .imaging area image => wordsAt area image
  | .terminating results code detail => terminationWrites s.oe.block results code detail
  | .none | .fetching _ | .taken _ | .held _ | .waiting _ | .linking _ => []

/-- The engine's writes stop after the word in progress: how many words were made is a free value (R179, R183; log entry
14). -/
def State.cutEngine (s : State) : State :=
  match s.engineWrites with
  | [] => s
  | ws => { s with mem := Memory.writeFirst s.mem ws (s.wordsMade ws.length), free := s.free + 1 }

/-- A kept order is dropped and its owner told: a waiting JAM goes on in the background, an EXCHANGE before its read ends
with its hold cleared and one past it runs on, a FLUSH LOG's flush set is forgotten with the page writer's action
(R114, R130, R167, R179). -/
def State.dropKept (s : State) : State :=
  match s.oe.step with
  | .waiting (.jam i) =>
    s.setSlot i { s.slot i with jam := (s.slot i).jam.map (fun j => { j with waiting := false }) }
  | .waiting .exchange =>
    match s.exch with
    | some e =>
      if e.phase = .waitService then (s.clearHold e.slot).setExchange none
      else s.setExchange (some { e with dropped := true })
    | none => s
  | _ => s

/-- The engine as engine clear leaves it: IDLE with head address 0 and no block, all causes cleared and CLEARED set, the
mask kept (R179). -/
def Engine.cleared (oe : Engine) : Engine :=
  { oe with chain := .idle, head := 0, block := 0, step := .none, stopAfter := false, causes := Cause.cleared.bitMask }

/-- Engine clear, its five steps (R179). -/
def State.clearEngine (s : State) : State :=
  let s1 := s.cutEngine.dropKept
  State.pageWriterClear { s1 with oe := s1.oe.cleared }

/-- The words that an engine clear may still write: those of the engine's write in progress and of the record being
written, whose page's record count is not written (R168, R179). -/
def State.clearAreas (s : State) : List Nat :=
  (s.engineWrites.map Prod.fst) ++
    (match s.pw.activity, s.pw.page, s.lu.queue with
     | .writing made, some p, r :: _ => (recordWordsLeft p r made).map Prod.fst
     | _, _, _ => [])

/-! ## ORDER HEAD writes (R172) -/

/-- A refused ORDER HEAD write: ignored, and REFUSED is raised (R172). -/
def State.refuseHead (s : State) : State := s.raise .refused

/-- A write to ORDER HEAD, by the value written and the chain state (R172). -/
def State.orderHeadWrite (s : State) (v : Word) : Host.Outcome State Fault Refusal :=
  if v = 2 then s.guarded s.clearAreas s.clearEngine
  else if startsChain v = true ∧ s.oe.chain = .idle then
    .next (State.beginFetch { s with oe := { s.oe with chain := .running, head := v.toNat } } v.toNat)
  else if v = 0 ∧ (s.oe.chain = .done ∨ s.oe.chain = .stopped) then
    .next { s with oe := { s.oe with chain := .idle, head := 0 } }
  else if v = 1 ∧ s.oe.chain = .running then .next s.abortChain
  else .next s.refuseHead

/-- CHAIN_START (R172): a write of a non-zero multiple of 4 to ORDER HEAD. -/
def execChainStart (v : Word) (s : State) : Host.Outcome State Fault Refusal := s.orderHeadWrite v

/-- RETURN_TO_IDLE (R172): a write of 0 to ORDER HEAD. -/
def execReturnToIdle (s : State) : Host.Outcome State Fault Refusal := s.orderHeadWrite 0

/-- ABORT (R177): a write of 1 to ORDER HEAD. -/
def execAbort (s : State) : Host.Outcome State Fault Refusal := s.orderHeadWrite 1

/-- ENGINE_CLEAR (R179): a write of 2 to ORDER HEAD. -/
def execEngineClear (s : State) : Host.Outcome State Fault Refusal := s.orderHeadWrite 2

/-- REFUSED_ORDER_HEAD_WRITE (R172): a write to ORDER HEAD that no state or value allows. -/
def execRefusedOrderHeadWrite (v : Word) (s : State) : Host.Outcome State Fault Refusal := s.orderHeadWrite v

/-! ## The attention registers (R185, R186) -/

/-- ATTENTION_WRITE (R185): each cause whose bit is 1 is cleared. -/
def execAttentionWrite (v : Word) (s : State) : Host.Outcome State Fault Refusal :=
  .next { s with oe := { s.oe with causes := s.oe.causes &&& ~~~(v.setWidth 8) } }

/-- ATTENTION_MASK_WRITE (R186): the mask is replaced. -/
def execAttentionMaskWrite (v : Word) (s : State) : Host.Outcome State Fault Refusal :=
  .next { s with oe := { s.oe with mask := v.setWidth 8 } }

/-! ## Reset (R187 and the other blocks' reset rules) -/

/-- The words that an order engine cut off by reset may be writing: also TAKEN, at a fetch whose reads are complete, and so
never before the header test, or at an order not yet handed (R174, R187; log entry 12). -/
def State.resetEngineWrites (s : State) : List (Nat × Word) :=
  match s.oe.step with
  | .fetching got =>
    let b := s.oe.block
    if s.headerFits b && (s.nextFetchAddress b got).isNone then
      match s.blockKind b got with
      | some k => if s.paramsFit b got k then takenWrites b else []
      | none => []
    else []
  | .taken _ => takenWrites s.oe.block
  | _ => s.engineWrites

/-- The words that an EXCHANGE cut off by reset may be writing, in address order (R117; the order is log entry 33's). -/
def State.resetExchangeWrites (s : State) : List (Nat × Word) :=
  match s.exch with
  | some e =>
    match e.phase with
    | .writing area image => wordsAt area image
    | .waitService | .reading _ => []
  | none => []

/-- The words that a page writer cut off by reset may be writing (R169; the order of a claim's words is log entry 33's). -/
def State.resetPageWrites (s : State) : List (Nat × Word) :=
  match s.pw.activity, s.pw.page with
  | .claiming page _, _ => if Memory.readWord s.mem page = 0 then s.claimWrites page else []
  | .writing made, some p =>
    match s.lu.queue with
    | r :: _ => recordLeft p r made
    | [] => []
  | .closing _ _, some p => closeWrites p
  | _, _ => []

/-- A memory operation is cut off by reset: how many words were made is a free value, and so is what the word in progress
then holds (R187; log entries 14 and 15). -/
def State.cutByReset (s : State) (ws : List (Nat × Word)) : State :=
  match ws with
  | [] => s
  | ws =>
    { s with
      mem := Memory.writeCut s.mem ws (s.wordsMade ws.length) (Config.freeWord s.free)
      free := s.free + 1 }

/-- RESET (R187): every block takes its reset values, the straps are sampled, and memory operations in progress are cut
off. The memory, the queue of commands and the counter of free values are not the part's to reset. Where two of the
operations cut off write one word, the later of them here stands (log entry 33). -/
def execReset (strap1 strap2 : Bool) (s : State) : Host.Outcome State Fault Refusal :=
  let cut := ((s.cutByReset s.resetEngineWrites).cutByReset s.resetExchangeWrites).cutByReset s.resetPageWrites
  s.guarded ((s.resetEngineWrites ++ s.resetExchangeWrites ++ s.resetPageWrites).map Prod.fst)
    { State.reset with mem := cut.mem, straps := (strap1, strap2), free := cut.free, pending := cut.pending }

end Sys2Proof.Machine
end

