-- ==== Sys2Proof/Machine/Dispatch.lean ====
section
/-! DEFINITION. One arm per command, each a direct call of its meaning. -/

namespace Sys2Proof.Machine

def exec (i : Instr) (s : State) : Host.Outcome State Fault Refusal :=
  match i with
  | .reset strap1 strap2 => Sys2Proof.Machine.execReset strap1 strap2 s
  | .referenceEdge => Sys2Proof.Machine.execReferenceEdge s
  | .referenceMiss => Sys2Proof.Machine.execReferenceMiss s
  | .timeLowRead => Sys2Proof.Machine.execTimeLowRead s
  | .ignoredRegisterWrite r v => Sys2Proof.Machine.execIgnoredRegisterWrite r v s
  | .chainStart v => Sys2Proof.Machine.execChainStart v s
  | .returnToIdle => Sys2Proof.Machine.execReturnToIdle s
  | .abort => Sys2Proof.Machine.execAbort s
  | .engineClear => Sys2Proof.Machine.execEngineClear s
  | .refusedOrderHeadWrite v => Sys2Proof.Machine.execRefusedOrderHeadWrite v s
  | .attentionWrite v => Sys2Proof.Machine.execAttentionWrite v s
  | .attentionMaskWrite v => Sys2Proof.Machine.execAttentionMaskWrite v s
  | .orderFetch => Sys2Proof.Machine.execOrderFetch s
  | .terminationWritten => Sys2Proof.Machine.execTerminationWritten s
  | .linkRead => Sys2Proof.Machine.execLinkRead s
  | .pass => Sys2Proof.Machine.execPass s
  | .snapshot => Sys2Proof.Machine.execSnapshot s
  | .snapshotWritten => Sys2Proof.Machine.execSnapshotWritten s
  | .setReference => Sys2Proof.Machine.execSetReference s
  | .setChannel => Sys2Proof.Machine.execSetChannel s
  | .startChannel => Sys2Proof.Machine.execStartChannel s
  | .stopChannel => Sys2Proof.Machine.execStopChannel s
  | .channelEdge c => Sys2Proof.Machine.execChannelEdge c s
  | .channelArmedStart c => Sys2Proof.Machine.execChannelArmedStart c s
  | .pulseEnd c => Sys2Proof.Machine.execPulseEnd c s
  | .nextTurn => Sys2Proof.Machine.execNextTurn s
  | .setTurnEnd => Sys2Proof.Machine.execSetTurnEnd s
  | .answerWindowOpen => Sys2Proof.Machine.execAnswerWindowOpen s
  | .answerStart => Sys2Proof.Machine.execAnswerStart s
  | .answerEnd chars => Sys2Proof.Machine.execAnswerEnd chars s
  | .quietLine chars => Sys2Proof.Machine.execQuietLine chars s
  | .answerWindowClose => Sys2Proof.Machine.execAnswerWindowClose s
  | .enrol => Sys2Proof.Machine.execEnrol s
  | .setDevice => Sys2Proof.Machine.execSetDevice s
  | .release => Sys2Proof.Machine.execRelease s
  | .adopt => Sys2Proof.Machine.execAdopt s
  | .exchange => Sys2Proof.Machine.execExchange s
  | .exchangeReadDone => Sys2Proof.Machine.execExchangeReadDone s
  | .exchangeWriteDone => Sys2Proof.Machine.execExchangeWriteDone s
  | .jam => Sys2Proof.Machine.execJam s
  | .setAction => Sys2Proof.Machine.execSetAction s
  | .setTake => Sys2Proof.Machine.execSetTake s
  | .injectMark => Sys2Proof.Machine.execInjectMark s
  | .translate => Sys2Proof.Machine.execTranslate s
  | .givePages => Sys2Proof.Machine.execGivePages s
  | .flushLog => Sys2Proof.Machine.execFlushLog s
  | .pageClaim => Sys2Proof.Machine.execPageClaim s
  | .recordWritten => Sys2Proof.Machine.execRecordWritten s
  | .pageCloseDone => Sys2Proof.Machine.execPageCloseDone s
  | .oscillatorTick => Sys2Proof.Machine.execOscillatorTick s

end Sys2Proof.Machine
end

