-- ==== Sys2Proof/Machine/WordAccess.lean ====
section
/-! DEFINITION. Word by word (R170): while a memory operation is in progress, the order engine, the roster's EXCHANGE and
the page writer each make their own word accesses, and these interleave. A step on an empty queue makes one of them (log
entries 10 and 32); the row that completes an operation makes the words still open, the last one at least. -/

namespace Sys2Proof.Machine

/-- The state after one word write that an agent makes: `p` written, the agent gone on as `t` says; none when the word is
not in the window, which no run meets (R170; log entry 24). -/
def State.wordWritten (s : State) (p : Nat × Word) (t : State) : Option State :=
  if s.inWindow p.1 4 then some { t with mem := Memory.writeWord s.mem p.1 p.2 } else none

/-- The order engine goes on to a step. -/
def State.setEngineStep (s : State) (e : EngineStep) : State := { s with oe := { s.oe with step := e } }

/-- The order engine's next word access: a word of the block being fetched, a word of a SNAPSHOT's image except the last,
or a result word (R173, R175, R183). -/
def State.engineWord (s : State) : Option State :=
  match s.oe.step with
  | .fetching got =>
    (s.nextFetchAddress s.oe.block got).map
      (fun a => s.setEngineStep (.fetching (got ++ [Memory.readWord s.mem a])))
  | .imaging area (w :: next :: rest) => s.wordWritten (area, w) (s.setEngineStep (.imaging (area + 4) (next :: rest)))
  | .terminating (p :: rest) code detail => s.wordWritten p (s.setEngineStep (.terminating rest code detail))
  | .none | .taken _ | .held _ | .imaging _ _ | .waiting _ | .terminating _ _ _ | .linking _ => none

/-- The EXCHANGE's next word access: a word of the package, except the last, read or written (R113, R117). -/
def State.exchangeWord (s : State) : Option State :=
  match s.exch with
  | none => none
  | some e =>
    match e.phase with
    | .reading got =>
      if s.inWindow e.package 64 && decide (got.length < 15) then
        some
          (s.setExchange
            (some { e with phase := .reading (got ++ [Memory.readWord s.mem (e.package + 4 * got.length)]) }))
      else none
    | .writing area (w :: next :: rest) =>
      s.wordWritten (area, w) (s.setExchange (some { e with phase := .writing (area + 4) (next :: rest) }))
    | .waitService | .writing _ _ => none

/-- The page writer's next word access: a word of the record being written; the record count, written last, is left to the
row (R157, R162). A claim is one locked operation and a close one word (R160, R163). -/
def State.recordWord (s : State) : Option State :=
  match s.pw.activity, s.pw.page, s.lu.queue with
  | .writing made, some p, r :: _ =>
    match recordLeft p r made with
    | w :: _ :: _ => s.wordWritten w (s.setActivity (.writing (made + 1)))
    | _ => none
  | _, _, _ => none

/-- What one word access leads to, for each agent that has one to make (R170). -/
def State.wordAccesses (s : State) : List State :=
  s.engineWord.toList ++ s.exchangeWord.toList ++ s.recordWord.toList

/-- One word access of the memory operations in progress: whose it is when several agents have one is a free value; the
part idles when none has (R170; log entries 1 and 32). -/
def State.wordAccess (s : State) : State :=
  match s.wordAccesses with
  | [] => s
  | [t] => t
  | t :: others =>
    { (t :: others).getD (Config.freePick s.free % (others.length + 1)) t with free := s.free + 1 }

end Sys2Proof.Machine
end

