-- ==== Sys2Proof/Safety.lean ====
section
/-! DEFINITION. What a well-timed run is, and the invariants of the part that the claims use: the ranges of the time base
(R21), of the log and the page writer (R137, R149, R156, R159), of the channels (R42, R64), of the device records
(R89, R119), and of the areas of the window in use (R170). -/

namespace Sys2Proof.Machine

/-! ## Well-timed runs -/

/-- A channel has an edge, an armed start or a pulse end that is due at an ST (R45, R49, R55). -/
def Channel.due (ch : Channel) (st : Nat) : Bool :=
  (match ch.state with
    | .running => (match ch.nextEdge with | some e => decide (e ≤ st) | none => false)
    | .armed => (match ch.startSt with | some t => decide (t ≤ st) | none => false)
    | .stopped => false)
  || (match ch.pulse with | some t => decide (t ≤ st) | none => false)

/-- The link has an event that is due (R71, R73, R79, R82, R85). -/
def State.linkDue (s : State) : Bool :=
  match s.lc.phase with
  | .idle => s.nextTurnChoice.isSome
  | .gap => decide (quietTicks ≤ s.lc.timer)
  | .sendingSet => decide (setTicks ≤ s.lc.timer)
  | .sendingCall => decide (callTicks ≤ s.lc.timer)
  | .window => decide (windowTicks ≤ s.lc.timer)
  | .answering _ _ => false

/-- Something that the part does by itself at an instant or at the end of a duration is due and not yet taken. A
well-timed run sends no OSCILLATOR_TICK in such a state (log entry 3). -/
def State.due (s : State) : Bool :=
  s.tb.missDue || s.chans.toList.any (fun ch => ch.due s.tb.st) || s.linkDue

/-! ## Invariants -/

/-- The time base's items lie in their ranges, and the expected grid point is present exactly in LOCKED (R15, R21). -/
def TimeBase.WF (tb : TimeBase) : Prop :=
  tb.st < 2 ^ 64 ∧ tb.rem < 1000000000 ∧
  -20000 ≤ tb.trim ∧ tb.trim ≤ 20000 ∧ -50000 ≤ tb.slew ∧ tb.slew ≤ 50000 ∧
  tb.period.legal = true ∧ tb.phi < tb.period.floorPeriod ∧
  tb.qual ≤ 25 ∧ (tb.ref = .acquiring → tb.qual < 25) ∧
  tb.wide ≤ 3 ∧ tb.missed ≤ 3 ∧ (tb.ref = .locked → tb.missed ≤ 2) ∧
  (tb.expected.isSome = true ↔ tb.ref = .locked)

/-- Each queued record's sequence number is the one before it plus one plus its lost-before count, and the sequence counter
continues the last one by the lost-run counter, modulo 2^32 (R149, R150). -/
def LogUnit.SeqWF (lu : LogUnit) : Prop :=
  (∀ (n : Nat) (r next : TakeRecord), lu.queue[n]? = some r → lu.queue[n + 1]? = some next →
    next.seq = r.seq + 1 + next.lostBefore) ∧
  (∀ r : TakeRecord, lu.queue.getLast? = some r → lu.seq = r.seq + 1 + lu.lostRun)

/-- A take counter in range, watch lists of at most 4 distinct channels, and a record queue of at most 64 records, none
longer than 16 words, with sequence numbers that account for the lost ones (R135, R137, R149, R150, R156). -/
def LogUnit.WF (lu : LogUnit) : Prop :=
  lu.slate ≤ 9999 ∧ lu.take ≤ 999 ∧ lu.queue.length ≤ 64 ∧
  (∀ kind : Fin 16, (lu.actions.get kind).watch.length ≤ 4 ∧ (lu.actions.get kind).watch.Nodup) ∧
  (∀ r ∈ lu.queue, r.body.watch.length ≤ 4) ∧ lu.SeqWF

/-- The page stock holds at most 32 addresses, none twice, and never the address of the open page or of the page being
claimed (R159). -/
def State.StockWF (s : State) : Prop :=
  s.pw.stock.length ≤ 32 ∧ s.pw.stock.Nodup ∧ ∀ a ∈ s.pw.stock, s.pageInUse a = false

/-! ### Channels -/

/-- A channel record's optional parts agree with its state (R42, R43): a stop pending and a staged set only in RUNNING, a
start ST exactly in ARMED, both lines low or idle outside RUNNING, and a current segment in RUNNING. -/
def Channel.PartsWF (ch : Channel) : Prop :=
  (ch.stopPending = true → ch.state = .running) ∧
  (ch.staged.isSome = true → ch.state = .running) ∧
  (ch.startSt.isSome = true ↔ ch.state = .armed) ∧
  (ch.state ≠ .running → ch.pulse = none ∧ ch.tcWord = none) ∧
  (ch.state = .running → ch.cur.isSome = true)

/-- A legal label format: the drop flag may be on only with base 30 or 60 (R29). -/
def Fmt.legal (f : Fmt) : Bool := !f.drop || f.base == .b30 || f.base == .b60

/-- Settings whose rate and label format are legal and whose start label index is one of the format (R23, R29, R42). -/
def Settings.WF (set : Settings) : Prop :=
  set.rate.legal = true ∧ set.fmt.legal = true ∧ set.start < set.fmt.fday

/-- The settings and segments of a channel hold legal rates and label indices, and in RUNNING the last edge ST is the
instant of the frame index on the current segment (R23, R42, R44). -/
def Channel.WF (ch : Channel) : Prop :=
  ch.PartsWF ∧ ch.cfg.WF ∧
  (∀ set, ch.staged = some (.full set) → set.WF) ∧
  (∀ g, ch.cur = some g → g.rate.legal = true) ∧
  (∀ p, ch.prior = some p → p.seg.rate.legal = true) ∧
  (∀ g, ch.state = .running → ch.cur = some g →
    g.base ≤ ch.frame ∧ ch.lastEdge = some (g.origin + (ch.frame - g.base) * g.rate.n / g.rate.d))

/-- The number of occupied slots bound to a channel. -/
def State.boundSlots (s : State) (c : Fin 16) : Nat :=
  (List.finRange 48).countP (fun i => (s.slot i).occupied && (s.slot i).boundTo == some c)

/-- Each channel's bound count equals the number of occupied slots bound to it, and no occupied slot is bound to a SAMPLE
channel (R64). -/
def State.BoundWF (s : State) : Prop :=
  ∀ c : Fin 16, (s.chan c).bound = s.boundSlots c ∧ ((s.chan c).bound ≠ 0 → (s.chan c).kind = .picture)

/-! ### Device records -/

/-- The states a jam context can remember, and those before absence (R119, R89). -/
def DevState.rememberable (st : DevState) : Bool :=
  match st with
  | .enrolled | .settling | .locked | .drifting => true
  | .empty | .jamming | .absent => false

/-- A record's optional parts and counts agree with its state (R89, R119): a jam context exactly in JAMMING, an anchor in
SETTLING and LOCKED and none in ENROLLED, also for the state a jam remembers, a verify point only with an anchor and never
in a bound record, a label offset exactly in a bound record with an anchor, a state before absence exactly in ABSENT, itself
one of the four and with an anchor for SETTLING and LOCKED (R115, R128), and the counts in range. -/
def Device.PartsWF (d : Device) : Prop :=
  (d.jam.isSome = true ↔ d.state = .jamming) ∧
  (d.translationState = .settling ∨ d.translationState = .locked → d.anchor.isSome = true) ∧
  (d.translationState = .enrolled → d.anchor = none) ∧
  (d.verify.isSome = true → d.anchor.isSome = true ∧ d.boundTo = none) ∧
  (d.offset.isSome = true ↔ d.boundTo.isSome = true ∧ d.anchor.isSome = true) ∧
  (d.before.isSome = true ↔ d.state = .absent) ∧
  d.good ≤ 3 ∧ d.bad ≤ 2 ∧ (d.translationState = .locked → d.bad ≤ 1) ∧
  d.miss ≤ 8 ∧ (d.state ≠ .absent → d.miss ≤ 7) ∧
  (∀ j, d.jam = some j → j.remembered.rememberable = true ∧ j.retries ≤ 3 ∧ j.reports ≤ 5) ∧
  (∀ b, d.before = some b → b.rememberable = true ∧ (b = .settling ∨ b = .locked → d.anchor.isSome = true))

/-- The values of a record lie in their ranges (R89): the drift, which is 0 for a bound record (R92, R116), and in an
occupied record the link address, the rate, the label format, the window and the path delay; a SUITE never has recovery
JAM (R102), and an EMPTY record has the values of one, its hold and last result code apart (R90). -/
def Device.ValuesWF (d : Device) : Prop :=
  -100000 ≤ d.drift ∧ d.drift ≤ 100000 ∧ (d.boundTo.isSome = true → d.drift = 0) ∧
  (d.occupied = true →
    1 ≤ d.linkAddr ∧ d.linkAddr ≤ 63 ∧ d.rate.legal = true ∧ d.fmt.legal = true ∧ 1 ≤ d.window ∧
      d.window ≤ 1000000 ∧ d.pathDelay ≤ 65535 ∧ ¬(d.cls = .suite ∧ d.recovery = .jam)) ∧
  (d.occupied = false → d = { Device.emptyRecord with held := d.held, lastResult := d.lastResult }) ∧
  (∀ j, d.jam = some j → ∀ delay, j.pendingDelay = some delay → delay ≤ 65535)

/-- Every device record is well formed, and no two occupied slots hold the same link address (R89, R90). -/
def State.RosterWF (s : State) : Prop :=
  (∀ i : Fin 48, (s.slot i).PartsWF ∧ (s.slot i).ValuesWF) ∧
  ∀ i j : Fin 48, (s.slot i).occupied = true → (s.slot j).occupied = true →
    (s.slot i).linkAddr = (s.slot j).linkAddr → i = j

/-- Each slot appears in the urgent queue at most once, and only a JAMMING slot appears there (R81, R83, R128). -/
def State.UrgentWF (s : State) : Prop :=
  s.lc.urgent.Nodup ∧ ∀ i ∈ s.lc.urgent, (s.slot i).state = .jamming

/-! ### The areas of the window in use -/

/-- An area of a log page's size at an address that can be a page's (R156). -/
def State.isPage (s : State) (a : Nat) : Bool := a != 0 && a % 1024 == 0 && s.inWindow a 1024

/-- The areas that an order engine step uses lie in the window: the header of the block in hand, the result words of a
TRANSLATE, and what is left of the image area of a SNAPSHOT (R173, R182). -/
def State.EngineAreasWF (s : State) : Prop :=
  match s.oe.step with
  | .none | .fetching _ => True
  | .taken o | .held o => s.inWindow s.oe.block 16 = true ∧ s.inWindow (s.oe.block + 16) (4 * o.kind.paramWords) = true
  | .imaging area image =>
    s.inWindow s.oe.block 24 = true ∧ s.inWindow area (4 * image.length) = true ∧ 1 ≤ image.length
  | .waiting _ | .linking _ => s.inWindow s.oe.block 16 = true
  | .terminating results _ _ =>
    s.inWindow s.oe.block 16 = true ∧ ∀ p ∈ results, s.inWindow p.1 4 = true

/-- The package of an EXCHANGE in progress lies in the window, and so does what is left of the outgoing image (R112). -/
def State.ExchangeAreasWF (s : State) : Prop :=
  ∀ e, s.exch = some e →
    s.inWindow e.package 64 = true ∧
      (∀ got, e.phase = .reading got → got.length ≤ 15) ∧
      (∀ area image, e.phase = .writing area image → s.inWindow area (4 * image.length) = true ∧ 1 ≤ image.length)

/-- The pages of the page writer lie in the window, the open page's counts fit it, and the activity agrees with the page,
the stock and the queue: IDLE only with an empty queue, a claim or STARVED only with records waiting and no page open,
STARVED with an empty stock, a record being written that fits the open page, a close only of an open page (R156, R158). -/
def State.PageAreasWF (s : State) : Prop :=
  (∀ a ∈ s.pw.stock, s.isPage a = true) ∧
  (∀ p, s.pw.page = some p → s.isPage p.addr = true ∧ p.used ≤ 252 ∧ 8 * p.records ≤ p.used) ∧
  match s.pw.activity with
  | .idle => s.lu.queue = []
  | .claiming a _ => s.isPage a = true ∧ s.pw.page = none ∧ s.lu.queue ≠ []
  | .writing made => ∃ p r rest, s.pw.page = some p ∧ s.lu.queue = r :: rest ∧ p.fits r = true ∧ made ≤ r.length
  | .closing _ _ => s.pw.page.isSome = true
  | .starved => s.pw.page = none ∧ s.pw.stock = [] ∧ s.lu.queue ≠ []

/-- Every area of the window that the part has in hand lies in it (R170). -/
def State.AreasWF (s : State) : Prop := s.EngineAreasWF ∧ s.ExchangeAreasWF ∧ s.PageAreasWF

/-- The engine has a step only while a chain is RUNNING (R176), and an order that an owner keeps is the one the engine
waits for (R174): an EXCHANGE in progress that engine clear has not dropped, a jam whose waiting is on, and a flush set that
is noted. -/
def State.KeptWF (s : State) : Prop :=
  (s.oe.chain ≠ .running → s.oe.step = .none) ∧
  (∀ e, s.exch = some e → e.dropped = false → s.oe.step = .waiting .exchange) ∧
  (∀ i j, (s.slot i).jam = some j → j.waiting = true → s.oe.step = .waiting (.jam i)) ∧
  (s.pw.flush.isSome = true → s.oe.step = .waiting .flushLog)

end Sys2Proof.Machine
end

