-- ==== Sys2Proof/Certificates/Slice0/Obligations.lean ====
section
/-! DEFINITION. The statements for the provers, one definition each. Where a statement names an operation of the model
(State.sysEvent, State.choose, State.endTurn and the like), that operation has a statement of its own here. -/

open Sys2Proof Sys2Proof.Machine

/-- For every command, every state and every rest of the queue, the step of the state whose queue is that command followed
by the rest is exec of the command on the state with the rest as its queue. On an empty queue the order engine, the
EXCHANGE and the page writer go on word by word, which is the model's form, with the order of an operation's words
where the spec gives none (log entries 1, 10 and 33): with no word access to make the state stays as it is, with one
it is made, and of several one is made, which one being a free value (log entry 32). The engine's is the next word of
a fetch (kind word, then parameter words that fit the window), the next word of an image but its last, or the next
result word; the EXCHANGE's a word read from the package, or written to it, but the last; the page writer's the next
word of the record being written but the record count. Each changes that one word, or none, and the operation's
progress, and nothing else. A word is four bytes, the least significant at its address, and a write of one changes
those four alone. -/
def Obligations.StepRunsFrontCommand : Prop :=
  (∀ (c : Instr) (s : State) (rest : List Instr),
    step { s with pending := c :: rest } = exec c { s with pending := rest }) ∧
  (∀ s : State, s.pending = [] →
    (s.wordAccesses = [] → step s = .next s) ∧
    (∀ t, s.wordAccesses = [t] → step s = .next t) ∧
    (2 ≤ s.wordAccesses.length → ∃ t ∈ s.wordAccesses, step s = .next { t with free := s.free + 1 })) ∧
  (∀ s t : State, t ∈ s.wordAccesses ↔ s.engineWord = some t ∨ s.exchangeWord = some t ∨ s.recordWord = some t) ∧
  (∀ (s : State) (got : List Word), s.oe.step = .fetching got →
    let b := s.oe.block
    let go (a : Nat) : State :=
      { s with oe := { s.oe with step := .fetching (got ++ [Memory.readWord s.mem a]) } }
    (b = 0 ∨ b % 4 ≠ 0 ∨ s.windowSize < b + 16 → s.engineWord = none) ∧
    (b ≠ 0 → b % 4 = 0 → b + 16 ≤ s.windowSize →
      (got = [] → s.engineWord = some (go b)) ∧
      (∀ (w : Word) (params : List Word), got = w :: params →
        (orderKindOfCode (w.toNat % 256) = none → s.engineWord = none) ∧
        (∀ k : OrderKind, orderKindOfCode (w.toNat % 256) = some k →
          let count := (params.getD 0 0).toNat
          let n := if k = .givePages ∧ params ≠ [] ∧ 1 ≤ count ∧ count ≤ 32 then 1 + count else k.paramWords
          (b + 16 + 4 * n ≤ s.windowSize → params.length < n →
            s.engineWord = some (go (b + 16 + 4 * params.length))) ∧
          (s.windowSize < b + 16 + 4 * n ∨ n ≤ params.length → s.engineWord = none))))) ∧
  (∀ (s : State) (a : Nat) (w next : Word) (rest : List Word), a + 4 ≤ s.windowSize →
    (s.oe.step = .imaging a (w :: next :: rest) →
      s.engineWord =
        some { s with mem := Memory.writeWord s.mem a w
                      oe := { s.oe with step := .imaging (a + 4) (next :: rest) } }) ∧
    (s.oe.step = .imaging a [w] → s.engineWord = none) ∧
    (∀ (results : List (Nat × Word)) (code : Result) (detail : Nat),
      s.oe.step = .terminating ((a, w) :: results) code detail →
      s.engineWord =
        some { s with mem := Memory.writeWord s.mem a w
                      oe := { s.oe with step := .terminating results code detail } }) ∧
    (∀ e : Exchange, s.exch = some e →
      (e.phase = .writing a (w :: next :: rest) →
        s.exchangeWord =
          some { s with mem := Memory.writeWord s.mem a w
                        exch := some { e with phase := .writing (a + 4) (next :: rest) } }) ∧
      (e.phase = .writing a [w] → s.exchangeWord = none))) ∧
  (∀ (s : State) (e : Exchange) (got : List Word), s.exch = some e → e.phase = .reading got →
    e.package + 64 ≤ s.windowSize →
    (got.length < 15 →
      s.exchangeWord =
        some { s with exch := some { e with
                        phase := .reading (got ++ [Memory.readWord s.mem (e.package + 4 * got.length)]) } }) ∧
    (15 ≤ got.length → s.exchangeWord = none)) ∧
  (∀ (s : State) (p : OpenPage) (r : TakeRecord) (rest : List TakeRecord) (made : Nat), s.pw.activity = .writing made →
    s.pw.page = some p → s.lu.queue = r :: rest → p.addr + 16 + 4 * (p.used + r.length) ≤ s.windowSize →
    (made < r.length →
      s.recordWord =
        some { s with mem := Memory.writeWord s.mem (p.addr + 16 + 4 * (p.used + made)) (r.words.getD made 0)
                      pw := { s.pw with activity := .writing (made + 1) } }) ∧
    (r.length ≤ made → s.recordWord = none)) ∧
  (∀ (m : List Host.Cell) (a : Nat),
    (Memory.readWord m a).toNat =
      (Memory.read m a).toNat + 2 ^ 8 * (Memory.read m (a + 1)).toNat + 2 ^ 16 * (Memory.read m (a + 2)).toNat +
        2 ^ 24 * (Memory.read m (a + 3)).toNat) ∧
  (∀ (m : List Host.Cell) (a : Nat) (w : Word), Memory.wf m = true →
    (∀ k < 4, (Memory.read (Memory.writeWord m a w) (a + k)).toNat = w.toNat / 2 ^ (8 * k) % 2 ^ 8) ∧
    (∀ x : Nat, x < a ∨ a + 4 ≤ x → Memory.read (Memory.writeWord m a w) x = Memory.read m x))

/-- The state after reset: the time base with ST, remainder, trim, slew, counts, G and latch 0, period 1,080,000/1, phase
offset 0, state FREE and no stamp or expected point; every channel STOPPED at 1,080,000/1, 25 non-drop, with nothing
staged, no segment, no last edge or start ST and bound count 0, its lines low; every slot an EMPTY record with window
13,500 and no last result; no exchange; the link idle with an empty urgent queue, rotation position 47 and both
counters 0; every action disabled and empty, counter 0/0, an empty queue and all log counts 0; the page writer IDLE
with no page, no stock, no flush set and its counters 0; the engine IDLE with head 0, no block, no order, no cause and
mask 0, so that the interrupt line is released. -/
def Obligations.ResetValues : Prop :=
  (State.reset.tb.st = 0 ∧ State.reset.tb.rem = 0 ∧ State.reset.tb.trim = 0 ∧ State.reset.tb.slew = 0 ∧
    State.reset.tb.period = ⟨1080000, 1⟩ ∧ State.reset.tb.phi = 0 ∧ State.reset.tb.ref = .free ∧
    State.reset.tb.qual = 0 ∧ State.reset.tb.prevEdge = none ∧ State.reset.tb.expected = none ∧
    State.reset.tb.wide = 0 ∧ State.reset.tb.missed = 0 ∧ State.reset.tb.gen = 0 ∧
    State.reset.tb.timeHigh = 0) ∧
  (∀ c : Fin 16, (State.reset.chan c).kind = .picture ∧ (State.reset.chan c).state = .stopped ∧
    (State.reset.chan c).stopPending = false ∧
    (State.reset.chan c).cfg = ⟨⟨1080000, 1⟩, 0, ⟨.b25, false⟩, 0, false, 0, false⟩ ∧
    (State.reset.chan c).staged = none ∧ (State.reset.chan c).cur = none ∧ (State.reset.chan c).prior = none ∧
    (State.reset.chan c).frame = 0 ∧ (State.reset.chan c).lastEdge = none ∧
    (State.reset.chan c).startSt = none ∧ (State.reset.chan c).bound = 0 ∧
    State.reset.pulseLine c = false ∧ State.reset.timecodeLine c = false) ∧
  (∀ i : Fin 48, (State.reset.slot i).state = .empty ∧ (State.reset.slot i).held = false ∧
    (State.reset.slot i).boundTo = none ∧ (State.reset.slot i).offset = none ∧
    (State.reset.slot i).pathDelay = 0 ∧ (State.reset.slot i).window = 13500 ∧
    (State.reset.slot i).recovery = .noRecovery ∧ (State.reset.slot i).jamSource = none ∧
    (State.reset.slot i).protectedFlag = false ∧ (State.reset.slot i).dualTrack = false ∧
    (State.reset.slot i).anchor = none ∧ (State.reset.slot i).verify = none ∧ (State.reset.slot i).drift = 0 ∧
    (State.reset.slot i).driftClamped = false ∧ (State.reset.slot i).good = 0 ∧ (State.reset.slot i).bad = 0 ∧
    (State.reset.slot i).miss = 0 ∧ (State.reset.slot i).before = none ∧ (State.reset.slot i).jam = none ∧
    (State.reset.slot i).lastResult = none ∧ (State.reset.slot i).marksLogged = 0) ∧
  State.reset.exch = none ∧
  (State.reset.lc.urgent = [] ∧ State.reset.lc.rotation = 47 ∧ State.reset.lc.lastUrgent = false ∧
    State.reset.lc.turn = none ∧ State.reset.lc.phase = .idle ∧ State.reset.driverEnabled = false ∧
    State.reset.lc.garbled = 0 ∧ State.reset.lc.unknown = 0) ∧
  ((∀ k : Fin 16, State.reset.lu.actions.get k = ⟨false, 0, .none, [], false⟩) ∧ State.reset.lu.slate = 0 ∧
    State.reset.lu.take = 0 ∧ State.reset.lu.queue = [] ∧ State.reset.lu.seq = 0 ∧
    State.reset.lu.lostRun = 0 ∧ State.reset.lu.lostTotal = 0 ∧ State.reset.lu.discarded = 0) ∧
  State.reset.pw = ⟨.idle, none, [], none, 0, 0⟩ ∧
  (State.reset.oe = ⟨.idle, 0, 0, .none, false, 0, 0⟩ ∧ State.reset.interruptLine = false)

/-- From every state whose memory operations in progress lie in the window, RESET answers a next state that is the reset
state but for the straps, which are those sampled, the memory, the model's free-value counter and the queue. Every
byte of memory outside the words that a memory operation in progress may still write reads as before, and all of
memory is unchanged when no operation is in progress (engine with no step, no exchange, page writer IDLE). That the
words cut off hold a free number of words made is the model's form (log entries 14 and 15). Those words are: the
termination word (of a fetch past the header test, an order not yet handed, a termination), the result words still
open, what is left of an image; of an EXCHANGE what is left of the outgoing package; of the page writer the four
header words of a claim, what is left of the record with its record count, or the state word of a close. The straps as
sampled set the window's size: both low 1 MiB, the first alone high 2, the second alone high 4, both high 8. -/
def Obligations.ResetCommand : Prop :=
  (∀ (s : State) (a b : Bool),
    (∀ p ∈ s.resetEngineWrites ++ s.resetExchangeWrites ++ s.resetPageWrites, p.1 + 4 ≤ s.windowSize) →
    ∃ t : State, exec (.reset a b) s = .next t ∧
      t = { State.reset with mem := t.mem, straps := (a, b), free := t.free, pending := s.pending } ∧
      ∀ x : Nat,
        (∀ p ∈ s.resetEngineWrites ++ s.resetExchangeWrites ++ s.resetPageWrites, ∀ i < 4, x ≠ p.1 + i) →
        Memory.read t.mem x = Memory.read s.mem x) ∧
  (∀ (s : State) (a b : Bool), s.oe.step = .none → s.exch = none → s.pw.activity = .idle →
    exec (.reset a b) s =
      .next { State.reset with mem := s.mem, straps := (a, b), free := s.free, pending := s.pending }) ∧
  (∀ s : State,
    (s.oe.step = .fetching [] → s.resetEngineWrites = []) ∧
    (∀ p ∈ s.resetEngineWrites,
      (p.1 = s.oe.block + 12 ∧
        ((∃ got, s.oe.step = .fetching got) ∨ (∃ o, s.oe.step = .taken o) ∨
          ∃ results code n, s.oe.step = .terminating results code n)) ∨
      (∃ results code n, s.oe.step = .terminating results code n ∧ p ∈ results) ∨
      (∃ a image, s.oe.step = .imaging a image ∧ ∃ k < image.length, p.1 = a + 4 * k)) ∧
    (∀ p ∈ s.resetExchangeWrites,
      ∃ e a image, s.exch = some e ∧ e.phase = .writing a image ∧ ∃ k < image.length, p.1 = a + 4 * k) ∧
    (∀ p ∈ s.resetPageWrites,
      (∃ a cleared, s.pw.activity = .claiming a cleared ∧ Memory.readWord s.mem a = 0 ∧ ∃ k < 4, p.1 = a + 4 * k) ∨
      (∃ made q r rest, s.pw.activity = .writing made ∧ s.pw.page = some q ∧ s.lu.queue = r :: rest ∧
        (p.1 = q.addr + 8 ∨ ∃ k < r.length, made ≤ k ∧ p.1 = q.addr + 16 + 4 * (q.used + k))) ∨
      (∃ why cleared q, s.pw.activity = .closing why cleared ∧ s.pw.page = some q ∧ p.1 = q.addr))) ∧
  (∀ s : State,
    (s.straps = (false, false) → s.windowSize = 2 ^ 20) ∧ (s.straps = (true, false) → s.windowSize = 2 ^ 21) ∧
    (s.straps = (false, true) → s.windowSize = 2 ^ 22) ∧ (s.straps = (true, true) → s.windowSize = 2 ^ 23))

/-- The state after reset has a memory in canonical form, a time base, log unit, page stock, channels, bound counts,
device records and urgent queue that are well formed, and areas and kept orders that agree with it. -/
def Obligations.ResetMeetsTheInvariants : Prop :=
  Memory.wf State.reset.mem = true ∧ State.reset.tb.WF ∧ State.reset.lu.WF ∧ State.reset.StockWF ∧
  (∀ c : Fin 16, (State.reset.chan c).WF) ∧ State.reset.BoundWF ∧ State.reset.RosterWF ∧ State.reset.UrgentWF ∧
  State.reset.AreasWF ∧ State.reset.KeptWF

/-- From every state in which the exact sum of ST, the remainder (in units of 1/10^9 tick) and 10^9 + T + S is not
negative and its whole part is below 2^64, OSCILLATOR_TICK answers the state whose ST is the whole part of that sum
and whose remainder is what lies below, with the link's own count of oscillator ticks raised by one unless the link is
idle, and nothing else changed. With T and S 0 and the remainder below one tick, ST rises by exactly 1. That one
command is one oscillator tick, and that the link's ticks are counted in State, is the model's form (log entries 3 and
4). -/
def Obligations.OscillatorTick : Prop :=
  (∀ s : State,
    let sum : Int := (s.tb.st : Int) * 1000000000 + s.tb.rem + (1000000000 + s.tb.trim + s.tb.slew)
    0 ≤ sum → sum / 1000000000 < 2 ^ 64 →
    exec .oscillatorTick s =
      .next
        { s with
          tb := { s.tb with st := (sum / 1000000000).toNat, rem := (sum % 1000000000).toNat }
          lc := { s.lc with timer := if s.lc.phase = .idle then s.lc.timer else s.lc.timer + 1 } }) ∧
  (∀ s t : State, s.tb.trim = 0 → s.tb.slew = 0 → s.tb.rem < 1000000000 → s.tb.st + 1 < 2 ^ 64 →
    exec .oscillatorTick s = .next t → t.tb.st = s.tb.st + 1 ∧ t.tb.rem = s.tb.rem)

/-- From every state with a well-formed time base and ST below 2^63, every command but RESET that answers a next state
leaves ST at least as large. Only OSCILLATOR_TICK and REFERENCE_EDGE can change ST; a tick moves it by at most two (R1
and R45 let ST step past a value) and leaves G as it is. G changes only in a REFERENCE_EDGE, by one modulo 65,536, and
when a REFERENCE_EDGE changes ST, the jump is forward and at most one grid step, floor(Nr/Dr) + 1 ticks, and G rises
by one. -/
def Obligations.StudioTimeNeverDecreases : Prop :=
  ∀ (c : Instr) (s t : State), (∀ a b, c ≠ .reset a b) → s.tb.WF → s.tb.st < 2 ^ 63 → exec c s = .next t →
    s.tb.st ≤ t.tb.st ∧
    (c = .oscillatorTick → t.tb.st ≤ s.tb.st + 2 ∧ t.tb.gen = s.tb.gen) ∧
    (c ≠ .oscillatorTick → c ≠ .referenceEdge → t.tb.st = s.tb.st ∧ t.tb.gen = s.tb.gen) ∧
    (c = .referenceEdge →
      (t.tb.st = s.tb.st ∧ t.tb.gen = s.tb.gen) ∨
      (s.tb.st < t.tb.st ∧ t.tb.st ≤ s.tb.st + s.tb.period.n / s.tb.period.d + 1 ∧ t.tb.gen = s.tb.gen + 1))

/-- TIME_LOW_READ returns the low 32 bits of ST and copies its high 32 bits into the latch, changing nothing else. A write
to either time register changes nothing at all. A read of TIME HIGH returns the latch, which is 0 at reset. Every
command that answers a next state, engine clear and the forward step of a reference edge among them, leaves what TIME
HIGH returns as it was, apart from TIME_LOW_READ and RESET, and after RESET it is 0. -/
def Obligations.TimeRegisters : Prop :=
  (∀ s : State,
    exec .timeLowRead s =
      .next { s with readData := BitVec.ofNat 32 s.tb.st,
                     tb := { s.tb with timeHigh := BitVec.ofNat 32 (s.tb.st / 2 ^ 32) } }) ∧
  (∀ (r : TimeRegister) (v : Word) (s : State), exec (.ignoredRegisterWrite r v) s = .next s) ∧
  (∀ s : State, s.timeHighRead = s.tb.timeHigh) ∧
  State.reset.timeHighRead = 0 ∧
  (∀ (a b : Bool) (s t : State), exec (.reset a b) s = .next t → t.timeHighRead = 0) ∧
  (∀ (c : Instr) (s t : State), c ≠ .timeLowRead → (∀ a b, c ≠ .reset a b) → exec c s = .next t →
    t.timeHighRead = s.timeHighRead)

/-- A reference edge answers a next state. In FREE it changes nothing. In HOLDOVER it enters ACQUIRING with itself as the
first edge: counts 0, S 0, no expected point, the edge's stamp (ST) the previous-edge stamp; REFERENCE is raised and a
REFERENCE STATE event is sent. In ACQUIRING with no previous stamp it only becomes the previous stamp, with the count
0; with one, an interval I with |I·Dr − Nr| at most 2,700·Dr raises the count by 1 (below 25), and any other sets it
to 0, the stamp becoming the previous stamp either way. In LOCKED an edge stamped before P − H, a stray edge, changes
nothing. Trim is held throughout. In LOCKED with expected point P and ST past P + H, a miss answers the state with S
0, the consecutive-miss count raised by 1 and P at the next grid point, T and the wide count held. When the count
stood at 2, the time base enters HOLDOVER with the count 3 and no expected point, REFERENCE is raised and the change
from LOCKED is recorded. Before ST has passed P + H, or in any other state, no miss is due and the command changes
nothing (that a command whose event is not due has no effect is the model's choice, log entry 2). -/
def Obligations.ReferenceEdgesAndMisses : Prop :=
  (∀ s : State, s.tb.ref = .free → exec .referenceEdge s = .next s) ∧
  (∀ s : State, s.tb.ref = .holdover →
    exec .referenceEdge s =
      .next (State.sysEvent (.referenceState .acquiring .holdover) (State.raise
        { s with tb := { s.tb with ref := .acquiring, qual := 0, prevEdge := some s.tb.st, slew := 0, wide := 0,
                                   missed := 0, expected := none } } .reference))) ∧
  (∀ s : State, s.tb.ref = .acquiring → s.tb.prevEdge = none →
    exec .referenceEdge s = .next { s with tb := { s.tb with qual := 0, prevEdge := some s.tb.st } }) ∧
  (∀ (s : State) (prev : Nat), s.tb.ref = .acquiring → s.tb.prevEdge = some prev → s.tb.qual < 24 →
    (((s.tb.st : Int) - prev) * s.tb.period.d - s.tb.period.n).natAbs ≤ 2700 * s.tb.period.d →
    exec .referenceEdge s =
      .next { s with tb := { s.tb with qual := s.tb.qual + 1, prevEdge := some s.tb.st } }) ∧
  (∀ (s : State) (prev : Nat), s.tb.ref = .acquiring → s.tb.prevEdge = some prev →
    2700 * s.tb.period.d < (((s.tb.st : Int) - prev) * s.tb.period.d - s.tb.period.n).natAbs →
    exec .referenceEdge s = .next { s with tb := { s.tb with qual := 0, prevEdge := some s.tb.st } }) ∧
  (∀ (s : State) (p : Nat), s.tb.ref = .locked → s.tb.expected = some p →
    (s.tb.st : Int) < (p : Int) - s.tb.half → exec .referenceEdge s = .next s) ∧
  (∀ (s : State) (p : Nat), s.tb.ref = .locked → s.tb.expected = some p → p + s.tb.half < s.tb.st →
    s.tb.missed < 2 →
    exec .referenceMiss s =
      .next { s with tb := { s.tb with slew := 0, missed := s.tb.missed + 1,
                                       expected := some (s.tb.gridAfter p) } }) ∧
  (∀ (s : State) (p : Nat), s.tb.ref = .locked → s.tb.expected = some p → p + s.tb.half < s.tb.st →
    s.tb.missed = 2 →
    exec .referenceMiss s =
      .next (State.sysEvent (.referenceState .holdover .locked) (State.raise
        { s with tb := { s.tb with slew := 0, missed := 3, ref := .holdover, expected := none } } .reference))) ∧
  (∀ s : State, (s.tb.ref ≠ .locked ∨ ∃ p, s.tb.expected = some p ∧ s.tb.st ≤ p + s.tb.half) →
    exec .referenceMiss s = .next s)

/-- In LOCKED with expected point P and ST from P − H to P + H, let e be ST − P. When |e| is at most 1,350 the edge
answers the state with trim T − trunc(e·10^9/(16·floor(Nr/Dr))) clamped to ±20,000, slew −trunc(e·10^9/floor(Nr/Dr))
clamped to ±50,000, both consecutive counts 0 and P advanced to the next grid point. When |e| is above 1,350 (also
past the measurement clamp of ±2,047), the slew becomes 0, the miss count 0, P advances and the wide count rises by 1;
when it stood at 2, the edge enters ACQUIRING instead, as its first edge, with counts 0 and no expected point,
REFERENCE is raised and the change from LOCKED is recorded. Nothing else changes. -/
def Obligations.MatchedReferenceEdge : Prop :=
  (∀ (s : State) (p : Nat), s.tb.ref = .locked → s.tb.expected = some p →
    (p : Int) - s.tb.half ≤ s.tb.st → s.tb.st ≤ p + s.tb.half → ((s.tb.st : Int) - p).natAbs ≤ 1350 →
    let e : Int := (s.tb.st : Int) - p
    let f : Int := ((s.tb.period.n / s.tb.period.d : Nat) : Int)
    exec .referenceEdge s =
      .next
        { s with
          tb :=
            { s.tb with
              trim := max (-20000) (min 20000 (s.tb.trim - (e * 1000000000).tdiv (16 * f)))
              slew := max (-50000) (min 50000 (-((e * 1000000000).tdiv f)))
              wide := 0, missed := 0, expected := some (s.tb.gridAfter p) } }) ∧
  (∀ (s : State) (p : Nat), s.tb.ref = .locked → s.tb.expected = some p →
    (p : Int) - s.tb.half ≤ s.tb.st → s.tb.st ≤ p + s.tb.half → 1350 < ((s.tb.st : Int) - p).natAbs →
    s.tb.wide < 2 →
    exec .referenceEdge s =
      .next { s with tb := { s.tb with wide := s.tb.wide + 1, slew := 0, missed := 0,
                                       expected := some (s.tb.gridAfter p) } }) ∧
  (∀ (s : State) (p : Nat), s.tb.ref = .locked → s.tb.expected = some p →
    (p : Int) - s.tb.half ≤ s.tb.st → s.tb.st ≤ p + s.tb.half → 1350 < ((s.tb.st : Int) - p).natAbs →
    s.tb.wide = 2 →
    exec .referenceEdge s =
      .next (State.sysEvent (.referenceState .acquiring .locked) (State.raise
        { s with tb := { s.tb with ref := .acquiring, qual := 0, prevEdge := some s.tb.st, slew := 0, wide := 0,
                                   missed := 0, expected := none } } .reference)))

/-- In ACQUIRING with the count at 24 and an interval that qualifies, let g be the first grid point at or after ST and g′
the last one at or before it (absent when ST is before the phase offset). When ST lies within 1,350 ticks of g or of
g′, the edge enters LOCKED with the expected point after the nearer of the two, g′ when they are equally near, ST and
G unchanged, the counts 25, 0 and 0; REFERENCE is raised and the change is recorded. Otherwise, with no channel event
due at ST and g below 2^64, ST becomes g, the remainder 0, G rises by 1, the expected point is the one after g, and
the blocks are told in this order: a TIME STEP record of size g − ST, the channel array's step, the roster's step, and
then REFERENCE and the REFERENCE STATE record. A channel event is due at an instant when the next edge of a RUNNING
channel, the start ST of an ARMED one, or the end of a pulse lies at or before it. -/
def Obligations.Alignment : Prop :=
  (∀ (s : State) (prev : Nat), s.tb.ref = .acquiring → s.tb.prevEdge = some prev → s.tb.qual = 24 →
    (((s.tb.st : Int) - prev) * s.tb.period.d - s.tb.period.n).natAbs ≤ 2700 * s.tb.period.d →
    s.tb.phi ≤ s.tb.st →
    s.tb.gridFrom s.tb.st - s.tb.st ≤ 1350 ∨ s.tb.st - s.tb.gridAt s.tb.st ≤ 1350 →
    exec .referenceEdge s =
      .next (State.sysEvent (.referenceState .locked .acquiring) (State.raise
        { s with
          tb :=
            { s.tb with
              ref := .locked, qual := 25, prevEdge := some s.tb.st, wide := 0, missed := 0
              expected :=
                some (s.tb.gridAfter
                  (if s.tb.st - s.tb.gridAt s.tb.st ≤ s.tb.gridFrom s.tb.st - s.tb.st then s.tb.gridAt s.tb.st
                   else s.tb.gridFrom s.tb.st)) } } .reference))) ∧
  (∀ (s : State) (prev : Nat), s.tb.ref = .acquiring → s.tb.prevEdge = some prev → s.tb.qual = 24 →
    (((s.tb.st : Int) - prev) * s.tb.period.d - s.tb.period.n).natAbs ≤ 2700 * s.tb.period.d →
    s.tb.st < s.tb.phi → s.tb.phi - s.tb.st ≤ 1350 →
    exec .referenceEdge s =
      .next (State.sysEvent (.referenceState .locked .acquiring) (State.raise
        { s with
          tb :=
            { s.tb with
              ref := .locked, qual := 25, prevEdge := some s.tb.st, wide := 0, missed := 0
              expected := some (s.tb.gridAfter s.tb.phi) } } .reference))) ∧
  (∀ (s : State) (prev : Nat), s.tb.ref = .acquiring → s.tb.prevEdge = some prev → s.tb.qual = 24 →
    (((s.tb.st : Int) - prev) * s.tb.period.d - s.tb.period.n).natAbs ≤ 2700 * s.tb.period.d →
    1350 < s.tb.gridFrom s.tb.st - s.tb.st →
    (s.tb.phi ≤ s.tb.st → 1350 < s.tb.st - s.tb.gridAt s.tb.st) →
    (∀ c : Fin 16, (s.chan c).due s.tb.st = false) → s.tb.gridFrom s.tb.st < 2 ^ 64 →
    let g := s.tb.gridFrom s.tb.st
    exec .referenceEdge s =
      .next (State.sysEvent (.referenceState .locked .acquiring) (State.raise
        (State.rosterStep
          (State.channelsStep
            (State.sysEvent (.timeStep (g - s.tb.st))
              { s with
                tb :=
                  { s.tb with
                    st := g, rem := 0, gen := s.tb.gen + 1, ref := .locked, qual := 25
                    prevEdge := some s.tb.st, wide := 0, missed := 0, expected := some (s.tb.gridAfter g) } })
            s.tb.st g)
          (g - s.tb.st))
        .reference))) ∧
  (∀ (ch : Channel) (t : Nat),
    ch.due t = true ↔
      (ch.state = .running ∧ ∃ g, ch.cur = some g ∧ (g.instant ((ch.frame : Int) + 1)).toNat ≤ t) ∨
      (ch.state = .armed ∧ ∃ start, ch.startSt = some start ∧ start ≤ t) ∨ (∃ e, ch.pulse = some e ∧ e ≤ t))

/-- With a SET REFERENCE in hand, let Nr, Dr and φ be its parameter words and bit 0 of its first word the enable. When Nr,
Dr or φ fails a check of R17 (the two examples of that rule among them), the order terminates REFUSED RANGE and
nothing else changes. Otherwise it terminates DONE. With the enable off the settings are stored, the state becomes
FREE, S 0, the expected point absent and the counts and T stay; from a state other than FREE this is a state change.
With the enable on in LOCKED and settings equal as numbers nothing else changes. In every other case with the enable
on the settings are stored and ACQUIRING is entered, with counts 0, S 0 and no stamp or expected point, and this is a
state change: REFERENCE is raised and the change is recorded. -/
def Obligations.SetReference : Prop :=
  (∀ (s : State) (o : Order), s.oe.step = .taken o → o.kind = .setReference →
    ¬(1 ≤ (o.p 1).toNat ∧ (o.p 1).toNat ≤ 16777215 ∧ 1 ≤ (o.p 2).toNat ∧ (o.p 2).toNat ≤ 65535 ∧
      128 * (o.p 2).toNat ≤ (o.p 1).toNat ∧ (o.p 3).toNat < (o.p 1).toNat / (o.p 2).toNat) →
    exec .setReference s = .next { s with oe := { s.oe with step := .terminating [] .refusedRange 0 } }) ∧
  (∀ (s : State) (o : Order), s.oe.step = .taken o → o.kind = .setReference →
    ((o.p 1 = 100 ∧ o.p 2 = 1) ∨ (o.p 1 = 1080000 ∧ o.p 2 = 1 ∧ o.p 3 = 1080000)) →
    exec .setReference s = .next { s with oe := { s.oe with step := .terminating [] .refusedRange 0 } }) ∧
  (∀ (s : State) (o : Order), s.oe.step = .taken o → o.kind = .setReference →
    (1 ≤ (o.p 1).toNat ∧ (o.p 1).toNat ≤ 16777215 ∧ 1 ≤ (o.p 2).toNat ∧ (o.p 2).toNat ≤ 65535 ∧
      128 * (o.p 2).toNat ≤ (o.p 1).toNat ∧ (o.p 3).toNat < (o.p 1).toNat / (o.p 2).toNat) →
    let set : TimeBase :=
      { s.tb with period := ⟨(o.p 1).toNat, (o.p 2).toNat⟩, phi := (o.p 3).toNat }
    ((o.p 0).toNat % 2 = 0 → s.tb.ref = .free →
      exec .setReference s =
        .next { s with tb := { set with slew := 0, expected := none }
                       oe := { s.oe with step := .terminating [] .done 0 } }) ∧
    ((o.p 0).toNat % 2 = 0 → s.tb.ref ≠ .free →
      exec .setReference s =
        .next (State.report (State.sysEvent (.referenceState .free s.tb.ref) (State.raise
          { s with tb := { set with ref := .free, slew := 0, expected := none } } .reference)) .done)) ∧
    ((o.p 0).toNat % 2 = 1 →
      (s.tb.ref = .locked ∧ s.tb.period = ⟨(o.p 1).toNat, (o.p 2).toNat⟩ ∧ s.tb.phi = (o.p 3).toNat) →
      exec .setReference s = .next { s with oe := { s.oe with step := .terminating [] .done 0 } }) ∧
    ((o.p 0).toNat % 2 = 1 →
      ¬(s.tb.ref = .locked ∧ s.tb.period = ⟨(o.p 1).toNat, (o.p 2).toNat⟩ ∧ s.tb.phi = (o.p 3).toNat) →
      exec .setReference s =
        .next (State.report (State.sysEvent (.referenceState .acquiring s.tb.ref) (State.raise
          { s with tb := { set with ref := .acquiring, qual := 0, prevEdge := none, slew := 0, wide := 0,
                                    missed := 0, expected := none } } .reference)) .done)))

/-- Every step that answers a next state keeps these: ST below 2^64, the remainder below one tick, trim within ±20,000 and
slew within ±50,000, a legal reference period and a phase offset below its floor, the qualification count at most 25
and below 25 in ACQUIRING, the consecutive-wide and consecutive-miss counts at most 3 and the latter at most 2 in
LOCKED, and an expected grid point present exactly in LOCKED. -/
def Obligations.TimeBaseInvariant : Prop :=
  ∀ s t : State, s.tb.WF → step s = .next t → t.tb.WF

/-- For every command that answers a next state and is not RESET: the reference period and phase offset are unchanged
unless it is SET_REFERENCE, the attention mask unless it is ATTENTION_MASK_WRITE, the action table unless it is
SET_ACTION, the sampled straps in every case, and the value of the last register read (the model's own field, log
entry 8) unless it is TIME_LOW_READ. The queue of waiting commands, the model's own, is never changed by a command's
effect. -/
def Obligations.OnlyTheirCommandsChange : Prop :=
  ∀ (c : Instr) (s t : State), (∀ a b, c ≠ .reset a b) → exec c s = .next t →
    (c ≠ .setReference → t.tb.period = s.tb.period ∧ t.tb.phi = s.tb.phi) ∧
    ((∀ v, c ≠ .attentionMaskWrite v) → t.oe.mask = s.oe.mask) ∧
    (c ≠ .setAction → t.lu.actions = s.lu.actions) ∧
    t.straps = s.straps ∧
    (c ≠ .timeLowRead → t.readData = s.readData) ∧
    t.pending = s.pending

/-- For every time base with a legal reference period and every instant t, a grid point being φ + floor(k·Nr/Dr) for some
k: the grid point after t is a grid point strictly after t, and none after t lies before it. For t at or after φ the
grid point at t (the g′ of an alignment) is a grid point at or before t, none at or before t lies after it, and the
next one is at most floor(Nr/Dr) + 1 ticks after it. The grid point from t on (the g of an alignment) is a grid point
at or after t, and none at or after t lies before it; it is t itself when t is a grid point. The half-period H is
floor(floor(Nr/Dr)/2). -/
def Obligations.NextGridPoint : Prop :=
  ∀ (tb : TimeBase) (t : Nat), tb.period.legal = true →
    let point (k : Nat) : Nat := tb.phi + k * tb.period.n / tb.period.d
    (t < tb.gridAfter t ∧ (∃ k : Nat, tb.gridAfter t = point k) ∧
      (∀ k : Nat, t < point k → tb.gridAfter t ≤ point k)) ∧
    (tb.phi ≤ t →
      tb.gridAt t ≤ t ∧ (∃ k : Nat, tb.gridAt t = point k) ∧ (∀ k : Nat, point k ≤ t → point k ≤ tb.gridAt t) ∧
      tb.gridAfter t ≤ tb.gridAt t + tb.period.n / tb.period.d + 1) ∧
    (t ≤ tb.gridFrom t ∧ (∃ k : Nat, tb.gridFrom t = point k) ∧
      (∀ k : Nat, t ≤ point k → tb.gridFrom t ≤ point k)) ∧
    (∀ k : Nat, t = point k → tb.gridFrom t = t) ∧
    tb.half = tb.period.n / tb.period.d / 2

/-- On every segment with a legal rate and for every instant t, before the origin too, the edge index at or before t is b
+ floor(((t − o + 1)·D − 1)/N); its edge is at or before t, and every index whose edge is at or before t is at most
it. The index plus one is the first edge strictly after t. The nearest edge is the index itself when t is no nearer to
the edge after, halfway included, and the index plus one otherwise. On the instant of an edge both give that edge. On
0, 0 and 1,125/2 the instant 1,124 gives index 1, whose edge is 562, edge 2 being 1,125. The subframe of t relative to
that edge k is min(255, floor(256·(t − e_k)·D/N)), 0 on the edge itself. A channel with no current segment gives no
answer; otherwise an instant t (a channel index k) is answered from the current segment when t is at or after its
origin (k at or above its base), then from the prior segment by the same test, and else, STALE, from the prior
segment, or from the current one without a prior (R28). The instant of edge j is o + floor((j − b)·N/D) (R24), and a
rate is legal when N is 1 to 16,777,215, D 1 to 65,535 and N at least 128·D (R23). -/
def Obligations.EdgeAtOrBefore : Prop :=
  (∀ (g : Segment) (t : Int), g.rate.legal = true →
    let k := g.edgeAt t
    k = g.base + ((t - g.origin + 1) * g.rate.d - 1) / g.rate.n ∧
    g.instant k ≤ t ∧ (∀ j : Int, g.instant j ≤ t → j ≤ k) ∧
    t < g.instant (k + 1) ∧ (∀ j : Int, t < g.instant j → k + 1 ≤ j) ∧
    (t - g.instant k ≤ g.instant (k + 1) - t → g.nearestEdge t = k) ∧
    (g.instant (k + 1) - t < t - g.instant k → g.nearestEdge t = k + 1)) ∧
  (∀ (g : Segment) (j : Int), g.rate.legal = true →
    g.edgeAt (g.instant j) = j ∧ g.nearestEdge (g.instant j) = j) ∧
  (let g : Segment := ⟨0, 0, ⟨1125, 2⟩⟩
   g.edgeAt 1124 = 1 ∧ g.instant 1 = 562 ∧ g.instant 2 = 1125) ∧
  (∀ (g : Segment) (t : Int), g.rate.legal = true →
    let k := g.edgeAt t
    ((g.subframe t k : Nat) : Int) = min 255 (256 * (t - g.instant k) * g.rate.d / g.rate.n) ∧
    (t = g.instant k → g.subframe t k = 0)) ∧
  (∀ (ch : Channel) (t k : Int),
    (ch.cur = none → ch.segmentAt t = none ∧ ch.segmentForIndex k = none) ∧
    (∀ c : Segment, ch.cur = some c →
      ((c.origin : Int) ≤ t → ch.segmentAt t = some (c, false)) ∧
      ((c.base : Int) ≤ k → ch.segmentForIndex k = some (c, false)) ∧
      (ch.prior = none →
        (t < c.origin → ch.segmentAt t = some (c, true)) ∧ (k < c.base → ch.segmentForIndex k = some (c, true))) ∧
      (∀ p : PriorSegment, ch.prior = some p →
        (t < c.origin → (p.seg.origin : Int) ≤ t → ch.segmentAt t = some (p.seg, false)) ∧
        (t < c.origin → t < p.seg.origin → ch.segmentAt t = some (p.seg, true)) ∧
        (k < c.base → (p.seg.base : Int) ≤ k → ch.segmentForIndex k = some (p.seg, false)) ∧
        (k < c.base → k < p.seg.base → ch.segmentForIndex k = some (p.seg, true))))) ∧
  (∀ (g : Segment) (j : Int), g.instant j = g.origin + (j - g.base) * g.rate.n / g.rate.d) ∧
  (∀ r : Rate, r.legal = true ↔ 1 ≤ r.n ∧ r.n ≤ 16777215 ∧ 1 ≤ r.d ∧ r.d ≤ 65535 ∧ 128 * r.d ≤ r.n)

/-- In every non-drop format of base B, the label of index i has FF i mod B, SS (i div B) mod 60, MM (i div 60B) mod 60
and HH i div 3600B, and the index of a label is (3600·HH + 60·MM + SS)·B + FF. For every index below Fday the label is
valid and its index is that index; for every valid label the index is below Fday and its label is that label. In base
25 index 135,970 is 01:30:38:20 and 01:00:00:00 is index 90,000. The bases are 24, 25, 30, 48, 50 and 60 frames per
second. -/
def Obligations.NonDropLabels : Prop :=
  (∀ b : Base,
    let f : Fmt := ⟨b, false⟩
    (∀ i : Nat, f.labelOf i = ⟨i / (3600 * b.fps), i / (60 * b.fps) % 60, i / b.fps % 60, i % b.fps⟩) ∧
    (∀ l : Label, f.indexOf l = (3600 * l.hh + 60 * l.mm + l.ss) * b.fps + l.ff) ∧
    (∀ i : Nat, i < f.fday → f.valid (f.labelOf i) = true ∧ f.indexOf (f.labelOf i) = i) ∧
    (∀ l : Label, f.valid l = true → f.indexOf l < f.fday ∧ f.labelOf (f.indexOf l) = l)) ∧
  Fmt.labelOf ⟨.b25, false⟩ 135970 = ⟨1, 30, 38, 20⟩ ∧ Fmt.indexOf ⟨.b25, false⟩ ⟨1, 0, 0, 0⟩ = 90000 ∧
  [Base.b24, .b25, .b30, .b48, .b50, .b60].map Base.fps = [24, 25, 30, 48, 50, 60]

/-- In the 30 drop format the label of i is the non-drop label of i + 18·q plus 2·((m − 2) div 1,798) when m ≥ 2, with q
and m the quotient and remainder by 17,982; in 60 drop that of i + 36·q plus 4·((m − 4) div 3,596) when m ≥ 4, by
35,964. The index of a label is (3600·HH + 60·MM + SS)·B + FF − k·(tm − tm div 10) with tm = 60·HH + MM and k 2 or 4.
For every index below Fday the label is valid, is not one of the skipped labels (a minute that is no multiple of 10,
SS 00, FF below k), and has that index; for every valid label that is not skipped the index is below Fday and its
label is that label. The four examples of the rules hold. In every format a label is valid when HH is below 24, MM and
SS below 60 and FF below B (R33); a drop-frame format skips one with SS 0, MM no multiple of 10 and FF below the count
dropped, 2 or 4, and such a label is moved to that FF, any other staying as it is (R34). -/
def Obligations.DropLabels : Prop :=
  (∀ i : Nat,
    Fmt.labelOf ⟨.b30, true⟩ i =
      Fmt.labelOf ⟨.b30, false⟩
        (i + 18 * (i / 17982) + (if 2 ≤ i % 17982 then 2 * ((i % 17982 - 2) / 1798) else 0)) ∧
    Fmt.labelOf ⟨.b60, true⟩ i =
      Fmt.labelOf ⟨.b60, false⟩
        (i + 36 * (i / 35964) + (if 4 ≤ i % 35964 then 4 * ((i % 35964 - 4) / 3596) else 0))) ∧
  (∀ (b : Base) (k : Nat), (b = .b30 ∧ k = 2) ∨ (b = .b60 ∧ k = 4) →
    let f : Fmt := ⟨b, true⟩
    (∀ l : Label,
      f.indexOf l =
        (3600 * l.hh + 60 * l.mm + l.ss) * b.fps + l.ff
          - k * ((60 * l.hh + l.mm) - (60 * l.hh + l.mm) / 10)) ∧
    (∀ i : Nat, i < f.fday →
      f.valid (f.labelOf i) = true ∧
      ¬((f.labelOf i).mm % 10 ≠ 0 ∧ (f.labelOf i).ss = 0 ∧ (f.labelOf i).ff < k) ∧
      f.indexOf (f.labelOf i) = i) ∧
    (∀ l : Label, f.valid l = true → ¬(l.mm % 10 ≠ 0 ∧ l.ss = 0 ∧ l.ff < k) →
      f.indexOf l < f.fday ∧ f.labelOf (f.indexOf l) = l)) ∧
  (Fmt.labelOf ⟨.b30, true⟩ 1134666 = ⟨10, 31, 0, 2⟩ ∧ Fmt.labelOf ⟨.b30, true⟩ 1134665 = ⟨10, 30, 59, 29⟩ ∧
    Fmt.indexOf ⟨.b30, true⟩ ⟨10, 0, 0, 0⟩ = 1078920 ∧ Fmt.indexOf ⟨.b30, true⟩ ⟨10, 30, 1, 24⟩ = 1132920) ∧
  (∀ (f : Fmt) (l : Label),
    (f.valid l = true ↔ l.hh < 24 ∧ l.mm < 60 ∧ l.ss < 60 ∧ l.ff < f.base.fps) ∧
    (f.skipped l = true ↔ f.drop = true ∧ l.ss = 0 ∧ l.mm % 10 ≠ 0 ∧ l.ff < f.base.dropCount) ∧
    (f.skipped l = true → f.moved l = { l with ff := f.base.dropCount }) ∧
    (f.skipped l = false → f.moved l = l)) ∧
  [Base.b30, .b60].map Base.dropCount = [2, 4]

/-- For every format Fday is even and is the table's number. For every even day length above 0 and all label indices a and
b, the signed difference lies from −Fday/2 + 1 to Fday/2 and is congruent to a − b modulo Fday. When a and b lie half
a day apart it is +Fday/2 both ways round; otherwise the difference the other way round is its negative. In base 25
the indices 25 and 2,159,975 give +50 and −50. -/
def Obligations.SignedDifference : Prop :=
  (Fmt.fday ⟨.b24, false⟩ = 2073600 ∧ Fmt.fday ⟨.b25, false⟩ = 2160000 ∧ Fmt.fday ⟨.b30, false⟩ = 2592000 ∧
    Fmt.fday ⟨.b30, true⟩ = 2589408 ∧ Fmt.fday ⟨.b48, false⟩ = 4147200 ∧ Fmt.fday ⟨.b50, false⟩ = 4320000 ∧
    Fmt.fday ⟨.b60, false⟩ = 5184000 ∧ Fmt.fday ⟨.b60, true⟩ = 5178816) ∧
  (∀ (half : Nat) (a b : Int), 0 < half →
    let diff (x y : Int) : Int := labelDiff (2 * half) x y
    1 - (half : Int) ≤ diff a b ∧ diff a b ≤ half ∧
    (∃ n : Int, diff a b = a - b + n * (2 * half)) ∧
    (diff a b = half → diff b a = half) ∧ (diff a b ≠ half → diff b a = -(diff a b))) ∧
  labelDiff 2160000 25 2159975 = 50 ∧ labelDiff 2160000 2159975 25 = -50

/-- For every list of characters, running the CRC over the list followed by its own check character ends at 0. Every
telegram that the part composes begins with the sync character, and received without error its check is found good. On
the pair a character is one start bit, eight data bits, least significant first, and one stop bit; while a SET or CALL
is being sent, tick t since its start shows bit (t mod 270) div 27 of character t div 270, up to the end of the last
stop bit, and from then on and in every other phase the pair is not driven. Ten levels received give the character
they carry, and a framing error exactly when the stop bit is low. That the start bit is low and the stop bit high is
the model's reading (log entry 31). The CRC starts at 0; each character is combined by exclusive-or, and the register
is then shifted left eight times, 0x07 being combined whenever the bit shifted out was 1. A telegram is the sync
character 0xC5, the covered characters and the CRC over them. -/
def Obligations.TelegramCheck : Prop :=
  (∀ cs : List Byte, crc8 (cs ++ [crc8 cs]) = 0) ∧
  (∀ cs : List Byte, (telegram cs).head? = some syncChar ∧
    checkGood ((telegram cs).map (fun v => { value := v })) = true) ∧
  (∀ c : Byte,
    charFrame c =
      [false, c.getLsbD 0, c.getLsbD 1, c.getLsbD 2, c.getLsbD 3, c.getLsbD 4, c.getLsbD 5, c.getLsbD 6, c.getLsbD 7,
        true]) ∧
  (∀ s : State, s.lc.phase = .sendingSet ∨ s.lc.phase = .sendingCall →
    (s.lc.timer < 270 * s.lc.tx.length →
      s.pairLevel =
        some ((charFrame (s.lc.tx.getD (s.lc.timer / 270) 0)).getD (s.lc.timer % 270 / 27) false)) ∧
    (270 * s.lc.tx.length ≤ s.lc.timer → s.pairLevel = none)) ∧
  (∀ s : State, s.lc.phase ≠ .sendingSet → s.lc.phase ≠ .sendingCall → s.pairLevel = none) ∧
  (∀ s : State, s.driverEnabled = true ↔ s.pairLevel ≠ none) ∧
  (∀ c : Byte, receivedChar (charFrame c) = ⟨c, false⟩) ∧
  (∀ (c : Byte) (stop : Bool), receivedChar ((charFrame c).take 9 ++ [stop]) = ⟨c, !stop⟩) ∧
  (let shift (r : Byte) : Byte := (r <<< 1) ^^^ (if r.getLsbD 7 then 0x07 else 0)
   crc8 [] = 0 ∧ ∀ (cs : List Byte) (c : Byte), crc8 (cs ++ [c]) = shift^[8] (crc8 cs ^^^ c)) ∧
  (∀ cs : List Byte, telegram cs = (0xC5 : Byte) :: cs ++ [crc8 cs])

/-- For a RUNNING channel with no stop pending, current segment g and next edge instant (index frame + 1 on g) at or
before ST, the edge answers a next state in which the frame index is one more, the last edge ST is the instant, and
the outputs are driven with the settings after the latch: a pulse of min(W, floor(N/D) − 1) ticks, none for 0, and on
a PICTURE channel with label output on a timecode word of the new index's label up to the following edge. With nothing
staged the settings and segments stay. A staged user word replaces the user word. A full staged set replaces the
settings, g becomes the prior segment ending at the index before, a new segment with the edge's instant as origin, its
index as base and the staged rate is current, and a RETIME event with that origin and base is sent. Nothing else
changes. The word's cells: 0 to 3 are 1, 0, 1, 1; from 4, 10, 16 and 22 on stand FF, SS, MM (6 cells each) and HH (5),
27 is the drop flag, 28 to 30 the base's code, 32 to 63 the user word, each least significant cell first, and 31 makes
the number of 1 cells from 4 to 63 even. With L the ticks from the edge to the next, the line's level is cell i's from
the edge plus floor(i·L/64) to the edge plus floor((i + 1)·L/64), low outside these and with no word. The pulse line
is high exactly while a pulse is held. A channel's change is its own alone. -/
def Obligations.ChannelEdge : Prop :=
  (∀ (s : State) (c : Fin 16) (g : Segment),
     let ch := s.chan c
     let edge := (g.instant ((ch.frame : Int) + 1)).toNat
     let pulse (set : Settings) (r : Rate) : Option Nat :=
       if min set.width (r.n / r.d - 1) = 0 then none else some (edge + min set.width (r.n / r.d - 1))
     let word (set : Settings) (h : Segment) : Option TimecodeWord :=
       if ch.kind = .picture ∧ set.labelOut = true then
         some
           { edge := edge
             next := (h.instant ((ch.frame : Int) + 2)).toNat
             cells :=
               timecodeCells (set.fmt.labelOf ((set.start + (ch.frame + 1)) % set.fmt.fday)) set.fmt set.userWord }
       else none
     ch.state = .running → ch.stopPending = false → ch.cur = some g → edge ≤ s.tb.st →
     (ch.staged = none →
       exec (.channelEdge c) s =
         .next (s.setChan c
           { ch with frame := ch.frame + 1, lastEdge := some edge, pulse := pulse ch.cfg g.rate,
                     tcWord := word ch.cfg g })) ∧
     (∀ w : Word, ch.staged = some (.user w) →
       exec (.channelEdge c) s =
         .next (s.setChan c
           { ch with frame := ch.frame + 1, lastEdge := some edge, cfg := { ch.cfg with userWord := w },
                     staged := none, pulse := pulse ch.cfg g.rate,
                     tcWord := word { ch.cfg with userWord := w } g })) ∧
     (∀ set : Settings, ch.staged = some (.full set) →
       exec (.channelEdge c) s =
         .next (State.sysEvent (.channelEvent c .retime (some (edge, ch.frame + 1)))
           (s.setChan c
             { ch with frame := ch.frame + 1, lastEdge := some edge, cfg := set, staged := none,
                       cur := some ⟨edge, ch.frame + 1, set.rate⟩, prior := some ⟨g, ch.frame⟩,
                       pulse := pulse set set.rate,
                       tcWord := word set ⟨edge, ch.frame + 1, set.rate⟩ })))) ∧
  (∀ (l : Label) (f : Fmt) (w : Word),
    let cells := timecodeCells l f w
    (cells.getLsbD 0 = true ∧ cells.getLsbD 1 = false ∧ cells.getLsbD 2 = true ∧ cells.getLsbD 3 = true) ∧
    (∀ i < 6, cells.getLsbD (4 + i) = l.ff.testBit i ∧ cells.getLsbD (10 + i) = l.ss.testBit i ∧
      cells.getLsbD (16 + i) = l.mm.testBit i) ∧
    (∀ i < 5, cells.getLsbD (22 + i) = l.hh.testBit i) ∧ cells.getLsbD 27 = f.drop ∧
    (∀ i < 3, cells.getLsbD (28 + i) = f.base.code.testBit i) ∧
    (∀ i < 32, cells.getLsbD (32 + i) = w.getLsbD i) ∧
    (List.range 60).countP (fun i => cells.getLsbD (4 + i)) % 2 = 0) ∧
  (∀ (w : TimecodeWord) (t : Nat),
    let start (i : Nat) : Nat := w.edge + i * (w.next - w.edge) / 64
    (∀ i < 64, start i ≤ t → t < start (i + 1) → w.level t = w.cells.getLsbD i) ∧
    (t < w.edge ∨ w.next ≤ t → w.level t = false)) ∧
  (∀ (s : State) (c : Fin 16),
    ((s.chan c).tcWord = none → s.timecodeLine c = false) ∧
    (∀ w : TimecodeWord, (s.chan c).tcWord = some w → s.timecodeLine c = w.level s.tb.st) ∧
    (s.pulseLine c = true ↔ (s.chan c).pulse ≠ none)) ∧
  (∀ (s : State) (c : Fin 16) (x : Channel),
    (s.setChan c x).chan c = x ∧ (∀ k : Fin 16, k ≠ c → (s.setChan c x).chan k = s.chan k) ∧
    s.setChan c x = { s with chans := (s.setChan c x).chans })

/-- CHANNEL_EDGE at the next edge of a RUNNING channel with a stop pending answers the state in which the channel is
STOPPED, its lines low and idle, its staged set discarded, frame index, last edge ST and segments kept; the STOP event
with the current segment's origin and base is sent, and after it the channel-stop notice. STOP_CHANNEL with a channel
number above 15 terminates REFUSED RANGE, on a STOPPED channel REFUSED STATE, nothing else changing; on an ARMED
channel it becomes STOPPED with no start ST, the STOP event carries the segment held, if any, the notice follows, and
the order terminates DONE; on a RUNNING channel, pending already or not, the stop is pending and the order terminates
DONE. A stop at a skipped edge of a time step (State.stopChannel) is the same. -/
def Obligations.ChannelStops : Prop :=
  (∀ (s : State) (c : Fin 16) (g : Segment),
    let ch := s.chan c
    ch.state = .running → ch.stopPending = true → ch.cur = some g →
    (g.instant ((ch.frame : Int) + 1)).toNat ≤ s.tb.st →
    exec (.channelEdge c) s =
      .next (State.stopNotice
        (State.sysEvent (.channelEvent c .stop (some (g.origin, g.base)))
          (s.setChan c { ch with state := .stopped, stopPending := false, staged := none, startSt := none,
                                 pulse := none, tcWord := none })) c)) ∧
  (∀ (s : State) (o : Order), s.oe.step = .taken o → o.kind = .stopChannel → 16 ≤ (o.p 0).toNat →
    exec .stopChannel s = .next { s with oe := { s.oe with step := .terminating [] .refusedRange 0 } }) ∧
  (∀ (s : State) (o : Order) (c : Fin 16), s.oe.step = .taken o → o.kind = .stopChannel →
    (o.p 0).toNat = c.val →
    let ch := s.chan c
    (ch.state = .stopped →
      exec .stopChannel s = .next { s with oe := { s.oe with step := .terminating [] .refusedState 0 } }) ∧
    (ch.state = .armed →
      exec .stopChannel s =
        .next (State.report (State.stopNotice
          (State.sysEvent (.channelEvent c .stop (ch.cur.map (fun g => (g.origin, g.base))))
            (s.setChan c { ch with state := .stopped, stopPending := false, staged := none, startSt := none,
                                   pulse := none, tcWord := none })) c) .done)) ∧
    (ch.state = .running →
      exec .stopChannel s = .next (State.report (s.setChan c { ch with stopPending := true }) .done))) ∧
  (∀ (s : State) (c : Fin 16),
    let ch := s.chan c
    s.stopChannel c =
      State.stopNotice
        (State.sysEvent (.channelEvent c .stop (ch.cur.map (fun g => (g.origin, g.base))))
          (s.setChan c { ch with state := .stopped, stopPending := false, staged := none, startSt := none,
                                 pulse := none, tcWord := none })) c)

/-- At one slot, a channel-stop notice changes nothing when the record is not bound to the channel, is EMPTY or is
DRIFTING. In ENROLLED, SETTLING or LOCKED the record enters DRIFTING: DEVICE is raised, a DEVICE STATE DRIFTING event
with reason CHANNEL STOPPED and the recovery taken is sent, and the recovery acts. In ABSENT the state before absence,
and in JAMMING the remembered state, becomes DRIFTING when it was SETTLING or LOCKED, with no record and no attention.
With recovery NONE the record then just stays DRIFTING. The notice acts on the slots in slot order. -/
def Obligations.ChannelStopNotice : Prop :=
  (∀ (s : State) (c : Fin 16) (i : Fin 48),
    ((s.slot i).boundTo ≠ some c ∨ (s.slot i).state = .empty ∨ (s.slot i).state = .drifting) →
    State.stopNoticeAt c s i = s) ∧
  (∀ (s : State) (c : Fin 16) (i : Fin 48), (s.slot i).boundTo = some c →
    (s.slot i).state = .enrolled ∨ (s.slot i).state = .settling ∨ (s.slot i).state = .locked →
    let s1 := (s.setSlot i { s.slot i with state := .drifting }).raise .device
    let taken := s1.recoveryTaken i .channelStopped
    State.stopNoticeAt c s i =
      State.recover
        (State.sysEvent (.deviceState i (s.slot i).linkAddr (.drifting .channelStopped taken)) s1) i taken ∧
    State.stopNoticeAt c s i = s.enterDrifting i .channelStopped ∧
    ((s.slot i).recovery = .noRecovery →
      State.stopNoticeAt c s i =
        State.sysEvent (.deviceState i (s.slot i).linkAddr (.drifting .channelStopped .none)) s1)) ∧
  (∀ (s : State) (c : Fin 16) (i : Fin 48) (b : DevState), (s.slot i).boundTo = some c →
    (s.slot i).state = .absent → (s.slot i).before = some b →
    State.stopNoticeAt c s i =
      s.setSlot i { s.slot i with
        before := some (if b = .settling ∨ b = .locked then .drifting else b) }) ∧
  (∀ (s : State) (c : Fin 16) (i : Fin 48) (j : JamContext), (s.slot i).boundTo = some c →
    (s.slot i).state = .jamming → (s.slot i).jam = some j →
    State.stopNoticeAt c s i =
      s.setSlot i { s.slot i with
        jam := some { j with
          remembered := if j.remembered = .settling ∨ j.remembered = .locked then .drifting
                        else j.remembered } }) ∧
  (∀ (s : State) (c : Fin 16), s.stopNotice c = (List.finRange 48).foldl (State.stopNoticeAt c) s)

/-- For an ARMED channel whose start ST t0 is at or before ST, CHANNEL_ARMED_START answers the state in which the channel
is RUNNING on a new segment with origin t0, base 0 and its rate, the current segment held before, if any, become the
prior one ending at the frame index before, frame index 0, last edge ST t0, no start ST, edge 0's pulse and timecode
word (the start label itself) driven, and the START event with origin t0 and base 0 sent. For a channel whose pulse
ends at an instant at or before ST, PULSE_END lowers its pulse line and changes nothing else; before that instant it
changes nothing (log entry 2). -/
def Obligations.ArmedStartAndPulseEnd : Prop :=
  (∀ (s : State) (c : Fin 16) (t0 : Nat),
    let ch := s.chan c
    let r := ch.cfg.rate
    let w := min ch.cfg.width (r.n / r.d - 1)
    ch.state = .armed → ch.startSt = some t0 → t0 ≤ s.tb.st →
    exec (.channelArmedStart c) s =
      .next (State.sysEvent (.channelEvent c .start (some (t0, 0)))
        (s.setChan c
          { ch with
            state := .running, cur := some ⟨t0, 0, r⟩
            prior := (match ch.cur with | some old => some ⟨old, ch.frame⟩ | none => ch.prior)
            frame := 0, lastEdge := some t0, startSt := none
            pulse := if w = 0 then none else some (t0 + w)
            tcWord :=
              if ch.kind = .picture ∧ ch.cfg.labelOut = true then
                some
                  { edge := t0
                    next := (Segment.instant ⟨t0, 0, r⟩ 1).toNat
                    cells := timecodeCells (ch.cfg.fmt.labelOf (ch.cfg.start % ch.cfg.fmt.fday)) ch.cfg.fmt
                      ch.cfg.userWord }
              else none }))) ∧
  (∀ (s : State) (c : Fin 16) (e : Nat), (s.chan c).pulse = some e →
    exec (.pulseEnd c) s = .next (if e ≤ s.tb.st then s.setChan c { s.chan c with pulse := none } else s))

/-- With a SET CHANNEL in hand: a channel number above 15, an illegal rate, an illegal label format or a start label
invalid in it terminates REFUSED RANGE. Otherwise a kind other than the record's on a channel not STOPPED, or else a
stop pending, terminates REFUSED STATE, and otherwise a kind other than PICTURE with a bound count above 0 REFUSED
BOUND. A refusal changes nothing else. An order that passes terminates DONE: in STOPPED and ARMED the kind and every
setting replace the record's, segments, frame index, bound count and start ST kept; in RUNNING they become a full
staged set in place of any staged before, and nothing else of the record changes. The start label is stored as its
index, one that does not exist in a drop-frame format moved to the first of its minute. -/
def Obligations.SetChannel : Prop :=
  (∀ (s : State) (o : Order), s.oe.step = .taken o → o.kind = .setChannel →
    (16 ≤ (o.p 0).toNat ∨ Rate.legal ⟨(o.p 2).toNat, (o.p 3).toNat⟩ = false ∨
      fmtOfCode (bits (o.p 1) 7 4) = none ∨
      ∃ f, fmtOfCode (bits (o.p 1) 7 4) = some f ∧ f.valid (labelOfWord (o.p 5)) = false) →
    exec .setChannel s = .next { s with oe := { s.oe with step := .terminating [] .refusedRange 0 } }) ∧
  (∀ (s : State) (o : Order) (c : Fin 16) (f : Fmt), s.oe.step = .taken o → o.kind = .setChannel →
    (o.p 0).toNat = c.val → Rate.legal ⟨(o.p 2).toNat, (o.p 3).toNat⟩ = true →
    fmtOfCode (bits (o.p 1) 7 4) = some f → f.valid (labelOfWord (o.p 5)) = true →
    let ch := s.chan c
    let kind : ChanKind := if (o.p 1).toNat % 2 = 1 then .sample else .picture
    let set : Settings :=
      { rate := ⟨(o.p 2).toNat, (o.p 3).toNat⟩, width := bits (o.p 4) 15 0, fmt := f
        start := f.indexOf (f.moved (labelOfWord (o.p 5))), labelOut := bit (o.p 1) 1, userWord := o.p 6
        stamping := bit (o.p 1) 2 }
    ((kind ≠ ch.kind ∧ ch.state ≠ .stopped) ∨ ch.stopPending = true →
      exec .setChannel s = .next { s with oe := { s.oe with step := .terminating [] .refusedState 0 } }) ∧
    ((kind = ch.kind ∨ ch.state = .stopped) → ch.stopPending = false → kind ≠ .picture → ch.bound ≠ 0 →
      exec .setChannel s = .next { s with oe := { s.oe with step := .terminating [] .refusedBound 0 } }) ∧
    ((kind = ch.kind ∨ ch.state = .stopped) → ch.stopPending = false → (kind = .picture ∨ ch.bound = 0) →
      (ch.state = .stopped ∨ ch.state = .armed →
        exec .setChannel s =
          .next (State.report (s.setChan c { ch with kind := kind, cfg := set }) .done)) ∧
      (ch.state = .running →
        exec .setChannel s =
          .next (State.report (s.setChan c { ch with staged := some (.full set) }) .done))))

/-- With a START CHANNEL in hand, a channel number above 15 terminates REFUSED RANGE and a channel that is ARMED or
RUNNING REFUSED STATE, nothing else changing. Otherwise t0 is the ST given, or with the grid flag the first grid point
strictly after ST by the stored settings (below 2^64; past it the model's free value stands, log entry 4), and the
order terminates DONE. When t0 lies after ST the channel becomes ARMED with start ST t0, all else of it kept, no
record is made, and watch entries for the channel carry STOPPED. When t0 lies at or before ST, which a grid-aligned
start never does, the channel is RUNNING at once on a segment with origin t0, base 0 and its rate, the former current
segment become the prior one, the frame index floor(((now − t0 + 1)·D − 1)/N), the last edge ST that edge's instant,
no output driven, and the START event with origin t0 and base 0 is sent. -/
def Obligations.StartChannel : Prop :=
  (∀ (s : State) (o : Order), s.oe.step = .taken o → o.kind = .startChannel → 16 ≤ (o.p 0).toNat →
    exec .startChannel s = .next { s with oe := { s.oe with step := .terminating [] .refusedRange 0 } }) ∧
  (∀ (s : State) (o : Order) (c : Fin 16), s.oe.step = .taken o → o.kind = .startChannel →
    (o.p 0).toNat = c.val → (s.chan c).state ≠ .stopped →
    exec .startChannel s = .next { s with oe := { s.oe with step := .terminating [] .refusedState 0 } }) ∧
  (∀ (s : State) (o : Order) (c : Fin 16) (t0 : Nat), s.oe.step = .taken o → o.kind = .startChannel →
    (o.p 0).toNat = c.val → (s.chan c).state = .stopped →
    ((o.grid = false ∧ t0 = (o.p 1).toNat + 2 ^ 32 * (o.p 2).toNat) ∨
      (o.grid = true ∧ t0 = s.tb.gridAfter s.tb.st ∧ t0 < 2 ^ 64)) →
    let ch := s.chan c
    let r := ch.cfg.rate
    let k := ((s.tb.st - t0 + 1) * r.d - 1) / r.n
    (s.tb.st < t0 →
      exec .startChannel s =
        .next (State.report (s.setChan c { ch with state := .armed, startSt := some t0 }) .done)) ∧
    (t0 ≤ s.tb.st →
      exec .startChannel s =
        .next (State.report (State.sysEvent (.channelEvent c .start (some (t0, 0)))
          (s.setChan c
            { ch with
              state := .running, cur := some ⟨t0, 0, r⟩
              prior := (match ch.cur with | some old => some ⟨old, ch.frame⟩ | none => ch.prior)
              frame := k, lastEdge := some (t0 + k * r.n / r.d), startSt := none })) .done)) ∧
    (o.grid = true → s.tb.period.legal = true → s.tb.st < t0)) ∧
  (∀ (c : Fin 16) (ch : Channel) (t : Nat) (w : Watch), ch.state = .armed → watchEntry c ch t = some w →
    w.stopped = true)

/-- The channel array applies a step to the channels in number order. At one channel, STOPPED changes nothing; a RUNNING
channel with no edge strictly inside the span loses only its pulse and timecode word; one with a stop pending and an
edge in the span stops with its STOP record and notice; any other counts every edge up to the last one before the end
of the span, undriven, after latching at the first one: a staged user word replaces the user word; a full set replaces
the settings, the current segment becomes the prior one ending at the index before, the new segment has the edge as
origin, its index as base and the staged rate, the later edges lie on it, and the RETIME event with that origin and
base is sent. An ARMED channel whose start ST is inside the span is RUNNING on a segment with that origin and base 0,
counts its edges in the span, edge 0 among them, undriven, and sends its START event; one whose start ST is not inside
changes nothing. That the step leaves every RUNNING channel's lines low and idle, and that a skipped edge starts
neither anew, is the model's reading (log entry 19). The roster's step adds d to the ST of an unbound record's anchor
and verify point, each where present, and to every SET instant, of bound and unbound records, and changes nothing
else, instants staying below 2^64. -/
def Obligations.StepAtChannelsAndRoster : Prop :=
  (∀ (s : State) (a b : Nat), s.channelsStep a b = (List.finRange 16).foldl (State.channelStep a b) s) ∧
  (∀ (s : State) (a b : Nat) (c : Fin 16), (s.chan c).state = .stopped → State.channelStep a b s c = s) ∧
  (∀ (s : State) (a b : Nat) (c : Fin 16) (g : Segment),
    let ch := s.chan c
    let edge := (g.instant ((ch.frame : Int) + 1)).toNat
    ch.state = .running → ch.cur = some g →
    (¬(a < edge ∧ edge < b) →
      State.channelStep a b s c = s.setChan c { ch with pulse := none, tcWord := none }) ∧
    (a < edge → edge < b → ch.stopPending = true →
      State.channelStep a b s c = s.stopChannel c) ∧
    (a < edge → edge < b → ch.stopPending = false → g.rate.legal = true →
      ∃ k : Nat, ch.frame < k ∧ g.instant k < b ∧ (b : Int) ≤ g.instant ((k : Int) + 1) ∧
        (ch.staged = none →
          State.channelStep a b s c =
            s.setChan c { ch with frame := k, lastEdge := some (g.instant k).toNat, pulse := none,
                                  tcWord := none }) ∧
        (∀ w : Word, ch.staged = some (.user w) →
          State.channelStep a b s c =
            s.setChan c { ch with frame := k, lastEdge := some (g.instant k).toNat
                                  cfg := { ch.cfg with userWord := w }, staged := none, pulse := none
                                  tcWord := none })) ∧
    (∀ set : Settings, a < edge → edge < b → ch.stopPending = false → ch.staged = some (.full set) →
      set.rate.legal = true →
      let h : Segment := ⟨edge, ch.frame + 1, set.rate⟩
      ∃ k : Nat, ch.frame < k ∧ h.instant k < b ∧ (b : Int) ≤ h.instant ((k : Int) + 1) ∧
        State.channelStep a b s c =
          State.sysEvent (.channelEvent c .retime (some (edge, ch.frame + 1)))
            (s.setChan c
              { ch with frame := k, lastEdge := some (h.instant k).toNat, cfg := set, staged := none, cur := some h
                        prior := some ⟨g, ch.frame⟩, pulse := none, tcWord := none }))) ∧
  (∀ (s : State) (a b t0 : Nat) (c : Fin 16), (s.chan c).state = .armed → (s.chan c).startSt = some t0 →
    (¬(a < t0 ∧ t0 < b) → State.channelStep a b s c = s) ∧
    (a < t0 → t0 < b → (s.chan c).cfg.rate.legal = true →
      let ch := s.chan c
      let h : Segment := ⟨t0, 0, ch.cfg.rate⟩
      ∃ k : Nat, h.instant k < b ∧ (b : Int) ≤ h.instant ((k : Int) + 1) ∧
        State.channelStep a b s c =
          State.sysEvent (.channelEvent c .start (some (t0, 0)))
            (s.setChan c
              { ch with
                state := .running, cur := some h
                prior := (match ch.cur with | some old => some ⟨old, ch.frame⟩ | none => ch.prior)
                frame := k, lastEdge := some (h.instant k).toNat, startSt := none, pulse := none
                tcWord := none }))) ∧
  (∀ (s : State) (d : Nat) (i : Fin 48), (s.rosterStep d).slot i = (s.slot i).shift d) ∧
  (∀ (x : Device) (d : Nat),
    let moved (tie : Tie) : Tie := { tie with st := tie.st + d }
    (x.boundTo = none → ∀ tie, x.anchor = some tie ∨ x.verify = some tie → tie.st + d < 2 ^ 64) →
    (∀ j si, x.jam = some j → j.setInstant = some si → si + d < 2 ^ 64) →
    (x.boundTo = none →
      x.shift d =
        { x with anchor := x.anchor.map moved, verify := x.verify.map moved
                 jam := x.jam.map (fun j => { j with setInstant := j.setInstant.map (· + d) }) }) ∧
    (x.boundTo ≠ none →
      x.shift d =
        { x with jam := x.jam.map (fun j => { j with setInstant := j.setInstant.map (· + d) }) }))

/-- Every step that answers a next state from a state whose channels, bound counts and device records are well formed
keeps all three: legal rates in settings, staged sets and segments, legal label formats with start label indices of
them, a stop pending and a staged set only in RUNNING, a start ST exactly in ARMED, lines low and idle outside
RUNNING, a current segment in RUNNING with the last edge ST at the frame index's instant on it, each bound count equal
to the number of occupied slots bound to the channel, and no occupied slot bound to a SAMPLE channel. (The device
records are in the premise because the bound counts are counted over them.) -/
def Obligations.ChannelInvariant : Prop :=
  ∀ s t : State, s.RosterWF → (∀ c : Fin 16, (s.chan c).WF) → s.BoundWF → step s = .next t →
    (∀ c : Fin 16, (t.chan c).WF) ∧ t.BoundWF

/-- A slot is the rotation candidate exactly when it is occupied and not held and none of the slots between the rotation
position and it, in slot order with the wrap from 47 to 0 and the position itself last, is so; there is none exactly
when no slot is occupied and not held. The urgent candidate is an entry of the urgent queue whose slot is not held,
every entry before it being held. With the last turn urgent off, an urgent candidate is served, and a rotation
candidate only without one; with it on, a rotation candidate is served, and an urgent one only without it; with
neither there is no turn. A slot inserted into the urgent queue joins its tail and nothing else changes; when it is
already in the queue, or in service at an urgent turn, nothing changes. -/
def Obligations.RotationSearch : Prop :=
  (∀ (s : State) (i : Fin 48),
    s.rotationCandidate = some i ↔
      ∃ k : Nat, k < 48 ∧ i.val = (s.lc.rotation.val + 1 + k) % 48 ∧
        (s.slot i).state ≠ .empty ∧ (s.slot i).held = false ∧
        ∀ (m : Nat) (j : Fin 48), m < k → j.val = (s.lc.rotation.val + 1 + m) % 48 →
          (s.slot j).state = .empty ∨ (s.slot j).held = true) ∧
  (∀ s : State, s.rotationCandidate = none ↔
    ∀ i : Fin 48, (s.slot i).state = .empty ∨ (s.slot i).held = true) ∧
  (∀ (s : State) (i : Fin 48), s.urgentCandidate = some i ↔
    ∃ before after : List (Fin 48), s.lc.urgent = before ++ i :: after ∧ (s.slot i).held = false ∧
      ∀ j ∈ before, (s.slot j).held = true) ∧
  (∀ (s : State) (u : Fin 48), s.urgentCandidate = some u → s.lc.lastUrgent = false ∨ s.rotationCandidate = none →
    s.nextTurnChoice = some (true, u)) ∧
  (∀ (s : State) (r : Fin 48), s.rotationCandidate = some r → s.lc.lastUrgent = true ∨ s.urgentCandidate = none →
    s.nextTurnChoice = some (false, r)) ∧
  (∀ s : State, s.urgentCandidate = none → s.rotationCandidate = none → s.nextTurnChoice = none) ∧
  (∀ (s : State) (i : Fin 48),
    let served : Prop := ∃ t, s.lc.turn = some t ∧ t.slot = i ∧ t.urgent = true
    (i ∈ s.lc.urgent ∨ served → s.urgentInsert i = s) ∧
    (i ∉ s.lc.urgent → ¬served →
      s.urgentInsert i = { s with lc := { s.lc with urgent := s.lc.urgent ++ [i] } }))

/-- While the link is idle, or in the gap 540 ticks or more after the turn before: with no turn to choose NEXT_TURN
answers the state with the link idle; with a rotation turn for a slot it comes into service by the address of its
record, the position becomes the slot, the flag is off, and a CALL is being sent: 0xC5, the address, 0x24 and the
check over the two; with an urgent turn for a slot that has no jam context or one with no SET pending, the entry
leaves the urgent queue, the position stays, the flag is on, and the CALL is sent in the same way. Nothing else
changes. In the gap before 540 ticks, and in any other phase, the command changes nothing (log entry 2). -/
def Obligations.NextTurn : Prop :=
  (∀ s : State, (s.lc.phase = .idle ∨ (s.lc.phase = .gap ∧ 540 ≤ s.lc.timer)) →
    (s.nextTurnChoice = none →
      exec .nextTurn s = .next { s with lc := { s.lc with phase := .idle, timer := 0 } }) ∧
    (∀ i : Fin 48, s.nextTurnChoice = some (false, i) →
      let a := (s.slot i).linkAddr
      exec .nextTurn s =
        .next
          { s with
            lc :=
              { s.lc with
                turn := some ⟨i, a, false⟩, lastUrgent := false, rotation := i, phase := .sendingCall, timer := 0
                tx := [0xC5, BitVec.ofNat 8 (a % 64), 0x24, crc8 [BitVec.ofNat 8 (a % 64), 0x24]] } }) ∧
    (∀ i : Fin 48, s.nextTurnChoice = some (true, i) → (∀ j, (s.slot i).jam = some j → j.setPending = false) →
      let a := (s.slot i).linkAddr
      exec .nextTurn s =
        .next
          { s with
            lc :=
              { s.lc with
                turn := some ⟨i, a, true⟩, lastUrgent := true, urgent := s.lc.urgent.erase i
                phase := .sendingCall, timer := 0
                tx := [0xC5, BitVec.ofNat 8 (a % 64), 0x24, crc8 [BitVec.ofNat 8 (a % 64), 0x24]] } })) ∧
  (∀ s : State, s.lc.phase ≠ .idle → (s.lc.phase ≠ .gap ∨ s.lc.timer < 540) → exec .nextTurn s = .next s)

/-- With an urgent turn due for a slot whose jam context has a SET pending, the slot comes into service as at any urgent
turn. When the source is a RUNNING PICTURE channel of the record's label format whose segment for ST + 2,430 is g, J
is the channel's label index at the edge after the edge at or before ST + 2,430 on g; the context then holds S = ST,
J, J as last label sent, one more SET sent, SET pending off, SET sent on and 5 reports left, and the SET is being
sent: sync, address, 0x49, HH, MM, SS, FF of J in the source's format, the drop flag, check. When the source is not
RUNNING, not PICTURE or of another format, the jam ends SOURCE STOPPED and the CALL is sent under the same turn. -/
def Obligations.SetTurn : Prop :=
  ∀ (s : State) (i : Fin 48) (j : JamContext),
    (s.lc.phase = .idle ∨ (s.lc.phase = .gap ∧ 540 ≤ s.lc.timer)) → s.nextTurnChoice = some (true, i) →
    (s.slot i).jam = some j → j.setPending = true →
    let a := (s.slot i).linkAddr
    let served : Link :=
      { s.lc with turn := some ⟨i, a, true⟩, lastUrgent := true, urgent := s.lc.urgent.erase i }
    let ch := s.chan j.source
    (∀ (g : Segment) (stale : Bool), ch.state = .running → ch.kind = .picture → ch.cfg.fmt = (s.slot i).fmt →
      ch.segmentAt ((s.tb.st : Int) + 2430) = some (g, stale) →
      let label := (((ch.cfg.start : Int) + (g.edgeAt ((s.tb.st : Int) + 2430) + 1)) % (ch.cfg.fmt.fday : Int)).toNat
      let l := ch.cfg.fmt.labelOf label
      let covered : List Byte :=
        [BitVec.ofNat 8 (a % 64), 0x49, BitVec.ofNat 8 l.hh, BitVec.ofNat 8 l.mm, BitVec.ofNat 8 l.ss,
          BitVec.ofNat 8 l.ff, if ch.cfg.fmt.drop then 1 else 0]
      exec .nextTurn s =
        .next
          (State.setSlot
            { s with lc := { served with phase := .sendingSet, timer := 0, tx := 0xC5 :: covered ++ [crc8 covered] } }
            i
            { s.slot i with
              jam :=
                some
                  { j with setInstant := some s.tb.st, label := some label, lastLabel := some label
                           sets := j.sets + 1, setPending := false, setSent := true, reports := 5 } })) ∧
    ((ch.state ≠ .running ∨ ch.kind ≠ .picture ∨ ch.cfg.fmt ≠ (s.slot i).fmt) →
      let t := State.jamEnd { s with lc := served } i .sourceStopped
      exec .nextTurn s =
        .next
          { t with
            lc :=
              { t.lc with
                phase := .sendingCall, timer := 0
                tx := [0xC5, BitVec.ofNat 8 (a % 64), 0x24, crc8 [BitVec.ofNat 8 (a % 64), 0x24]] } })

/-- SET_TURN_END, 2,430 ticks into a SET, ends the turn. ANSWER_WINDOW_OPEN, 1,080 ticks into a CALL, opens the window.
ANSWER_START in the window, no later than 8,100 ticks after the CALL, begins an answer stamped with ST and the present
G. A turn's end, with no EXCHANGE waiting for the slot: no turn is in progress, the gap begins, nothing is being sent,
and after an urgent turn a slot that is still JAMMING and not in the urgent queue joins its tail; nothing else
changes. With an EXCHANGE of that slot waiting for the end of service, it also begins its read, or, the slot being
JAMMING, ends REFUSED BUSY, also when a channel-stop notice during the wait made it so (the model's reading, log entry
29). Each of the three leaves everything not named as it was. -/
def Obligations.TurnEvents : Prop :=
  (∀ (s : State) (t : Turn), s.lc.phase = .sendingSet → s.lc.turn = some t → 2430 ≤ s.lc.timer →
    exec .setTurnEnd s = .next (s.endTurn t)) ∧
  (∀ s : State, s.lc.phase = .sendingCall → 1080 ≤ s.lc.timer →
    exec .answerWindowOpen s = .next { s with lc := { s.lc with phase := .window, timer := 0, tx := [] } }) ∧
  (∀ s : State, s.lc.phase = .window → s.lc.timer ≤ 8100 →
    exec .answerStart s =
      .next { s with lc := { s.lc with phase := .answering s.tb.st s.tb.gen, timer := 0, tx := [] } }) ∧
  (∀ (s : State) (t : Turn),
    let back : List (Fin 48) :=
      if t.urgent = true ∧ (s.slot t.slot).state = .jamming ∧ t.slot ∉ s.lc.urgent then s.lc.urgent ++ [t.slot]
      else s.lc.urgent
    let ended : State :=
      { s with lc := { s.lc with urgent := back, turn := none, phase := .gap, timer := 0, tx := [] } }
    ((∀ e, s.exch = some e → e.slot ≠ t.slot ∨ e.phase ≠ .waitService) → s.endTurn t = ended) ∧
    (∀ e, s.exch = some e → e.slot = t.slot → e.phase = .waitService →
      ((s.slot t.slot).state ≠ .jamming → s.endTurn t = { ended with exch := some { e with phase := .reading [] } }) ∧
      ((s.slot t.slot).state = .jamming → s.endTurn t = ended.endExchange e .refusedBusy)))

/-- With the window open and 8,100 ticks passed since the CALL, ANSWER_WINDOW_CLOSE delivers a miss to the slot when it is
occupied with the called address, none otherwise, and ends the turn. A miss below the eighth raises the record's miss
count by 1 and changes nothing else, in JAMMING the jam context neither. The eighth, in ENROLLED, SETTLING, LOCKED or
DRIFTING, makes the record ABSENT with that state as state before absence, anchor, verify point, drift and counts
kept, raises DEVICE and sends a DEVICE STATE ABSENT event; in JAMMING it ends the jam NO ANSWER. In ABSENT a miss
changes nothing, whatever the miss count, also in an exchanged record whose count starts at 0: that is the model's
choice (log entry 22). -/
def Obligations.AnswerWindowClose : Prop :=
  (∀ (s : State) (t : Turn), s.lc.phase = .window → s.lc.turn = some t → 8100 ≤ s.lc.timer →
    ((s.slot t.slot).state ≠ .empty → (s.slot t.slot).linkAddr = t.addr →
      exec .answerWindowClose s = .next ((s.deviceMiss t.slot).endTurn t)) ∧
    ((s.slot t.slot).state = .empty ∨ (s.slot t.slot).linkAddr ≠ t.addr →
      exec .answerWindowClose s = .next (s.endTurn t))) ∧
  (∀ (s : State) (i : Fin 48), (s.slot i).state ≠ .empty → (s.slot i).state ≠ .absent → (s.slot i).miss < 7 →
    s.deviceMiss i = s.setSlot i { s.slot i with miss := (s.slot i).miss + 1 }) ∧
  (∀ (s : State) (i : Fin 48) (st : DevState), (s.slot i).state = st → (s.slot i).miss = 7 →
    (st = .enrolled ∨ st = .settling ∨ st = .locked ∨ st = .drifting) →
    s.deviceMiss i =
      State.sysEvent (.deviceState i (s.slot i).linkAddr .absent) (State.raise
        (s.setSlot i { s.slot i with state := .absent, before := some st, miss := 8 }) .device)) ∧
  (∀ (s : State) (i : Fin 48), (s.slot i).state = .jamming → (s.slot i).miss = 7 →
    s.deviceMiss i = State.jamEnd (s.setSlot i { s.slot i with miss := 8 }) i .noAnswer) ∧
  (∀ (s : State) (i : Fin 48), (s.slot i).state = .absent → s.deviceMiss i = s)

/-- With an answer being received, its stamp and G noted, and the time of its characters passed: ANSWER_END of characters
that complete a legal declared length, when the answer is garbled, raises the garbled counter and delivers a miss if
the slot still holds the called address; when it is good and the slot no longer holds the address, raises the unknown-
address counter alone; when G differs from the G noted, has no effect on the slot or the counters; and otherwise
delivers the REPORT to the roster. QUIET_LINE of characters that do not, 540 ticks later, is always a garbled answer.
Each then ends the turn. (The characters' time, 270 ticks each, is the model's guard, log entry 28; the spanned step
is by the last sentences of R78 and by R127, log entry 26.) An answer is complete when it has exactly the legal
length, 10, 16, 22 or 28, that its third character's low five bits declare; it can be cut short when it has begun and
its declared length is not legal or not reached. It is garbled when its first character is not 0xC5, any has a framing
error, its kind is not 3, its length is not legal, the line fell quiet, the mark count (status bits 3:2) is not
(length − 10)/6, the CRC over the characters between the first and the last differs from the last, or the address
differs from the CALL's; and, passing these, exactly when its current label (HH, MM, SS, FF from the fourth character
on) is invalid in the format of the called slot's record (of an EMPTY slot, which holds no format, log entry 20 says
which). -/
def Obligations.AnswerEnd : Prop :=
  (∀ (s : State) (t : Turn) (stamp : Nat) (gen : BitVec 16) (chars : List RxChar),
    s.lc.phase = .answering stamp gen → s.lc.turn = some t → answerComplete chars = true →
    chars.length * 270 ≤ s.lc.timer →
    let d := s.slot t.slot
    let counted : State := { s with lc := { s.lc with garbled := s.lc.garbled + 1 } }
    let holds : Prop := d.state ≠ .empty ∧ d.linkAddr = t.addr
    (garbledAnswer chars false t.addr d = true →
      (holds → exec (.answerEnd chars) s = .next ((counted.deviceMiss t.slot).endTurn t)) ∧
      (¬holds → exec (.answerEnd chars) s = .next (counted.endTurn t))) ∧
    (garbledAnswer chars false t.addr d = false →
      (¬holds →
        exec (.answerEnd chars) s =
          .next (State.endTurn { s with lc := { s.lc with unknown := s.lc.unknown + 1 } } t)) ∧
      (holds → s.tb.gen ≠ gen → exec (.answerEnd chars) s = .next (s.endTurn t)) ∧
      (holds → s.tb.gen = gen →
        exec (.answerEnd chars) s =
          .next ((s.reportArrival t.slot (readReport d stamp chars)).endTurn t)))) ∧
  (∀ (s : State) (t : Turn) (stamp : Nat) (gen : BitVec 16) (chars : List RxChar),
    s.lc.phase = .answering stamp gen → s.lc.turn = some t → answerCutShort chars = true →
    chars.length * 270 + 540 ≤ s.lc.timer →
    let d := s.slot t.slot
    let counted : State := { s with lc := { s.lc with garbled := s.lc.garbled + 1 } }
    ((d.state ≠ .empty ∧ d.linkAddr = t.addr) →
      exec (.quietLine chars) s = .next ((counted.deviceMiss t.slot).endTurn t)) ∧
    (¬(d.state ≠ .empty ∧ d.linkAddr = t.addr) →
      exec (.quietLine chars) s = .next (counted.endTurn t))) ∧
  (∀ (chars : List RxChar) (quiet : Bool) (addr : Nat) (d : Device),
    let vs := chars.map RxChar.value
    let declared := (vs.getD 2 0).toNat % 32
    let label : Label := ⟨(vs.getD 3 0).toNat, (vs.getD 4 0).toNat, (vs.getD 5 0).toNat, (vs.getD 6 0).toNat⟩
    let failed : Prop :=
      vs.getD 0 0 ≠ 0xC5 ∨ (∃ c ∈ chars, c.framingError = true) ∨ (vs.getD 2 0).toNat / 32 ≠ 3 ∨
        declared ∉ [10, 16, 22, 28] ∨ quiet = true ∨ (vs.getD 8 0).toNat / 4 % 4 ≠ (declared - 10) / 6 ∨
        crc8 ((vs.drop 1).dropLast) ≠ vs.getLastD 0 ∨ (vs.getD 1 0).toNat ≠ addr
    (failed → garbledAnswer chars quiet addr d = true) ∧
    (¬failed → d.state ≠ .empty → (garbledAnswer chars quiet addr d = true ↔ d.fmt.valid label = false)) ∧
    (answerComplete chars = true ↔ declared ∈ [10, 16, 22, 28] ∧ chars.length = declared) ∧
    (answerCutShort chars = true ↔
      chars ≠ [] ∧ (declared ∉ [10, 16, 22, 28] ∨ chars.length < declared)))

/-- For every link address from 1 to 63, occupied record of that address, label valid in its format, edge age, status
flags, any value of the status bits 7:4, and up to three mark entries with arbitrary kind, subframe and label
characters: the characters of the REPORT as R195 lays them out, with the CRC of R69, received without framing error,
are a complete answer and not garbled, and the REPORT read from them has the stamp, the label's index (moved forward
when it does not exist in its drop-frame format), the edge age, the flags and the entries in order. The same
characters answering a CALL to any other address are garbled. So are those with any one of them, the sync, address,
kind-and-length and check characters among them, received as another value or with a framing error; and when the
changed kind-and-length character declares another length, any beginning of them that is complete by it is garbled
too. -/
def Obligations.ReportReadsBack : Prop :=
  ∀ (d : Device) (addr stamp : Nat) (l : Label) (age upper : Nat) (prot dual : Bool) (marks : List MarkEntry),
    1 ≤ addr → addr ≤ 63 → d.state ≠ .empty → d.fmt.valid l = true → age ≤ 255 → upper ≤ 15 →
    marks.length ≤ 3 →
    (∀ m ∈ marks, m.kind ≤ 255 ∧ m.sub ≤ 255 ∧ m.label.hh ≤ 255 ∧ m.label.mm ≤ 255 ∧ m.label.ss ≤ 255 ∧
      m.label.ff ≤ 255) →
    let status := (if prot then 1 else 0) + (if dual then 2 else 0) + 4 * marks.length + 16 * upper
    let numbers : List Nat :=
      [addr, 96 + (10 + 6 * marks.length), l.hh, l.mm, l.ss, l.ff, age, status] ++
        marks.flatMap (fun m => [m.kind, m.sub, m.label.hh, m.label.mm, m.label.ss, m.label.ff])
    let covered : List Byte := numbers.map (BitVec.ofNat 8)
    let received : List RxChar := ((0xC5 : Byte) :: covered ++ [crc8 covered]).map (fun v => { value := v })
    answerComplete received = true ∧
    garbledAnswer received false addr d = false ∧
    readReport d stamp received = ⟨stamp, d.fmt.indexOf (d.fmt.moved l), age, prot, dual, marks⟩ ∧
    (∀ other : Nat, other ≠ addr → garbledAnswer received false other d = true) ∧
    (∀ (n : Nat) (c : RxChar), n < received.length → received[n]? ≠ some c →
      garbledAnswer (received.set n c) false addr d = true ∧
      ∀ m : Nat, answerComplete ((received.set n c).take m) = true →
        garbledAnswer ((received.set n c).take m) false addr d = true)

/-- A REPORT arrives: the record's own update comes first, then its mark entries go to the log unit in order. Every update
sets the miss count to 0 and the two flags from the REPORT, and takes as edge instant max(0, stamp − path delay − the
edge age in ticks). An unbound ENROLLED record becomes SETTLING with anchor (label, edge), no verify point, good count
1, bad count 0. A bound one whose channel is RUNNING also gets the label offset δ(L mod Fday, C), C being the
channel's label index at the edge nearest to the edge instant on the segment that answers for it; one whose channel is
not RUNNING stays ENROLLED with no anchor and no offset. A DRIFTING record keeps everything else. No record or
attention is made; drift is kept. The adoption of a record (State.adoptReport, which re-adoption and return use too)
is the same whatever its state was; a bound one whose channel is not RUNNING becomes ENROLLED by it. -/
def Obligations.AdoptingReport : Prop :=
  (∀ (s : State) (i : Fin 48) (r : Report),
    s.reportArrival i r = r.marks.foldl (State.takeEntry i) (s.reportUpdate i r)) ∧
  (∀ (s : State) (i : Fin 48) (r : Report),
    let d : Device := { s.slot i with miss := 0, protectedFlag := r.protectedFlag, dualTrack := r.dualTrack }
    let edge : Nat :=
      ((r.stamp : Int) - d.pathDelay
        - ((2 * r.edgeAge * d.rate.n + 256 * d.rate.d) / (512 * d.rate.d) : Nat)).toNat
    (d.state = .drifting → s.reportUpdate i r = s.setSlot i d) ∧
    (d.state = .enrolled → d.boundTo = none →
      s.reportUpdate i r =
        s.setSlot i { d with state := .settling, anchor := some ⟨r.label, edge⟩, offset := none, verify := none
                             good := 1, bad := 0 }) ∧
    (∀ c : Fin 16, d.state = .enrolled → d.boundTo = some c → (s.chan c).state ≠ .running →
      s.reportUpdate i r = s.setSlot i { d with anchor := none, verify := none, offset := none }) ∧
    (∀ (c : Fin 16) (g : Segment) (stale : Bool), d.state = .enrolled → d.boundTo = some c →
      (s.chan c).state = .running → (s.chan c).segmentAt edge = some (g, stale) →
      let ch := s.chan c
      let fday : Int := (ch.cfg.fmt.fday : Int)
      s.reportUpdate i r =
        s.setSlot i
          { d with
            state := .settling, anchor := some ⟨r.label, edge⟩, verify := none, good := 1, bad := 0
            offset :=
              some (labelDiff ch.cfg.fmt.fday ((r.label : Int) % fday)
                ((((ch.cfg.start : Int) + g.nearestEdge edge) % fday).toNat : Nat)) })) ∧
  (∀ (s : State) (i : Fin 48) (label edge : Nat),
    let d := s.slot i
    (d.boundTo = none →
      s.adoptReport i label edge =
        s.setSlot i { d with state := .settling, anchor := some ⟨label, edge⟩, offset := none, verify := none
                             good := 1, bad := 0 }) ∧
    (∀ c : Fin 16, d.boundTo = some c → (s.chan c).state ≠ .running →
      s.adoptReport i label edge =
        s.setSlot i { d with state := .enrolled, anchor := none, verify := none, offset := none }) ∧
    (∀ (c : Fin 16) (g : Segment) (stale : Bool), d.boundTo = some c → (s.chan c).state = .running →
      (s.chan c).segmentAt edge = some (g, stale) →
      let ch := s.chan c
      let fday : Int := (ch.cfg.fmt.fday : Int)
      s.adoptReport i label edge =
        s.setSlot i
          { d with
            state := .settling, anchor := some ⟨label, edge⟩, verify := none, good := 1, bad := 0
            offset :=
              some (labelDiff ch.cfg.fmt.fday ((label : Int) % fday)
                ((((ch.cfg.start : Int) + g.nearestEdge edge) % fday).toNat : Nat)) })) ∧
  (∀ (stamp delay : Nat) (rate : Rate) (age : Nat),
    reportEdge stamp delay rate age =
      ((stamp : Int) - delay - ((2 * age * rate.n + 256 * rate.d) / (512 * rate.d) : Nat)).toNat)

/-- For a SETTLING or LOCKED record, d being the record with miss count 0 and the REPORT's flags and t its label's
predicted instant, a REPORT is consistent when edge and t differ by at most the window. Inconsistent: a SETTLING
record re-adopts as from ENROLLED, so that a bound one gets the label offset of this REPORT or, its channel not
RUNNING, becomes ENROLLED with no anchor, offset or verify point; a LOCKED one with bad count 0 gets bad count 1, and
with bad count 1 it enters DRIFTING with reason INCONSISTENT. Consistent, for a bound record or with the time base
ACQUIRING or in HOLDOVER: bad count 0, good count one more up to 3, and a SETTLING record whose good count reaches 2,
or 3 with the dual-track flag on, becomes LOCKED with a DEVICE STATE LOCKED event; nothing else changes. Consistent
for an unbound record in LOCKED or FREE: the verify point is the label and edge, and with a span of 1,000 frames or
more the drift is the measured one, the clamp flag off, when within ±100,000; outside, it is clamped, the flag is on,
and the record enters DRIFTING with reason DRIFT CLAMP. -/
def Obligations.TestedReport : Prop :=
  ∀ (s : State) (i : Fin 48) (r : Report) (t : Nat),
    let d : Device := { s.slot i with miss := 0, protectedFlag := r.protectedFlag, dualTrack := r.dualTrack }
    let edge := reportEdge r.stamp d.pathDelay d.rate r.edgeAge
    let near : Prop := ((edge : Int) - t).natAbs ≤ d.window
    let good := min 3 (d.good + 1)
    let locks : Prop := d.state = .settling ∧ (if d.dualTrack then 3 else 2) ≤ good
    let locked (x : Device) : State :=
      State.sysEvent (.deviceState i x.linkAddr .locked) (s.setSlot i { x with state := .locked })
    (d.state = .settling ∨ d.state = .locked) → (s.translateSlot d r.label 0).st = some t →
    (¬near → d.state = .settling → d.boundTo = none →
      s.reportUpdate i r =
        s.setSlot i { d with anchor := some ⟨r.label, edge⟩, offset := none, verify := none, good := 1, bad := 0 }) ∧
    (¬near → d.state = .settling → s.reportUpdate i r = (s.setSlot i d).adoptReport i r.label edge) ∧
    (∀ c : Fin 16, ¬near → d.state = .settling → d.boundTo = some c → (s.chan c).state ≠ .running →
      s.reportUpdate i r =
        s.setSlot i { d with state := .enrolled, anchor := none, verify := none, offset := none }) ∧
    (∀ (c : Fin 16) (g : Segment) (stale : Bool), ¬near → d.state = .settling → d.boundTo = some c →
      (s.chan c).state = .running → (s.chan c).segmentAt edge = some (g, stale) →
      let ch := s.chan c
      let fday : Int := (ch.cfg.fmt.fday : Int)
      s.reportUpdate i r =
        s.setSlot i
          { d with
            anchor := some ⟨r.label, edge⟩, verify := none, good := 1, bad := 0
            offset :=
              some (labelDiff ch.cfg.fmt.fday ((r.label : Int) % fday)
                ((((ch.cfg.start : Int) + g.nearestEdge edge) % fday).toNat : Nat)) }) ∧
    (¬near → d.state = .locked → d.bad = 0 → s.reportUpdate i r = s.setSlot i { d with bad := 1 }) ∧
    (¬near → d.state = .locked → d.bad = 1 →
      s.reportUpdate i r = (s.setSlot i { d with bad := 2 }).enterDrifting i .inconsistent) ∧
    (near → d.boundTo ≠ none ∨ s.tb.ref = .acquiring ∨ s.tb.ref = .holdover →
      (locks → s.reportUpdate i r = locked { d with bad := 0, good := good }) ∧
      (¬locks → s.reportUpdate i r = s.setSlot i { d with bad := 0, good := good })) ∧
    (∀ a : Tie, near → d.boundTo = none → s.tb.ref = .locked ∨ s.tb.ref = .free → d.anchor = some a →
      let df := labelDiff d.fmt.fday r.label a.label
      let m : Int :=
        (2 * ((edge : Int) - a.st) * d.rate.d * 1000000000 + df * d.rate.n) / (2 * df * d.rate.n) - 1000000000
      let x : Device := { d with bad := 0, good := good, verify := some ⟨r.label, edge⟩ }
      (df < 1000 →
        (locks → s.reportUpdate i r = locked x) ∧ (¬locks → s.reportUpdate i r = s.setSlot i x)) ∧
      (1000 ≤ df → -100000 ≤ m → m ≤ 100000 →
        (locks → s.reportUpdate i r = locked { x with drift := m, driftClamped := false }) ∧
        (¬locks → s.reportUpdate i r = s.setSlot i { x with drift := m, driftClamped := false })) ∧
      (1000 ≤ df → m < -100000 ∨ 100000 < m →
        s.reportUpdate i r =
          (s.setSlot i { x with drift := if m < 0 then -100000 else 100000, driftClamped := true }).enterDrifting i
            .driftClamp))

/-- Entry into DRIFTING makes the record DRIFTING, raises DEVICE, sends a DEVICE STATE DRIFTING event with reason and
recovery taken, and then acts: nothing for recovery NONE, for reason VERIFY ERROR, or for recovery JAM, flag off, when
the source (the jam source, else the bound channel) is absent or not usable; ADOPT, or JAM on a protected record,
makes it ENROLLED with anchor, verify point and offset absent and counts 0; JAM with a usable source starts a jam of
origin RECOVERY, 1 retry, waiting off, remembered state DRIFTING, and the slot joins the urgent queue. A REPORT for an
ABSENT record sends RETURNED first; with state before absence DRIFTING the record is DRIFTING and nothing more; with
ENROLLED, or with no anchor, it adopts from the REPORT as an ENROLLED record does, bound or unbound; otherwise it is
SETTLING, an inconsistent REPORT entering DRIFTING with reason INCONSISTENT and a consistent one leaving good count 1
and bad count 0, with no lock; for an unbound record with the time base LOCKED or FREE the verify point, and with a
span of 1,000 frames or more the drift, are then updated, and a drift out of ±100,000 is clamped and enters DRIFTING
with reason DRIFT CLAMP. The source is the jam source when present, otherwise the bound channel; it is usable when
RUNNING, PICTURE and of the record's label format. -/
def Obligations.DriftingAndReturn : Prop :=
  (∀ (s : State) (i : Fin 48) (reason : DriftReason),
    let d : Device := { s.slot i with state := .drifting }
    let s1 := State.raise (s.setSlot i d) .device
    let told (taken : RecoveryTaken) : State :=
      State.sysEvent (.deviceState i d.linkAddr (.drifting reason taken)) s1
    (d.recovery = .noRecovery ∨ reason = .verifyError → s.enterDrifting i reason = told .none) ∧
    (reason ≠ .verifyError → d.recovery = .adopt ∨ (d.recovery = .jam ∧ d.protectedFlag = true) →
      s.enterDrifting i reason =
        State.setSlot (told .adopted) i
          { d with state := .enrolled, anchor := none, verify := none, offset := none, good := 0, bad := 0 }) ∧
    (reason ≠ .verifyError → d.recovery = .jam → d.protectedFlag = false →
      (d.recoverySource = none → s.enterDrifting i reason = told .sourceUnusable) ∧
      (∀ c : Fin 16, d.recoverySource = some c →
        (usableSource (s.chan c) d = false → s.enterDrifting i reason = told .sourceUnusable) ∧
        (usableSource (s.chan c) d = true →
          s.enterDrifting i reason =
            State.urgentInsert
              (State.setSlot (told .jamStarted) i
                { d with
                  state := .jamming
                  jam := some ⟨c, .recovery, false, .drifting, true, false, 0, none, none, none, 1, 5, none⟩ }) i)))) ∧
  (∀ (s : State) (i : Fin 48) (r : Report), (s.slot i).state = .absent →
    let d : Device := { s.slot i with miss := 0, protectedFlag := r.protectedFlag, dualTrack := r.dualTrack }
    let edge := reportEdge r.stamp d.pathDelay d.rate r.edgeAge
    let s1 := State.sysEvent (.deviceState i d.linkAddr .returned) (s.setSlot i d)
    (d.before = some .drifting →
      s.reportUpdate i r = s1.setSlot i { d with state := .drifting, before := none }) ∧
    (d.before = some .enrolled ∨ (d.before ≠ some .drifting ∧ d.anchor = none) → d.boundTo = none →
      s.reportUpdate i r =
        s1.setSlot i { d with state := .settling, before := none, anchor := some ⟨r.label, edge⟩, offset := none
                              verify := none, good := 1, bad := 0 }) ∧
    (d.before = some .enrolled ∨ (d.before ≠ some .drifting ∧ d.anchor = none) →
      s.reportUpdate i r =
        (s1.setSlot i { d with state := .enrolled, before := none }).adoptReport i r.label edge) ∧
    (∀ c : Fin 16, d.before = some .enrolled ∨ (d.before ≠ some .drifting ∧ d.anchor = none) → d.boundTo = some c →
      (s.chan c).state ≠ .running →
      s.reportUpdate i r =
        s1.setSlot i { d with state := .enrolled, before := none, anchor := none, verify := none, offset := none }) ∧
    (∀ (c : Fin 16) (g : Segment) (stale : Bool),
      d.before = some .enrolled ∨ (d.before ≠ some .drifting ∧ d.anchor = none) → d.boundTo = some c →
      (s.chan c).state = .running → (s.chan c).segmentAt edge = some (g, stale) →
      let ch := s.chan c
      let fday : Int := (ch.cfg.fmt.fday : Int)
      s.reportUpdate i r =
        s1.setSlot i
          { d with
            state := .settling, before := none, anchor := some ⟨r.label, edge⟩, verify := none, good := 1, bad := 0
            offset :=
              some (labelDiff ch.cfg.fmt.fday ((r.label : Int) % fday)
                ((((ch.cfg.start : Int) + g.nearestEdge edge) % fday).toNat : Nat)) }) ∧
    (∀ t : Nat, d.before = some .settling ∨ d.before = some .locked → d.anchor ≠ none →
      let x : Device := { d with state := .settling, before := none }
      (s.translateSlot x r.label 0).st = some t →
      (d.window < ((edge : Int) - t).natAbs →
        s.reportUpdate i r = (s1.setSlot i x).enterDrifting i .inconsistent) ∧
      (((edge : Int) - t).natAbs ≤ d.window →
        d.boundTo ≠ none ∨ s.tb.ref = .acquiring ∨ s.tb.ref = .holdover →
        s.reportUpdate i r = s1.setSlot i { x with bad := 0, good := 1 }) ∧
      (∀ a : Tie, ((edge : Int) - t).natAbs ≤ d.window → d.boundTo = none → s.tb.ref = .locked ∨ s.tb.ref = .free →
        d.anchor = some a →
        let df := labelDiff d.fmt.fday r.label a.label
        let m : Int :=
          (2 * ((edge : Int) - a.st) * d.rate.d * 1000000000 + df * d.rate.n) / (2 * df * d.rate.n) - 1000000000
        let y : Device := { x with bad := 0, good := 1, verify := some ⟨r.label, edge⟩ }
        (df < 1000 → s.reportUpdate i r = s1.setSlot i y) ∧
        (1000 ≤ df → -100000 ≤ m → m ≤ 100000 →
          s.reportUpdate i r = s1.setSlot i { y with drift := m, driftClamped := false }) ∧
        (1000 ≤ df → m < -100000 ∨ 100000 < m →
          s.reportUpdate i r =
            (s1.setSlot i { y with drift := if m < 0 then -100000 else 100000
                                   driftClamped := true }).enterDrifting i .driftClamp)))) ∧
  (∀ d : Device,
    (∀ c : Fin 16, d.jamSource = some c → d.recoverySource = some c) ∧
    (d.jamSource = none → d.recoverySource = d.boundTo)) ∧
  (∀ (ch : Channel) (d : Device),
    usableSource ch d = true ↔ ch.state = .running ∧ ch.kind = .picture ∧ ch.cfg.fmt = d.fmt)

/-- For a JAMMING record with jam context j, and d the record with miss count 0 and the REPORT's flags: a protected REPORT
ends the jam PROTECTED; one while a SET is pending, or whose edge instant is at or before S + 2,430, changes nothing
more; otherwise E is (J + floor((edge − (S + 2,430))·D/N)) mod Fday. A label equal to E or to (E − 1) mod Fday passes:
the record adopts from the REPORT by its binding, drift kept (a bound one whose channel is not RUNNING becomes
ENROLLED with no anchor, verify point or offset and counts 0), and the jam ends DONE. Any other fails: with more than
1 report left the count is lowered by 1; at the last one, with no retry left the jam ends VERIFY ERROR with reports
left 0, with a retry left and the source not usable it ends SOURCE STOPPED, and with a usable source retries left is
lowered, reports left is 0, a SET is pending, S and J are absent, and the slot joins the urgent queue. -/
def Obligations.VerifyReport : Prop :=
  ∀ (s : State) (i : Fin 48) (r : Report) (j : JamContext), (s.slot i).state = .jamming → (s.slot i).jam = some j →
    let d : Device := { s.slot i with miss := 0, protectedFlag := r.protectedFlag, dualTrack := r.dualTrack }
    let s1 := s.setSlot i d
    let edge := reportEdge r.stamp d.pathDelay d.rate r.edgeAge
    (r.protectedFlag = true → s.reportUpdate i r = s1.jamEnd i .protectedDevice) ∧
    (r.protectedFlag = false → j.setPending = true → s.reportUpdate i r = s1) ∧
    (∀ si lab : Nat, r.protectedFlag = false → j.setPending = false → j.setInstant = some si → j.label = some lab →
      let e := (lab + (edge - (si + 2430)) * d.rate.d / d.rate.n) % d.fmt.fday
      let pass : Prop := r.label = e ∨ r.label = (e + d.fmt.fday - 1) % d.fmt.fday
      (edge ≤ si + 2430 → s.reportUpdate i r = s1) ∧
      (si + 2430 < edge → pass → d.boundTo = none →
        s.reportUpdate i r =
          State.jamEnd
            (s.setSlot i { d with state := .settling, anchor := some ⟨r.label, edge⟩, offset := none
                                  verify := none, good := 1, bad := 0 }) i .done) ∧
      (∀ c : Fin 16, si + 2430 < edge → pass → d.boundTo = some c → (s.chan c).state ≠ .running →
        s.reportUpdate i r =
          State.jamEnd
            (s.setSlot i { d with state := .enrolled, anchor := none, verify := none, offset := none, good := 0
                                  bad := 0 }) i .done) ∧
      (∀ (c : Fin 16) (g : Segment) (stale : Bool), si + 2430 < edge → pass → d.boundTo = some c →
        (s.chan c).state = .running → (s.chan c).segmentAt edge = some (g, stale) →
        let ch := s.chan c
        let fday : Int := (ch.cfg.fmt.fday : Int)
        s.reportUpdate i r =
          State.jamEnd
            (s.setSlot i
              { d with
                state := .settling, anchor := some ⟨r.label, edge⟩, verify := none, good := 1, bad := 0
                offset :=
                  some (labelDiff ch.cfg.fmt.fday ((r.label : Int) % fday)
                    ((((ch.cfg.start : Int) + g.nearestEdge edge) % fday).toNat : Nat)) }) i .done) ∧
      (si + 2430 < edge → ¬pass →
        (1 < j.reports →
          s.reportUpdate i r = s.setSlot i { d with jam := some { j with reports := j.reports - 1 } }) ∧
        (j.reports ≤ 1 →
          let last := s.setSlot i { d with jam := some { j with reports := 0 } }
          (j.retries = 0 → s.reportUpdate i r = last.jamEnd i .verifyError) ∧
          (0 < j.retries → usableSource (s.chan j.source) d = false →
            s.reportUpdate i r = last.jamEnd i .sourceStopped) ∧
          (0 < j.retries → usableSource (s.chan j.source) d = true →
            s.reportUpdate i r =
              State.urgentInsert
                (s.setSlot i
                  { d with
                    jam :=
                      some { j with retries := j.retries - 1, reports := 0, setPending := true
                                    setInstant := none, label := none } }) i))))

/-- The end of a jam of a slot with context j, d being the record: with SET sent on and an outcome other than DONE the
record loses anchor, verify point and label offset, its counts are 0, and a remembered SETTLING or LOCKED counts as
ENROLLED. The context and the urgent entry go, and a JAM OUTCOME event carries outcome, origin, SETs sent, last label
and the state left: as it stands for DONE, the remembered state for PROTECTED and for SOURCE STOPPED before any SET,
DRIFTING for VERIFY ERROR and SOURCE STOPPED after one, ABSENT for NO ANSWER. Then the entries into DRIFTING (reason
VERIFY ERROR) and ABSENT (state before absence: the remembered one) are reported, a pending path delay acts, and the
outcome becomes the last result code and either terminates the waiting order or raises DEVICE. -/
def Obligations.JamEnd : Prop :=
  (∀ (s : State) (i : Fin 48) (j : JamContext), (s.slot i).jam = some j →
    let d := s.slot i
    let lost : Device :=
      if j.setSent then { d with anchor := none, verify := none, offset := none, good := 0, bad := 0 } else d
    let remembered : DevState :=
      if j.setSent = true ∧ (j.remembered = .settling ∨ j.remembered = .locked) then .enrolled else j.remembered
    let outcome (x : Device) (o : JamOutcome) : State :=
      State.sysEvent (.jamOutcome i d.linkAddr o j.origin j.sets j.lastLabel x.state)
        (State.urgentRemove (s.setSlot i { x with jam := none }) i)
    let finish (t : State) (code : Result) : State :=
      let t1 : State :=
        match j.pendingDelay with
        | some delay => t.setSlot i ((t.slot i).changeDelay delay)
        | none => t
      let t2 := t1.setSlot i { t1.slot i with lastResult := some code }
      if j.waiting then t2.report code else t2.raise .device
    s.jamEnd i .done = finish (outcome d .done) .done ∧
    s.jamEnd i .protectedDevice =
      finish (outcome { lost with state := remembered } .protectedDevice) .protectedDevice ∧
    (j.setSent = false →
      s.jamEnd i .sourceStopped =
        finish (outcome { d with state := remembered } .sourceStopped) .sourceStopped) ∧
    (j.setSent = true →
      s.jamEnd i .sourceStopped =
        finish ((outcome { lost with state := .drifting } .sourceStopped).enterDrifting i .verifyError)
          .sourceStopped) ∧
    s.jamEnd i .verifyError =
      finish ((outcome { lost with state := .drifting } .verifyError).enterDrifting i .verifyError)
        .verifyError ∧
    s.jamEnd i .noAnswer =
      finish ((outcome { lost with state := .absent, before := some remembered } .noAnswer).enterAbsent i remembered)
        .noAnswer ∧
    (∀ (t : State), State.urgentRemove t i = { t with lc := { t.lc with urgent := t.lc.urgent.filter (· != i) } })) ∧
  (∀ (s : State) (i : Fin 48) (before : DevState),
    s.enterAbsent i before =
      State.sysEvent (.deviceState i (s.slot i).linkAddr .absent)
        (State.raise (s.setSlot i { s.slot i with state := .absent, before := some before }) .device))

/-- Every step that answers a next state from a state whose urgent queue holds each slot at most once, and only slots that
are JAMMING, whose records are well formed (a jam context exactly in JAMMING) keeps the urgent queue so; in particular
it never holds an EMPTY slot and never more than 48 entries. -/
def Obligations.UrgentInvariant : Prop :=
  ∀ s t : State, s.RosterWF → s.UrgentWF → step s = .next t →
    t.UrgentWF ∧ (∀ i ∈ t.lc.urgent, (t.slot i).state ≠ .empty) ∧ t.lc.urgent.length ≤ 48

/-- With an ENROL in hand and no EXCHANGE running on: a slot above 47 terminates REFUSED RANGE with no slot's code set.
Otherwise the first check that fails decides, and the refusal becomes the slot's last result code, nothing else
changing: a parameter out of range REFUSED RANGE, an occupied slot REFUSED OCCUPIED, a SUITE with recovery JAM REFUSED
CLASS, an address held by another occupied slot REFUSED DUPLICATE, a bound channel that is no PICTURE channel REFUSED
BOUND. An order that passes terminates DONE: the slot is ENROLLED with the order's address, class, rate, format, bound
channel, path delay, window (0 selecting 13,500), recovery and jam source, last result DONE and every other field as
in an EMPTY record, and the bound channel's bound count is one more. Parameter word n is the n-th word fetched, 0 past
the last; a field of bits hi to lo, a single bit, a label word (HH in bits 31:24, then MM, SS, FF), up to four channel
bytes, the format, class and recovery codes and an optional channel are read as R188 and R190 encode them. A slot's
change is its own alone. -/
def Obligations.Enrol : Prop :=
  (∀ (s : State) (o : Order), s.oe.step = .taken o → o.kind = .enrol → s.exch = none → 48 ≤ (o.p 0).toNat →
    exec .enrol s = .next { s with oe := { s.oe with step := .terminating [] .refusedRange 0 } }) ∧
  (∀ (s : State) (o : Order) (i : Fin 48), s.oe.step = .taken o → o.kind = .enrol → s.exch = none →
    (o.p 0).toNat = i.val →
    let w := o.p 2
    let refused (code : Result) : State :=
      State.report (s.setSlot i { s.slot i with lastResult := some code }) code
    let cls := classOfCode (bits w 1 0)
    let outOfRange : Prop :=
      (o.p 1).toNat = 0 ∨ 63 < (o.p 1).toNat ∨ Rate.legal ⟨(o.p 3).toNat, (o.p 4).toNat⟩ = false ∨
      fmtOfCode (bits w 7 4) = none ∨ (bit w 8 = true ∧ 16 ≤ bits w 23 16) ∨ 1000000 < (o.p 6).toNat ∨
      bits w 3 2 = 3 ∨ (bit w 9 = true ∧ 16 ≤ bits w 31 24)
    let suiteJam : Prop := cls = .suite ∧ bits w 3 2 = 1
    let duplicate : Prop :=
      ∃ j : Fin 48, j ≠ i ∧ (s.slot j).state ≠ .empty ∧ (s.slot j).linkAddr = (o.p 1).toNat
    (outOfRange → exec .enrol s = .next (refused .refusedRange)) ∧
    (¬outOfRange → (s.slot i).state ≠ .empty → exec .enrol s = .next (refused .refusedOccupied)) ∧
    (¬outOfRange → (s.slot i).state = .empty → suiteJam → exec .enrol s = .next (refused .refusedClass)) ∧
    (¬outOfRange → (s.slot i).state = .empty → ¬suiteJam → duplicate →
      exec .enrol s = .next (refused .refusedDuplicate)) ∧
    (∀ c : Fin 16, ¬outOfRange → (s.slot i).state = .empty → ¬suiteJam → ¬duplicate → bit w 8 = true →
      bits w 23 16 = c.val → (s.chan c).kind ≠ .picture → exec .enrol s = .next (refused .refusedBound)) ∧
    (∀ (f : Fmt) (recovery : Recovery) (source : Option (Fin 16)),
      ¬outOfRange → (s.slot i).state = .empty → ¬suiteJam → ¬duplicate → fmtOfCode (bits w 7 4) = some f →
      recoveryOfCode (bits w 3 2) = some recovery → optChan (bit w 9) (bits w 31 24) = some source →
      let record (boundTo : Option (Fin 16)) : Device :=
        ⟨.enrolled, false, (o.p 1).toNat, cls, ⟨(o.p 3).toNat, (o.p 4).toNat⟩, f, boundTo, none, bits (o.p 5) 15 0,
          if (o.p 6).toNat = 0 then 13500 else (o.p 6).toNat, recovery, source, false, false, none, none, 0, false,
          0, 0, 0, none, none, some .done, 0⟩
      (bit w 8 = false → exec .enrol s = .next (State.report (s.setSlot i (record none)) .done)) ∧
      (∀ c : Fin 16, bit w 8 = true → bits w 23 16 = c.val → (s.chan c).kind = .picture →
        exec .enrol s =
          .next (State.report
            ((s.setChan c { s.chan c with bound := (s.chan c).bound + 1 }).setSlot i (record (some c))) .done)))) ∧
  (∀ (w : Word) (hi lo n : Nat),
    bits w hi lo = w.toNat / 2 ^ lo % 2 ^ (hi + 1 - lo) ∧ bit w n = w.getLsbD n ∧
    labelOfWord w = ⟨bits w 31 24, bits w 23 16, bits w 15 8, bits w 7 0⟩ ∧
    channelBytes w n = [bits w 7 0, bits w 15 8, bits w 23 16, bits w 31 24].take n ∧
    (∀ o : Order, o.p n = o.params.getD n 0)) ∧
  (∀ c < 16, ∀ f : Fmt,
    fmtOfCode c = some f ↔
      (f.drop = true → f.base = .b30 ∨ f.base = .b60) ∧ c = f.base.code + (if f.drop then 8 else 0)) ∧
  ([0, 1, 2, 3].map classOfCode = [.camera, .recorder, .slate, .suite] ∧
    [0, 1, 2, 3].map recoveryOfCode = [some .noRecovery, some .jam, some .adopt, none] ∧
    (∀ n : Nat, optChan false n = some none ∧ (16 ≤ n → optChan true n = none)) ∧
    (∀ c : Fin 16, optChan true c.val = some (some c))) ∧
  (∀ (s : State) (i : Fin 48) (d : Device),
    (s.setSlot i d).slot i = d ∧ (∀ k : Fin 48, k ≠ i → (s.setSlot i d).slot k = s.slot k) ∧
    s.setSlot i d = { s with slots := (s.setSlot i d).slots })

/-- With a SET DEVICE in hand and no EXCHANGE running on: a slot above 47 terminates REFUSED RANGE; a window above
1,000,000, recovery 3 or a jam source above 15 REFUSED RANGE, an EMPTY slot REFUSED STATE, a SUITE given recovery JAM
REFUSED CLASS, each then the slot's last result code, nothing else changing. An order that passes stores window,
recovery and jam source and terminates DONE. With the record's own path delay nothing more changes, but in JAMMING a
pending delay becomes absent. With another, ENROLLED, SETTLING, LOCKED and DRIFTING store it and become ENROLLED with
anchor, verify point and offset absent and good and bad counts 0; ABSENT does so but stays ABSENT with state before
absence ENROLLED; JAMMING keeps it pending in the context. A jam's end applies a pending delay, after its outcome has
been recorded, by the state then held; a RELEASE drops it. -/
def Obligations.SetDevice : Prop :=
  (∀ (s : State) (o : Order), s.oe.step = .taken o → o.kind = .setDevice → s.exch = none → 48 ≤ (o.p 0).toNat →
    exec .setDevice s = .next { s with oe := { s.oe with step := .terminating [] .refusedRange 0 } }) ∧
  (∀ (s : State) (o : Order) (i : Fin 48), s.oe.step = .taken o → o.kind = .setDevice → s.exch = none →
    (o.p 0).toNat = i.val →
    let w := o.p 3
    let d := s.slot i
    let ended (x : Device) (code : Result) : State :=
      State.report (s.setSlot i { x with lastResult := some code }) code
    let outOfRange : Prop :=
      1000000 < (o.p 2).toNat ∨ bits w 3 2 = 3 ∨ (bit w 9 = true ∧ 16 ≤ bits w 31 24)
    (outOfRange → exec .setDevice s = .next (ended d .refusedRange)) ∧
    (¬outOfRange → d.state = .empty → exec .setDevice s = .next (ended d .refusedState)) ∧
    (¬outOfRange → d.state ≠ .empty → d.cls = .suite → bits w 3 2 = 1 →
      exec .setDevice s = .next (ended d .refusedClass)) ∧
    (∀ (recovery : Recovery) (source : Option (Fin 16)), ¬outOfRange → d.state ≠ .empty →
      ¬(d.cls = .suite ∧ bits w 3 2 = 1) → recoveryOfCode (bits w 3 2) = some recovery →
      optChan (bit w 9) (bits w 31 24) = some source →
      let delay := bits (o.p 1) 15 0
      let x : Device :=
        { d with window := if (o.p 2).toNat = 0 then 13500 else (o.p 2).toNat, recovery := recovery
                 jamSource := source }
      (delay = d.pathDelay → d.state ≠ .jamming → exec .setDevice s = .next (ended x .done)) ∧
      (delay ≠ d.pathDelay → d.state = .enrolled ∨ d.state = .settling ∨ d.state = .locked ∨ d.state = .drifting →
        exec .setDevice s =
          .next (ended { x with pathDelay := delay, anchor := none, verify := none, offset := none, good := 0
                                bad := 0, state := .enrolled } .done)) ∧
      (delay ≠ d.pathDelay → d.state = .absent →
        exec .setDevice s =
          .next (ended { x with pathDelay := delay, anchor := none, verify := none, offset := none, good := 0
                                bad := 0, before := some .enrolled } .done)) ∧
      (∀ j : JamContext, d.state = .jamming → d.jam = some j →
        exec .setDevice s =
          .next (ended { x with jam := some { j with pendingDelay :=
                                  if delay = d.pathDelay then none else some delay } } .done)))) ∧
  (∀ (s : State) (i : Fin 48) (j : JamContext) (delay : Nat), j.pendingDelay = some delay →
    s.applyPendingDelay i j = s.setSlot i ((s.slot i).changeDelay delay)) ∧
  (∀ (d : Device) (delay : Nat),
    let forgotten : Device :=
      { d with pathDelay := delay, anchor := none, verify := none, offset := none, good := 0, bad := 0 }
    (d.state = .enrolled ∨ d.state = .settling ∨ d.state = .locked ∨ d.state = .drifting →
      d.changeDelay delay = { forgotten with state := .enrolled }) ∧
    (d.state = .absent → d.changeDelay delay = { forgotten with before := some .enrolled })) ∧
  (∀ (s : State) (i : Fin 48) (j : JamContext) (o : JamOutcome), (s.slot i).jam = some j →
    ∃ recorded : State, s.jamEnd i o = (recorded.applyPendingDelay i j).deliverOutcome i j o ∧
      recorded =
        State.jamStateRecords
          (State.sysEvent
            (.jamOutcome i ((s.slot i).jamEnded j o).linkAddr o j.origin j.sets j.lastLabel
              ((s.slot i).jamEnded j o).state)
            ((s.setSlot i { (s.slot i).jamEnded j o with jam := none }).urgentRemove i)) i j o) ∧
  (∀ (s : State) (i : Fin 48), ((s.emptySlot i).slot i).jam = none)

/-- With no EXCHANGE running on. RELEASE: a slot above 47 terminates REFUSED RANGE; an EMPTY slot DONE, only its last
result code becoming DONE. On an occupied slot, a jam context is first abandoned: it becomes absent and a JAM OUTCOME
event ABANDONED naming state EMPTY is sent; then its urgent entry goes, the bound channel's bound count is one less,
the record is EMPTY with last result DONE, and the order terminates DONE. ADOPT: a slot above 47 terminates REFUSED
RANGE, an EMPTY one REFUSED STATE, a JAMMING one REFUSED BUSY; on any other the anchor, verify point and label offset
become absent, good and bad counts 0, drift and clamp flag stay, the state becomes ENROLLED, or stays ABSENT with
state before absence ENROLLED, and the order terminates DONE. No other slot changes. -/
def Obligations.ReleaseAndAdopt : Prop :=
  (∀ (s : State) (o : Order), s.oe.step = .taken o → s.exch = none → 48 ≤ (o.p 0).toNat →
    let refused : State := { s with oe := { s.oe with step := .terminating [] .refusedRange 0 } }
    (o.kind = .release → exec .release s = .next refused) ∧ (o.kind = .adopt → exec .adopt s = .next refused)) ∧
  (∀ (s : State) (o : Order) (i : Fin 48), s.oe.step = .taken o → o.kind = .release → s.exch = none →
    (o.p 0).toNat = i.val →
    let d := s.slot i
    let s1 : State :=
      match d.jam with
      | none => s.urgentRemove i
      | some j =>
        State.urgentRemove
          (State.sysEvent (.jamOutcome i d.linkAddr .abandoned j.origin j.sets j.lastLabel .empty)
            (State.urgentRemove (s.setSlot i { d with jam := none }) i)) i
    let s2 : State :=
      match d.boundTo with
      | none => s1
      | some c => s1.setChan c { s1.chan c with bound := (s1.chan c).bound - 1 }
    (d.state = .empty →
      exec .release s = .next (State.report (s.setSlot i { d with lastResult := some .done }) .done)) ∧
    (d.state ≠ .empty →
      exec .release s =
        .next (State.report (s2.setSlot i { Device.emptyRecord with lastResult := some .done }) .done))) ∧
  (∀ (s : State) (o : Order) (i : Fin 48), s.oe.step = .taken o → o.kind = .adopt → s.exch = none →
    (o.p 0).toNat = i.val →
    let d := s.slot i
    let ended (x : Device) (code : Result) : State :=
      State.report (s.setSlot i { x with lastResult := some code }) code
    let forgotten : Device := { d with anchor := none, verify := none, offset := none, good := 0, bad := 0 }
    (d.state = .empty → exec .adopt s = .next (ended d .refusedState)) ∧
    (d.state = .jamming → exec .adopt s = .next (ended d .refusedBusy)) ∧
    (d.state = .absent → exec .adopt s = .next (ended { forgotten with before := some .enrolled } .done)) ∧
    (d.state = .enrolled ∨ d.state = .settling ∨ d.state = .locked ∨ d.state = .drifting →
      exec .adopt s = .next (ended { forgotten with state := .enrolled } .done)))

/-- With a JAM in hand and no EXCHANGE running on: a slot above 47 terminates REFUSED RANGE, no code set. Otherwise the
first check that fails decides, becoming the slot's last result code, nothing else changing: retries above 3 or a
source above 15 REFUSED RANGE, EMPTY REFUSED STATE, JAMMING REFUSED BUSY, ABSENT REFUSED ABSENT, protected REFUSED
PROTECTED, SUITE REFUSED CLASS, no source given and not bound REFUSED RANGE, a source not RUNNING (a stop pending
counts as RUNNING), not PICTURE or of another format REFUSED MISMATCH. One that passes puts the record in JAMMING with
a context of origin ORDER, that source (the one given, else the bound channel), the retries, the wait flag, the state
it had, a SET pending, 5 reports left and nothing sent, and the slot joins the urgent queue. Without wait it
terminates ACCEPTED, which becomes the last result code; with wait the code is none and the order is kept. -/
def Obligations.JamOrder : Prop :=
  (∀ (s : State) (o : Order), s.oe.step = .taken o → o.kind = .jam → s.exch = none → 48 ≤ (o.p 0).toNat →
    exec .jam s = .next { s with oe := { s.oe with step := .terminating [] .refusedRange 0 } }) ∧
  (∀ (s : State) (o : Order) (i : Fin 48), s.oe.step = .taken o → o.kind = .jam → s.exch = none →
    (o.p 0).toNat = i.val →
    let d := s.slot i
    let given := bit (o.p 1) 0
    let n := bits (o.p 1) 15 8
    let refused (code : Result) : State := State.report (s.setSlot i { d with lastResult := some code }) code
    let outOfRange : Prop := 3 < (o.p 2).toNat ∨ (given = true ∧ 16 ≤ n)
    let eligible : Prop :=
      ¬outOfRange ∧ d.state ≠ .empty ∧ d.state ≠ .jamming ∧ d.state ≠ .absent ∧ d.protectedFlag = false ∧
        d.cls ≠ .suite
    (outOfRange → exec .jam s = .next (refused .refusedRange)) ∧
    (¬outOfRange → d.state = .empty → exec .jam s = .next (refused .refusedState)) ∧
    (¬outOfRange → d.state = .jamming → exec .jam s = .next (refused .refusedBusy)) ∧
    (¬outOfRange → d.state = .absent → exec .jam s = .next (refused .refusedAbsent)) ∧
    (¬outOfRange → d.state ≠ .empty → d.state ≠ .jamming → d.state ≠ .absent → d.protectedFlag = true →
      exec .jam s = .next (refused .refusedProtected)) ∧
    (¬outOfRange → d.state ≠ .empty → d.state ≠ .jamming → d.state ≠ .absent → d.protectedFlag = false →
      d.cls = .suite → exec .jam s = .next (refused .refusedClass)) ∧
    (eligible → given = false → d.boundTo = none → exec .jam s = .next (refused .refusedRange)) ∧
    (∀ c : Fin 16, eligible → (given = true ∧ n = c.val) ∨ (given = false ∧ d.boundTo = some c) →
      let ch := s.chan c
      let started (code : Option Result) : State :=
        State.urgentInsert
          (s.setSlot i
            { d with
              state := .jamming, lastResult := code
              jam := some ⟨c, .order, o.waitFlag, d.state, true, false, 0, none, none, none, (o.p 2).toNat, 5,
                           none⟩ }) i
      (ch.state ≠ .running ∨ ch.kind ≠ .picture ∨ ch.cfg.fmt ≠ d.fmt →
        exec .jam s = .next (refused .refusedMismatch)) ∧
      (ch.state = .running → ch.kind = .picture → ch.cfg.fmt = d.fmt →
        (o.waitFlag = false → exec .jam s = .next (State.report (started (some .accepted)) .accepted)) ∧
        (o.waitFlag = true →
          exec .jam s =
            .next { started none with oe := { (started none).oe with step := .waiting (.jam i) } }))))

/-- With an EXCHANGE in hand and none running on: a slot above 47 terminates REFUSED RANGE; a JAMMING slot REFUSED BUSY; a
package address that is 0, no multiple of 4 or whose 64 bytes pass the window's end WINDOW FAULT; the latter two
become the slot's last result code, nothing else changing. An accepted one, an EMPTY slot included, sets the hold,
makes the last result code none, and the order is kept: the exchange waits for the end of service when a turn that
serves the slot is in progress, and reads otherwise. Any of the six roster orders in hand while an exchange that
engine clear dropped still runs is held, with nothing else changed. -/
def Obligations.ExchangeOrder : Prop :=
  (∀ (s : State) (o : Order), s.oe.step = .taken o → o.kind = .exchange → s.exch = none → 48 ≤ (o.p 0).toNat →
    exec .exchange s = .next { s with oe := { s.oe with step := .terminating [] .refusedRange 0 } }) ∧
  (∀ (s : State) (o : Order) (i : Fin 48), s.oe.step = .taken o → o.kind = .exchange → s.exch = none →
    (o.p 0).toNat = i.val →
    let d := s.slot i
    let a := (o.p 1).toNat
    let refused (code : Result) : State := State.report (s.setSlot i { d with lastResult := some code }) code
    let bad : Prop := a = 0 ∨ a % 4 ≠ 0 ∨ s.windowSize < a + 64
    let accepted (phase : ExchangePhase) : State :=
      State.keep { s.setSlot i { d with held := true, lastResult := none } with exch := some ⟨i, a, phase, false⟩ }
        .exchange
    (d.state = .jamming → exec .exchange s = .next (refused .refusedBusy)) ∧
    (d.state ≠ .jamming → bad → exec .exchange s = .next (refused .windowFault)) ∧
    (∀ t : Turn, d.state ≠ .jamming → ¬bad → s.lc.turn = some t → t.slot = i →
      exec .exchange s = .next (accepted .waitService)) ∧
    (d.state ≠ .jamming → ¬bad → (∀ t, s.lc.turn = some t → t.slot ≠ i) →
      exec .exchange s = .next (accepted (.reading [])))) ∧
  (∀ (s : State) (o : Order) (e : Exchange), s.oe.step = .taken o → s.exch = some e →
    let waits : State := { s with oe := { s.oe with step := .held o } }
    (o.kind = .enrol → exec .enrol s = .next waits) ∧ (o.kind = .setDevice → exec .setDevice s = .next waits) ∧
    (o.kind = .release → exec .release s = .next waits) ∧ (o.kind = .adopt → exec .adopt s = .next waits) ∧
    (o.kind = .jam → exec .jam s = .next waits) ∧ (o.kind = .exchange → exec .exchange s = .next waits))

/-- With an EXCHANGE reading a package in the window, the words read and the rest as they stand being the image: a JAMMING
slot ends it REFUSED BUSY, an image that fails a check ends it with that check's result. Otherwise the image is
loaded, hold and last result code staying, the bound counts follow, and the slot's former record is being written.
With the words left to write in the window (memory in canonical form), EXCHANGE_WRITE_DONE stores them, no other byte
changing, and the exchange ends DONE. An exchange that ends clears the hold, sets the last result code and terminates
its order; one that engine clear dropped terminates nothing, and a roster order that waits for it is handed over. The
checks, first to fail: the tag; a state among the six; ABSENT with a legal state before absence; an address above 0;
one no other occupied slot holds (else REFUSED DUPLICATE). Then PACKAGE INVALID for an illegal rate, format, window or
recovery, or a SUITE with JAM; a bound channel not PICTURE; no anchor where the state asks for one, or one in
ENROLLED; an unbound verify point without anchor; a bound, anchored image whose offset is out of R35's range or whose
channel has no current segment; an unbound drift out of ±100,000. An EMPTY image gives the values of R90. Any other
image passes and every field of its record is what its words hold: state before absence only in ABSENT, label offset
only bound and anchored, channels, anchor and verify point by their presence bits, a bound record's drift 0 and verify
point absent whatever the image holds, the three counts 0, no jam context. A bound count is raised or lowered by 1,
that of an absent channel not at all; the order handed over does what its own row does with it. -/
def Obligations.ExchangeEvents : Prop :=
  (∀ (s : State) (e : Exchange) (got : List Word), s.exch = some e → e.phase = .reading got →
    e.package + 64 ≤ s.windowSize →
    let image := got ++ Memory.readWords s.mem (e.package + 4 * got.length) (16 - got.length)
    let old := s.slot e.slot
    (old.state = .jamming → exec .exchangeReadDone s = .next (s.endExchange e .refusedBusy)) ∧
    (∀ code : Result, old.state ≠ .jamming → s.validateImage e.slot image = .error code →
      exec .exchangeReadDone s = .next (s.endExchange e code)) ∧
    (∀ d : Device, old.state ≠ .jamming → s.validateImage e.slot image = .ok d →
      let s1 := s.setSlot e.slot { d with held := old.held, lastResult := old.lastResult }
      let s2 : State := if old.boundTo = d.boundTo then s1 else (s1.lowerBound old.boundTo).raiseBound d.boundTo
      exec .exchangeReadDone s = .next { s2 with exch := some { e with phase := .writing e.package old.package } })) ∧
  (∀ (s : State) (e : Exchange) (a : Nat) (image : List Word), s.exch = some e → e.phase = .writing a image →
    a + 4 * image.length ≤ s.windowSize → Memory.wf s.mem = true →
    ∃ m : List Host.Cell, exec .exchangeWriteDone s = .next (State.endExchange { s with mem := m } e .done) ∧
      (∀ i < image.length, Memory.readWord m (a + 4 * i) = image.getD i 0) ∧
      (∀ x : Nat, x < a ∨ a + 4 * image.length ≤ x → Memory.read m x = Memory.read s.mem x)) ∧
  (∀ (s : State) (e : Exchange) (code : Result),
    let s1 : State :=
      { s.setSlot e.slot { s.slot e.slot with held := false, lastResult := some code } with exch := none }
    (e.dropped = false → s.endExchange e code = s1.report code) ∧
    (e.dropped = true → (∀ o, s.oe.step ≠ .held o) → s.endExchange e code = s1) ∧
    (∀ o : Order, e.dropped = true → s.oe.step = .held o → s.endExchange e code = rosterOrder o s1)) ∧
  (∀ (s : State) (i : Fin 48) (image : List Word),
    let tagged : Prop := image.getD 0 0 = 0xA5C30016
    let st := bits (image.getD 1 0) 2 0
    let before := bits (image.getD 1 0) 6 4
    let addr := bits (image.getD 1 0) 13 8
    let plain : Prop := tagged ∧ st ≠ 0 ∧ st ≠ 4 ∧ st ≠ 7 ∧ (st = 6 → before = 1 ∨ before = 2 ∨ before = 3 ∨ before = 5)
    (¬tagged ∨ st = 4 ∨ st = 7 → s.validateImage i image = .error .packageInvalid) ∧
    (tagged → st = 0 → s.validateImage i image = .ok Device.emptyRecord) ∧
    (tagged → st = 6 → ¬(before = 1 ∨ before = 2 ∨ before = 3 ∨ before = 5) →
      s.validateImage i image = .error .packageInvalid) ∧
    (plain → addr = 0 → s.validateImage i image = .error .packageInvalid) ∧
    (∀ j : Fin 48, plain → addr ≠ 0 → j ≠ i → (s.slot j).state ≠ .empty → (s.slot j).linkAddr = addr →
      s.validateImage i image = .error .refusedDuplicate) ∧
    (let w1 := image.getD 1 0
     let w3 := image.getD 3 0
     let word5 := bits (image.getD 5 0) 19 0
     let rate : Rate := ⟨bits (image.getD 2 0) 23 0, bits w3 15 0⟩
     let bound : Prop := bit w3 20 = true
     let anchored : Prop := bit w3 29 = true
     let offset : Int := (image.getD 7 0).toInt
     let drift : Int := (image.getD 6 0).toInt
     let tieAt (n : Nat) : Tie :=
       ⟨(image.getD n 0).toNat, (image.getD (n + 1) 0).toNat + 2 ^ 32 * (image.getD (n + 2) 0).toNat⟩
     let illegal : Prop :=
       rate.legal = false ∨ fmtOfCode (bits w1 27 24) = none ∨ word5 = 0 ∨ 1000000 < word5 ∨ bits w1 19 18 = 3 ∨
         (bits w1 17 16 = 3 ∧ bits w1 19 18 = 1)
     let unbindable : Prop := bound ∧ ∃ c : Fin 16, c.val = bits w3 19 16 ∧ (s.chan c).kind ≠ .picture
     let unanchored : Prop :=
       ((st = 2 ∨ st = 3 ∨ (st = 6 ∧ (before = 2 ∨ before = 3))) ∧ ¬anchored) ∨ (st = 1 ∧ anchored)
     let loose : Prop := ¬bound ∧ bit w3 30 = true ∧ ¬anchored
     let unplaced : Prop :=
       bound ∧ anchored ∧ ∃ c : Fin 16, c.val = bits w3 19 16 ∧
         (offset < 1 - ((s.chan c).cfg.fmt.fday : Int) / 2 ∨ ((s.chan c).cfg.fmt.fday : Int) / 2 < offset ∨
           (s.chan c).cur = none)
     let drifted : Prop := ¬bound ∧ (drift < -100000 ∨ 100000 < drift)
     plain → addr ≠ 0 → (∀ j : Fin 48, j ≠ i → (s.slot j).state ≠ .empty → (s.slot j).linkAddr ≠ addr) →
     (illegal ∨ unbindable ∨ unanchored ∨ loose ∨ unplaced ∨ drifted →
       s.validateImage i image = .error .packageInvalid) ∧
     (¬(illegal ∨ unbindable ∨ unanchored ∨ loose ∨ unplaced ∨ drifted) →
       ∃ d : Device, s.validateImage i image = .ok d ∧
         (d.state.code = st ∧ d.linkAddr = addr ∧ d.cls.code = bits w1 17 16 ∧ d.rate = rate ∧
           d.fmt.code = bits w1 27 24 ∧ d.pathDelay = bits (image.getD 4 0) 15 0 ∧ d.window = word5 ∧
           d.recovery.code = bits w1 19 18 ∧ d.protectedFlag = bit w1 20 ∧ d.dualTrack = bit w1 21 ∧
           d.driftClamped = bit w1 22 ∧ d.marksLogged.toNat = bits (image.getD 4 0) 31 16) ∧
         (d.good = 0 ∧ d.bad = 0 ∧ d.miss = 0 ∧ d.jam = none ∧ d.held = false ∧ d.lastResult = none) ∧
         d.before.map DevState.code = (if st = 6 then some before else none) ∧
         d.boundTo.map Fin.val = (if bound then some (bits w3 19 16) else none) ∧
         d.jamSource.map Fin.val = (if bit w3 28 = true then some (bits w3 27 24) else none) ∧
         d.anchor = (if anchored then some (tieAt 8) else none) ∧
         d.verify = (if ¬bound ∧ bit w3 30 = true then some (tieAt 11) else none) ∧
         d.drift = (if bound then 0 else drift) ∧
         d.offset = (if bound ∧ anchored then some offset else none)))) ∧
  [Recovery.noRecovery, .jam, .adopt].map Recovery.code = [0, 1, 2] ∧
  (∀ s : State, s.raiseBound none = s ∧ s.lowerBound none = s ∧
    ∀ c : Fin 16, s.raiseBound (some c) = s.setChan c { s.chan c with bound := (s.chan c).bound + 1 } ∧
      s.lowerBound (some c) = s.setChan c { s.chan c with bound := (s.chan c).bound - 1 }) ∧
  (∀ (s : State) (o : Order), s.exch = none →
    let t : State := { s with oe := { s.oe with step := .taken o } }
    (o.kind = .enrol → exec .enrol t = .next (rosterOrder o s)) ∧
    (o.kind = .setDevice → exec .setDevice t = .next (rosterOrder o s)) ∧
    (o.kind = .release → exec .release t = .next (rosterOrder o s)) ∧
    (o.kind = .adopt → exec .adopt t = .next (rosterOrder o s)) ∧
    (o.kind = .exchange → exec .exchange t = .next (rosterOrder o s)) ∧
    (o.kind = .jam → exec .jam t = .next (rosterOrder o s)))

/-- For every record that is well formed and not JAMMING, whose label indices lie below 2^32 and instants below 2^64,
whose address no other occupied slot holds, and whose bound channel, if any, is a PICTURE channel, with the label
offset, if present, in the range of R35 for its format and a current segment held: its 16-word outgoing image passes
every check of R115 at the slot and loads the record again, every field of it, but for the counts, which start at 0,
the hold and the last result code, which the slot keeps apart. So an EXCHANGE that parks a record and one that brings
it back restore it. The image of any record shows the last result code in word 14 and 0 in word 15; that of an EMPTY
one is the tag, the window 13,500 and that code, and 0 elsewhere. -/
def Obligations.PackageRoundTrip : Prop :=
  (∀ (s : State) (i : Fin 48) (d : Device), d.PartsWF → d.ValuesWF → d.state ≠ .jamming →
    (∀ t, d.anchor = some t → t.label < 2 ^ 32 ∧ t.st < 2 ^ 64) →
    (∀ t, d.verify = some t → t.label < 2 ^ 32 ∧ t.st < 2 ^ 64) →
    (∀ j : Fin 48, j ≠ i → (s.slot j).state ≠ .empty → (s.slot j).linkAddr ≠ d.linkAddr) →
    (∀ c : Fin 16, d.boundTo = some c → (s.chan c).kind = .picture ∧
      (∀ o : Int, d.offset = some o →
        1 - ((s.chan c).cfg.fmt.fday : Int) / 2 ≤ o ∧ o ≤ ((s.chan c).cfg.fmt.fday : Int) / 2 ∧
        (s.chan c).cur ≠ none)) →
    d.package.length = 16 ∧
    s.validateImage i d.package =
      .ok { d with held := false, good := 0, bad := 0, miss := 0, lastResult := none }) ∧
  (∀ d : Device,
    (d.package.getD 14 0).toNat = lastResultCode d.lastResult ∧ d.package.getD 15 0 = 0 ∧
    (d.state = .empty →
      d.package.map BitVec.toNat =
        [0xA5C30016, 0, 0, 0, 0, 13500, 0, 0, 0, 0, 0, 0, 0, 0, lastResultCode d.lastResult, 0]))

/-- Every step that answers a next state from a state whose device records are well formed keeps: a jam context exactly in
JAMMING; an anchor in SETTLING and LOCKED and none in ENROLLED, also for the state a jam remembers; a verify point
only with an anchor and never in a bound record; a label offset exactly in a bound record with an anchor; a state
before absence exactly in ABSENT, one of the four, SETTLING and LOCKED only with an anchor; the counts, the drift, the
window, the path delay, the rate, the label format and the address in their ranges; no SUITE with recovery JAM; an
EMPTY record with the values of one; and no link address in two occupied slots. -/
def Obligations.RosterInvariant : Prop :=
  ∀ s t : State, s.RosterWF → step s = .next t → t.RosterWF

/-- With a SET ACTION in hand: a kind above 15, a take step of 3, a watch count above 4, or among the first watch-count
channel numbers one above 15 or two equal terminates REFUSED RANGE and leaves the entry as it was. Otherwise the whole
entry of that kind becomes enabled flag, class mask, take step, the channels in the order given, and attention flag,
every other entry is unchanged, and it terminates DONE. With a SET TAKE in hand: a slate above 9,999 or a take above
999 terminates REFUSED RANGE and leaves the counter; otherwise both numbers are set and it terminates DONE. Neither
changes anything else: no record, no attention, no channel. After a SET TAKE of take 0, NEXT TAKE gives 1. A kind's
entry with an empty mask discards marks of a slot and logs host marks. The take steps (R137): NONE changes neither
number; NEXT TAKE raises the take by 1, and at 999 leaves it; NEXT SLATE raises the slate by 1, at 9,999 leaving it,
and sets the take to 1. -/
def Obligations.ActionAndTake : Prop :=
  (∀ (s : State) (o : Order), s.oe.step = .taken o → o.kind = .setAction →
    let listed : List Nat := channelBytes (o.p 3) (o.p 2).toNat
    let failed : Prop :=
      15 < (o.p 0).toNat ∨ bits (o.p 1) 5 4 = 3 ∨ 4 < (o.p 2).toNat ∨ (∃ n ∈ listed, 15 < n) ∨ ¬listed.Nodup
    (failed → exec .setAction s = .next { s with oe := { s.oe with step := .terminating [] .refusedRange 0 } }) ∧
    (∀ kind : Fin 16, ¬failed → (o.p 0).toNat = kind.val →
      ∃ (watch : List (Fin 16)) (step : TakeStep),
        watch.map Fin.val = listed ∧
        ((bits (o.p 1) 5 4 = 0 ∧ step = .none) ∨ (bits (o.p 1) 5 4 = 1 ∧ step = .nextTake) ∨
          (bits (o.p 1) 5 4 = 2 ∧ step = .nextSlate)) ∧
        exec .setAction s =
          .next
            { s with
              lu :=
                { s.lu with
                  actions :=
                    s.lu.actions.set kind.val
                      ⟨bit (o.p 1) 0, BitVec.ofNat 4 (bits (o.p 1) 11 8), step, watch, bit (o.p 1) 1⟩ kind.isLt }
              oe := { s.oe with step := .terminating [] .done 0 } })) ∧
  (∀ (s : State) (o : Order), s.oe.step = .taken o → o.kind = .setTake →
    (9999 < (o.p 0).toNat ∨ 999 < (o.p 1).toNat →
      exec .setTake s = .next { s with oe := { s.oe with step := .terminating [] .refusedRange 0 } }) ∧
    ((o.p 0).toNat ≤ 9999 → (o.p 1).toNat ≤ 999 →
      exec .setTake s =
        .next { s with lu := { s.lu with slate := (o.p 0).toNat, take := (o.p 1).toNat }
                       oe := { s.oe with step := .terminating [] .done 0 } })) ∧
  (∀ lu : LogUnit, lu.take = 0 → (lu.stepTake .nextTake).take = 1 ∧ (lu.stepTake .nextTake).slate = lu.slate) ∧
  (∀ (s : State) (kind : Fin 16), (s.lu.actions.get kind).enabled = true → (s.lu.actions.get kind).classMask = 0 →
    (∀ i label sub adjusted, s.markPasses kind (.slot i label sub adjusted) = false) ∧
    (∀ t, s.markPasses kind (.host t) = true)) ∧
  (∀ lu : LogUnit,
    lu.stepTake .none = lu ∧
    (lu.take < 999 → lu.stepTake .nextTake = { lu with take := lu.take + 1 }) ∧
    (lu.take = 999 → lu.stepTake .nextTake = lu) ∧
    (lu.slate < 9999 → lu.stepTake .nextSlate = { lu with slate := lu.slate + 1, take := 1 }) ∧
    (lu.slate = 9999 → lu.stepTake .nextSlate = { lu with take := 1 }))

/-- A record submitted with fewer than 64 queued joins the tail with the sequence counter's value and the lost-run count
as its lost-before; the run count becomes 0 and the counter advances; an IDLE page writer then chooses, and any other
is left as it is. With 64 queued the queue stays, the sequence number is used up, and the lost-run and lost-total
counts rise by 1. A system event is submitted as a SYSTEM record with ST, G, slate and take as they stand, carrying
the event. Whatever the queue's fill, a system event changes no channel, no device record, no time base or link item,
no memory and no take counter. -/
def Obligations.RecordSubmission : Prop :=
  (∀ (s : State) (r : TakeRecord), s.lu.queue.length < 64 →
    let joined : State :=
      { s with
        lu := { s.lu with queue := s.lu.queue ++ [{ r with seq := s.lu.seq, lostBefore := s.lu.lostRun }]
                          lostRun := 0, seq := s.lu.seq + 1 } }
    (s.pw.activity = .idle → State.submit r s = joined.choose false) ∧
    (s.pw.activity ≠ .idle → State.submit r s = joined)) ∧
  (∀ (s : State) (r : TakeRecord), 64 ≤ s.lu.queue.length →
    State.submit r s =
      { s with lu := { s.lu with seq := s.lu.seq + 1, lostRun := s.lu.lostRun + 1
                                 lostTotal := s.lu.lostTotal + 1 } }) ∧
  (∀ (s : State) (ev : SysEvent),
    State.sysEvent ev s =
      State.submit ⟨0, 0, .system ev, some s.tb.st, s.tb.gen, s.lu.slate, s.lu.take⟩ s ∧
    let t := State.sysEvent ev s
    t.tb = s.tb ∧ t.chans = s.chans ∧ t.slots = s.slots ∧ t.lc = s.lc ∧ t.exch = s.exch ∧ t.mem = s.mem ∧
      t.lu.slate = s.lu.slate ∧ t.lu.take = s.lu.take)

/-- With an INJECT MARK in hand: a kind above 15, or for the slot form a slot above 47 or a subframe above 255, terminates
REFUSED RANGE, an EMPTY slot REFUSED STATE, a label invalid in the slot's format REFUSED RANGE, changing nothing.
Otherwise it terminates DONE, with detail 2 and the discarded-mark count one more when the entry is off or, for a
slot, the class not in the mask; else the mark is logged, with detail 0, or 1 with 64 records queued. Logging steps
the take counter, stamps each listed channel with take stamping on with slate × 1,000 + take, submits a MARK record
with the kind, the source, label, studio time, flags, watch entries, G and the stepped counter, raises the slot's
marks-logged count, and raises MARK when the entry says so. A host mark has the ST given, no source, and only
REFERENCE NOT LOCKED among its flags. A REPORT's mark entry with a kind above 15 or a label invalid in the record's
format is discarded and counted; any other is discarded and counted, or logged, by the same tests, as a mark of the
slot with its label's index, a label that its drop-frame format skips being moved forward and carrying ADJUSTED. A
take-stamping request (R63): on a STOPPED or ARMED channel the user word replaces the record's; on a RUNNING one it
replaces the user word of a full staged set, whose other fields stay, or a staged user word, and with nothing staged
it is staged alone. Nothing else of the channel changes. -/
def Obligations.InjectMark : Prop :=
  (∀ (s : State) (o : Order), s.oe.step = .taken o → o.kind = .injectMark →
    let refused (code : Result) : State := { s with oe := { s.oe with step := .terminating [] code 0 } }
    (15 < (o.p 0).toNat → exec .injectMark s = .next (refused .refusedRange)) ∧
    (o.stForm = false → 47 < (o.p 1).toNat ∨ 255 < (o.p 3).toNat →
      exec .injectMark s = .next (refused .refusedRange)) ∧
    (∀ i : Fin 48, (o.p 0).toNat ≤ 15 → o.stForm = false → (o.p 1).toNat = i.val → (o.p 3).toNat ≤ 255 →
      (s.slot i).state = .empty → exec .injectMark s = .next (refused .refusedState)) ∧
    (∀ i : Fin 48, (o.p 0).toNat ≤ 15 → o.stForm = false → (o.p 1).toNat = i.val → (o.p 3).toNat ≤ 255 →
      (s.slot i).state ≠ .empty → (s.slot i).fmt.valid (labelOfWord (o.p 2)) = false →
      exec .injectMark s = .next (refused .refusedRange)) ∧
    (∀ (kind : Fin 16) (m : MarkOrigin), (o.p 0).toNat = kind.val →
      ((o.stForm = true ∧ m = .host ((o.p 1).toNat + 2 ^ 32 * (o.p 2).toNat)) ∨
        (o.stForm = false ∧ ∃ i : Fin 48, (o.p 1).toNat = i.val ∧ (o.p 3).toNat ≤ 255 ∧
          (s.slot i).state ≠ .empty ∧ (s.slot i).fmt.valid (labelOfWord (o.p 2)) = true ∧
          m = .slot i ((s.slot i).fmt.indexOf ((s.slot i).fmt.moved (labelOfWord (o.p 2)))) (o.p 3).toNat
            ((s.slot i).fmt.skipped (labelOfWord (o.p 2))))) →
      (s.markPasses kind m = false →
        exec .injectMark s =
          .next (State.report { s with lu := { s.lu with discarded := s.lu.discarded + 1 } } .done 2)) ∧
      (s.markPasses kind m = true →
        exec .injectMark s =
          .next (State.report (s.logMark kind m) .done (if s.lu.queue.length < 64 then 0 else 1))))) ∧
  (∀ (s : State) (kind : Fin 16) (i : Fin 48) (label sub : Nat) (adjusted : Bool),
    let a := s.lu.actions.get kind
    (s.markPasses kind (.slot i label sub adjusted) = true ↔
      a.enabled = true ∧ a.classMask.getLsbD (s.slot i).cls.code = true) ∧
    (∀ t, s.markPasses kind (.host t) = true ↔ a.enabled = true)) ∧
  (∀ (s : State) (kind : Fin 16) (m : MarkOrigin),
    let a := s.lu.actions.get kind
    let counter := s.lu.stepTake a.step
    let s1 : State := { s with lu := counter }
    let word : Word := BitVec.ofNat 32 (counter.slate * 1000 + counter.take)
    let s2 := a.watch.foldl
      (fun t c => if (t.chan c).cfg.stamping then t.setChan c ((t.chan c).stamp word) else t) s1
    let marked (t : State) : State := if a.attention then t.raise .mark else t
    (∀ t : Nat, m = .host t →
      s.logMark kind m =
        marked (State.submit
          ⟨0, 0, .mark kind none ⟨false, false, s.tb.ref != .locked, false, false, false, false, false⟩
            (a.watch.filterMap (fun c => watchEntry c (s2.chan c) t)),
            some t, s.tb.gen, counter.slate, counter.take⟩ s2)) ∧
    (∀ (i : Fin 48) (label sub : Nat) (adjusted : Bool), m = .slot i label sub adjusted →
      let tr := s2.translateSlot (s.slot i) label sub
      let s3 := State.submit
        ⟨0, 0, .mark kind (some ⟨i, (s.slot i).linkAddr, label, (s.slot i).fmt, sub⟩)
          (slotMarkFlags s.tb.ref (s.slot i) tr adjusted)
            (match tr.st with
              | some t => a.watch.filterMap (fun c => watchEntry c (s2.chan c) t)
              | none => []),
          tr.st, s.tb.gen, counter.slate, counter.take⟩ s2
      s.logMark kind m =
        marked (s3.setSlot i { s.slot i with marksLogged := (s.slot i).marksLogged + 1 }))) ∧
  (∀ (s : State) (i : Fin 48) (e : MarkEntry),
    let d := s.slot i
    let discarded : State := { s with lu := { s.lu with discarded := s.lu.discarded + 1 } }
    (15 < e.kind ∨ d.fmt.valid e.label = false → State.takeEntry i s e = discarded) ∧
    (∀ kind : Fin 16, e.kind = kind.val → d.fmt.valid e.label = true →
      let skipped : Prop := d.fmt.drop = true ∧ e.label.ss = 0 ∧ e.label.mm % 10 ≠ 0 ∧ e.label.ff < d.fmt.base.dropCount
      let mark (l : Label) (adjusted : Bool) : MarkOrigin := .slot i (d.fmt.indexOf l) e.sub adjusted
      let reached (m : MarkOrigin) : Prop :=
        (s.markPasses kind m = false → State.takeEntry i s e = discarded) ∧
        (s.markPasses kind m = true → State.takeEntry i s e = s.logMark kind m)
      (¬skipped → reached (mark e.label false)) ∧
      (skipped → reached (mark { e.label with ff := d.fmt.base.dropCount } true)))) ∧
  (∀ (ch : Channel) (w : Word),
    (ch.state = .stopped ∨ ch.state = .armed → ch.stamp w = { ch with cfg := { ch.cfg with userWord := w } }) ∧
    (ch.state = .running → ch.staged = none ∨ (∃ old, ch.staged = some (.user old)) →
      ch.stamp w = { ch with staged := some (.user w) }) ∧
    (∀ set : Settings, ch.state = .running → ch.staged = some (.full set) →
      ch.stamp w = { ch with staged := some (.full { set with userWord := w }) }))

/-- A TRANSLATE in hand changes nothing but the engine's step, which is TERMINATING. REFUSED RANGE, with no result words:
in the slot form a slot above 47 or a subframe above 255; a channel count above 4; among the channels listed one above
15 or two equal; then an EMPTY slot REFUSED STATE and a label invalid in its format REFUSED RANGE. Any other
terminates DONE with the words p5 to p15: ST low and high (0 when absent), G with the flags above it and the number of
watch entries above them, two words for each entry, zeros after them. The slot form takes the label, moved forward
when its drop-frame format skips it, and the subframe by State.translateSlot; the ST form the ST given, no flag but
REFERENCE NOT LOCKED. State.translateSlot: unbound by the anchor and drift (R37; clamped to 0 and 2^64 − 1), NO ANCHOR
without one; bound by label offset and channel: the index is the frame index plus δ((L − offset) mod Fday, label at
the frame index), its instant on the segment for that index with the subframe's share of a period, clamped at 0, STALE
by the segment, UNCERTAIN past the frame index; NO ANCHOR without offset or segment. An instant is given as such below
2^64 (log entry 4 past it). The flags are those of R143 and each has its bit. A watch entry: none for a channel with
no segment; otherwise channel, STALE by the segment chosen, STOPPED unless RUNNING, format, subframe, and the label
index of the edge at or before t, or for a SAMPLE channel the index itself, 0 with subframe 0 below 0. No studio time,
no entry. Stamping a channel moves no translation and no watch entry. -/
def Obligations.Translate : Prop :=
  (∀ (s : State) (o : Order), s.oe.step = .taken o → o.kind = .translate →
    let refused (code : Result) : State := { s with oe := { s.oe with step := .terminating [] code 0 } }
    let listed : List Nat := channelBytes (o.p 4) (o.p 3).toNat
    let outOfRange : Prop :=
      (o.stForm = false ∧ (47 < (o.p 0).toNat ∨ 255 < (o.p 2).toNat)) ∨ 4 < (o.p 3).toNat ∨
        (∃ n ∈ listed, 15 < n) ∨ ¬listed.Nodup
    let answered (st : Option Nat) (flags : Nat) (watch : List Watch) : State :=
      { s with
        oe :=
          { s.oe with
            step :=
              .terminating
                (wordsAt (s.oe.block + 36)
                  ([BitVec.ofNat 32 (st.getD 0), BitVec.ofNat 32 (st.getD 0 / 2 ^ 32),
                    BitVec.ofNat 32 (s.tb.gen.toNat + 2 ^ 16 * flags + 2 ^ 24 * watch.length)] ++
                    watch.flatMap Watch.words ++ List.replicate (8 - 2 * watch.length) 0)) .done 0 } }
    (outOfRange → exec .translate s = .next (refused .refusedRange)) ∧
    (∀ i : Fin 48, ¬outOfRange → o.stForm = false → (o.p 0).toNat = i.val →
      let d := s.slot i
      let l := labelOfWord (o.p 1)
      (d.state = .empty → exec .translate s = .next (refused .refusedState)) ∧
      (d.state ≠ .empty → d.fmt.valid l = false → exec .translate s = .next (refused .refusedRange)) ∧
      (d.state ≠ .empty → d.fmt.valid l = true →
        let tr := s.translateSlot d (d.fmt.indexOf (d.fmt.moved l)) (o.p 2).toNat
        ∃ chans : List (Fin 16), chans.map Fin.val = listed ∧
          exec .translate s =
            .next
              (answered tr.st (slotMarkFlags s.tb.ref d tr (d.fmt.skipped l)).byte
                (match tr.st with
                  | some t => chans.filterMap (fun c => watchEntry c (s.chan c) t)
                  | none => [])))) ∧
    (¬outOfRange → o.stForm = true →
      let t := (o.p 0).toNat + 2 ^ 32 * (o.p 1).toNat
      ∃ chans : List (Fin 16), chans.map Fin.val = listed ∧
        exec .translate s =
          .next
            (answered (some t) (if s.tb.ref = .locked then 0 else 4)
              (chans.filterMap (fun c => watchEntry c (s.chan c) t))))) ∧
  (∀ (s : State) (d : Device) (label sub : Nat),
    (d.boundTo = none → s.translateSlot d label sub = translateUnbound d label sub) ∧
    (∀ c : Fin 16, d.boundTo = some c →
      (d.offset = none → s.translateSlot d label sub = ⟨none, false, false, false⟩) ∧
      (∀ o : Int, d.offset = some o → s.translateSlot d label sub = translateBound (s.chan c) o label sub))) ∧
  (∀ (d : Device) (label sub : Nat),
    (d.anchor = none → translateUnbound d label sub = ⟨none, false, false, false⟩) ∧
    (∀ a : Tie, d.anchor = some a →
      let delta := labelDiff d.fmt.fday label a.label
      let t := anchorInstant d.fmt.fday d.rate a d.drift label sub
      t = a.st + (2 * ((256 * delta + sub) * d.rate.n * (1000000000 + d.drift)) + 256 * d.rate.d * 1000000000)
            / (2 * (256 * d.rate.d * 1000000000)) ∧
      (t < 0 → translateUnbound d label sub = ⟨some 0, true, false, false⟩) ∧
      (0 ≤ t → t < 2 ^ 64 → translateUnbound d label sub = ⟨some t.toNat, false, false, false⟩) ∧
      (2 ^ 64 ≤ t → translateUnbound d label sub = ⟨some (2 ^ 64 - 1), true, false, false⟩))) ∧
  (∀ (d : Device) (a : Tie), d.anchor = some a → d.rate.legal = true → a.st < 2 ^ 64 →
    translateUnbound d a.label 0 = ⟨some a.st, false, false, false⟩) ∧
  (∀ (fday : Nat) (rate : Rate) (a : Tie) (label sub : Nat), rate.legal = true →
    let n : Int := labelDiff fday label a.label
    2 * (anchorInstant fday rate a 0 label sub - a.st) * (256 * rate.d) ≤ 2 * (256 * n + sub) * rate.n + 256 * rate.d ∧
    2 * (256 * n + sub) * rate.n < 2 * (anchorInstant fday rate a 0 label sub - a.st) * (256 * rate.d) + 256 * rate.d) ∧
  (∀ (ch : Channel) (o : Int) (label sub : Nat),
    let fday : Int := (ch.cfg.fmt.fday : Int)
    let k := boundIndex ch o label
    k = ch.frame +
        labelDiff ch.cfg.fmt.fday (((label : Int) - o) % fday) ((((ch.cfg.start : Int) + ch.frame) % fday).toNat : Nat) ∧
    (ch.segmentForIndex k = none → translateBound ch o label sub = ⟨none, false, false, false⟩) ∧
    (∀ (g : Segment) (stale : Bool), ch.segmentForIndex k = some (g, stale) →
      let t : Int := g.instant k + ((2 * sub * g.rate.n + 256 * g.rate.d) / (512 * g.rate.d) : Nat)
      (t < 0 → translateBound ch o label sub = ⟨some 0, true, stale, decide ((ch.frame : Int) < k)⟩) ∧
      (0 ≤ t → t < 2 ^ 64 →
        translateBound ch o label sub = ⟨some t.toNat, false, stale, decide ((ch.frame : Int) < k)⟩))) ∧
  (∀ (ref : RefState) (d : Device) (tr : Translation) (adjusted : Bool),
    let f := slotMarkFlags ref d tr adjusted
    (f.noAnchor = true ↔ tr.st = none) ∧
    (f.uncertain = true ↔
      d.state = .settling ∨ d.state = .drifting ∨ d.state = .absent ∨ tr.uncertain = true ∨
        (d.state = .jamming ∧
          ∃ j, d.jam = some j ∧ (j.remembered = .settling ∨ j.remembered = .drifting))) ∧
    (f.refNotLocked = true ↔ ref ≠ .locked) ∧
    (f.driftClamped = true ↔ d.boundTo = none ∧ d.driftClamped = true) ∧
    (f.stClamped = true ↔ tr.clamped = true) ∧ (f.stale = true ↔ tr.stale = true) ∧
    (f.adjusted = true ↔ adjusted = true) ∧ (f.jamInProgress = true ↔ d.state = .jamming)) ∧
  (∀ f : MarkFlags, f.byte < 256 ∧
    f.byte.testBit 0 = f.noAnchor ∧ f.byte.testBit 1 = f.uncertain ∧ f.byte.testBit 2 = f.refNotLocked ∧
    f.byte.testBit 3 = f.driftClamped ∧ f.byte.testBit 4 = f.stClamped ∧ f.byte.testBit 5 = f.stale ∧
    f.byte.testBit 6 = f.adjusted ∧ f.byte.testBit 7 = f.jamInProgress) ∧
  (∀ (c : Fin 16) (ch : Channel) (t : Nat),
    (ch.segmentAt t = none → watchEntry c ch t = none) ∧
    (∀ (g : Segment) (stale : Bool), ch.segmentAt t = some (g, stale) →
      let k := g.edgeAt t
      let stopped : Bool := decide (ch.state ≠ .running)
      (ch.kind = .picture →
        watchEntry c ch t =
          some ⟨c, false, stale, stopped, ch.cfg.fmt, g.subframe t k,
            (((ch.cfg.start : Int) + k) % (ch.cfg.fmt.fday : Int)).toNat⟩) ∧
      (ch.kind = .sample → k < 0 → watchEntry c ch t = some ⟨c, true, stale, stopped, ch.cfg.fmt, 0, 0⟩) ∧
      (ch.kind = .sample → 0 ≤ k →
        watchEntry c ch t = some ⟨c, true, stale, stopped, ch.cfg.fmt, g.subframe t k, k.toNat⟩))) ∧
  (∀ (ch : Channel) (w : Word) (c : Fin 16) (o : Int) (label sub t : Nat),
    translateBound (ch.stamp w) o label sub = translateBound ch o label sub ∧
    watchEntry c (ch.stamp w) t = watchEntry c ch t)

/-- With a GIVE PAGES in hand: a count of 0 or above 32 terminates REFUSED RANGE and takes no address. Otherwise the
addresses are taken in the order given: one that is 0, no multiple of 1,024, outside the window, already in the stock,
that of the open page or of the page being claimed, or that finds 32 in the stock is skipped, any other joins the
tail; the order terminates DONE with the number taken as detail, and a STARVED writer that was given an address
chooses at once. With a FLUSH LOG in hand, and the flush set noted by the queue's tail: CLAIMING, WRITING and CLOSING
wait; IDLE with an empty queue ends DONE with detail 0 when the open page holds no record, and else closes it for the
flush; STARVED ends DONE with the number of records queued, their sequence numbers being distinct. The records of a
set still unwritten are those up to the noted tail. -/
def Obligations.PageOrders : Prop :=
  (∀ (s : State) (o : Order), s.oe.step = .taken o → o.kind = .givePages →
    let count := (o.p 0).toNat
    let stock := s.stockWith s.pw.stock (((o.params.drop 1).take count).map BitVec.toNat)
    let given : State :=
      { s with pw := { s.pw with stock := stock }
               oe := { s.oe with step := .terminating [] .done (stock.length - s.pw.stock.length) } }
    (count = 0 ∨ 32 < count →
      exec .givePages s = .next { s with oe := { s.oe with step := .terminating [] .refusedRange 0 } }) ∧
    (0 < count → count ≤ 32 →
      (s.pw.activity = .starved → s.pw.stock.length < stock.length →
        exec .givePages s = .next (given.choose false)) ∧
      (¬(s.pw.activity = .starved ∧ s.pw.stock.length < stock.length) → exec .givePages s = .next given))) ∧
  (∀ (s : State) (stock : List Nat), s.stockWith stock [] = stock) ∧
  (∀ (s : State) (stock rest : List Nat) (a : Nat),
    let skipped : Prop :=
      a = 0 ∨ a % 1024 ≠ 0 ∨ s.windowSize < a + 1024 ∨ a ∈ stock ∨ (∃ p, s.pw.page = some p ∧ p.addr = a) ∨
        (∃ cleared, s.pw.activity = .claiming a cleared) ∨ 32 ≤ stock.length
    (skipped → s.stockWith stock (a :: rest) = s.stockWith stock rest) ∧
    (¬skipped → s.stockWith stock (a :: rest) = s.stockWith (stock ++ [a]) rest)) ∧
  (∀ (s : State) (o : Order), s.oe.step = .taken o → o.kind = .flushLog →
    let noted : FlushSet := ⟨s.lu.queue.getLast?.map TakeRecord.seq, false⟩
    let kept : State := { s with pw := { s.pw with flush := some noted }, oe := { s.oe with step := .waiting .flushLog } }
    let ended (n : Nat) : State :=
      { s with pw := { s.pw with flush := none }, oe := { s.oe with step := .terminating [] .done n } }
    (s.pw.activity ≠ .idle → s.pw.activity ≠ .starved → exec .flushLog s = .next kept) ∧
    (s.pw.activity = .idle → s.lu.queue = [] →
      (∀ p, s.pw.page = some p → p.records = 0) → exec .flushLog s = .next (ended 0)) ∧
    (∀ p, s.pw.activity = .idle → s.lu.queue = [] → s.pw.page = some p → 0 < p.records →
      exec .flushLog s = .next { kept with pw := { kept.pw with activity := .closing .flush false } }) ∧
    (s.pw.activity = .starved → (s.lu.queue.map TakeRecord.seq).Nodup →
      exec .flushLog s = .next (ended s.lu.queue.length))) ∧
  (∀ queue : List TakeRecord, unwrittenUpTo none queue = 0) ∧
  (∀ (queue : List TakeRecord) (t : Word), (∀ r ∈ queue, r.seq ≠ t) → unwrittenUpTo (some t) queue = 0) ∧
  (∀ (queue : List TakeRecord) (n : Nat) (r : TakeRecord), (queue.map TakeRecord.seq).Nodup → queue[n]? = some r →
    unwrittenUpTo (some r.seq) queue = n + 1)

/-- The choice with no FLUSH LOG waiting: an empty queue gives IDLE; an open page gives WRITING when the head fits in the
252 words and CLOSING as full when it does not; with no open page the stock's head is claimed and leaves the stock,
STOCK being raised when fewer than 4 addresses are left; with an empty stock too the writer is STARVED and STOCK is
raised, except after an engine clear. With a FLUSH LOG waiting whose set is written: an open page with a record is
closed for the flush first; otherwise the order terminates DONE with detail 0 and the choice goes on. With a set not
written, the choice is the same as without it, but the entry into STARVED ends the order DONE with the number of
records unwritten. That STOCK of a claim is raised when the claim begins is the model's form (log entry 13). -/
def Obligations.PageWriterChoice : Prop :=
  (∀ (s : State) (afterClear : Bool), s.pw.flush = none →
    (s.lu.queue = [] → s.choose afterClear = { s with pw := { s.pw with activity := .idle } }) ∧
    (∀ (r : TakeRecord) (rest : List TakeRecord), s.lu.queue = r :: rest →
      (∀ p : OpenPage, s.pw.page = some p →
        (p.used + r.length ≤ 252 → s.choose afterClear = { s with pw := { s.pw with activity := .writing 0 } }) ∧
        (252 < p.used + r.length →
          s.choose afterClear = { s with pw := { s.pw with activity := .closing .full false } })) ∧
      (∀ (a : Nat) (stock : List Nat), s.pw.page = none → s.pw.stock = a :: stock →
        let claiming : State := { s with pw := { s.pw with activity := .claiming a false, stock := stock } }
        (stock.length < 4 → s.choose afterClear = claiming.raise .stock) ∧
        (4 ≤ stock.length → s.choose afterClear = claiming)) ∧
      (s.pw.page = none → s.pw.stock = [] →
        let starved : State := { s with pw := { s.pw with activity := .starved } }
        (afterClear = false → s.choose afterClear = starved.raise .stock) ∧
        (afterClear = true → s.choose afterClear = starved)))) ∧
  (∀ (s : State) (afterClear : Bool) (f : FlushSet), s.pw.flush = some f →
    let without : State := { s with pw := { s.pw with flush := none } }
    (unwrittenUpTo f.tail s.lu.queue = 0 →
      (∀ p : OpenPage, s.pw.page = some p → 0 < p.records →
        s.choose afterClear = { s with pw := { s.pw with activity := .closing .flush false } }) ∧
      ((∀ p : OpenPage, s.pw.page = some p → p.records = 0) →
        s.choose afterClear = (without.report .done).choose afterClear)) ∧
    (0 < unwrittenUpTo f.tail s.lu.queue →
      (s.pw.page.isSome = true ∨ s.pw.stock ≠ [] →
        s.choose afterClear =
          { without.choose afterClear with pw := { (without.choose afterClear).pw with flush := some f } }) ∧
      (s.pw.page = none → s.pw.stock = [] →
        s.choose afterClear = (without.choose afterClear).report .done (unwrittenUpTo f.tail s.lu.queue)))) ∧
  (∀ (s : State) (afterClear : Bool),
    let t := s.choose afterClear
    t.mem = s.mem ∧ t.lu = s.lu ∧ t.tb = s.tb ∧ t.chans = s.chans ∧ t.slots = s.slots ∧ t.pw.page = s.pw.page ∧
      t.pw.pageSeq = s.pw.pageSeq ∧ t.pw.refused = s.pw.refused)

/-- PAGE_CLAIM of a page in the window: an EMPTY state word gets FILLING, the page sequence counter, record count 0 and
the head's sequence number, the counter advances and the page is open with nothing used; the writer then chooses, or
closes the page at once after an engine clear; any other state word changes no byte, drops the address and counts it.
RECORD_WRITTEN, `made` words made before: the head's other words stand from the first word after the words used, the
header's record count is one more, the head leaves the queue and the writer chooses. PAGE_CLOSE_DONE: FULL stands in
the state word and no page is open; a full close raises PAGE, also one that an engine clear overtook, whose choice
then raises no STOCK (the model's reading, log entry 16); a flush close ends the FLUSH LOG DONE, or ABORTED after an
abort; then the writer chooses. The memory being in canonical form, every byte outside the words written reads as
before. A record's words: sequence number, lost-before; flags or detail byte, kind or subkind, entry count, bit 15 for
SYSTEM, G; slate, take and the source slot (63 for HOST) or source byte; a MARK's label and format, subframe and
address (0 for HOST), a SYSTEM's detail words; ST low and high (0 when absent); two words for each watch entry. Each
SYSTEM subkind has its detail byte, source byte and words 4 and 5 of R192, all as numbers in their fields. -/
def Obligations.PageWriterEvents : Prop :=
  (∀ (s : State) (a : Nat) (cleared : Bool), s.pw.activity = .claiming a cleared → s.isPage a = true →
    (Memory.readWord s.mem a ≠ 0 →
      exec .pageClaim s = .next (State.choose { s with pw := { s.pw with refused := s.pw.refused + 1 } } cleared)) ∧
    (∀ (r : TakeRecord) (rest : List TakeRecord), Memory.readWord s.mem a = 0 → s.lu.queue = r :: rest →
      Memory.wf s.mem = true →
      ∃ m : List Host.Cell,
        let opened : State :=
          { s with mem := m, pw := { s.pw with page := some ⟨a, s.pw.pageSeq, 0, 0⟩, pageSeq := s.pw.pageSeq + 1 } }
        (cleared = false → exec .pageClaim s = .next (opened.choose false)) ∧
        (cleared = true →
          exec .pageClaim s = .next { opened with pw := { opened.pw with activity := .closing .clear true } }) ∧
        Memory.readWord m a = 1 ∧ Memory.readWord m (a + 4) = s.pw.pageSeq ∧ Memory.readWord m (a + 8) = 0 ∧
        Memory.readWord m (a + 12) = r.seq ∧
        (∀ x : Nat, x < a ∨ a + 16 ≤ x → Memory.read m x = Memory.read s.mem x))) ∧
  (∀ (s : State) (p : OpenPage) (r : TakeRecord) (rest : List TakeRecord) (made : Nat),
    s.pw.activity = .writing made → s.pw.page = some p → s.lu.queue = r :: rest → s.isPage p.addr = true →
    p.used + r.length ≤ 252 → made ≤ r.length → Memory.wf s.mem = true →
    ∃ m : List Host.Cell,
      exec .recordWritten s =
        .next
          (State.choose
            { s with mem := m
                     pw := { s.pw with page := some { p with records := p.records + 1, used := p.used + r.length } }
                     lu := { s.lu with queue := rest } } false) ∧
      (∀ n : Nat, made ≤ n → n < r.length →
        Memory.readWord m (p.addr + 16 + 4 * (p.used + n)) = r.words.getD n 0) ∧
      Memory.readWord m (p.addr + 8) = BitVec.ofNat 32 (p.records + 1) ∧
      (∀ x : Nat, (x < p.addr + 8 ∨ p.addr + 12 ≤ x) →
        (x < p.addr + 16 + 4 * (p.used + made) ∨ p.addr + 16 + 4 * (p.used + r.length) ≤ x) →
        Memory.read m x = Memory.read s.mem x)) ∧
  (∀ (s : State) (p : OpenPage) (why : CloseWhy) (cleared : Bool), s.pw.activity = .closing why cleared →
    s.pw.page = some p → s.isPage p.addr = true → Memory.wf s.mem = true →
    ∃ m : List Host.Cell,
      let closed : State := { s with mem := m, pw := { s.pw with page := none } }
      let ended (code : Result) : State :=
        { closed with pw := { closed.pw with flush := none }, oe := { closed.oe with step := .terminating [] code 0 } }
      (why = .full → exec .pageCloseDone s = .next ((closed.raise .page).choose cleared)) ∧
      (why = .clear → exec .pageCloseDone s = .next (closed.choose true)) ∧
      (why = .flush → s.pw.flush = none → exec .pageCloseDone s = .next (closed.choose cleared)) ∧
      (∀ f : FlushSet, why = .flush → s.pw.flush = some f → f.aborted = false →
        exec .pageCloseDone s = .next ((ended .done).choose cleared)) ∧
      (∀ f : FlushSet, why = .flush → s.pw.flush = some f → f.aborted = true →
        exec .pageCloseDone s = .next ((ended .aborted).choose cleared)) ∧
      Memory.readWord m p.addr = 2 ∧
      (∀ x : Nat, x < p.addr ∨ p.addr + 4 ≤ x → Memory.read m x = Memory.read s.mem x)) ∧
  (∀ r : TakeRecord, r.words.length = r.length ∧ r.length = 8 + 2 * r.body.watch.length ∧
    r.words.getD 0 0 = r.seq ∧ r.words.getD 1 0 = r.lostBefore ∧
    r.words.getD 6 0 = BitVec.ofNat 32 (r.st.getD 0) ∧ r.words.getD 7 0 = BitVec.ofNat 32 (r.st.getD 0 / 2 ^ 32) ∧
    (∀ (n : Nat) (w : Watch), r.body.watch[n]? = some w →
      [r.words.getD (8 + 2 * n) 0, r.words.getD (9 + 2 * n) 0] = w.words)) ∧
  (∀ (r : TakeRecord) (kind : Fin 16) (source : Option MarkSource) (flags : MarkFlags) (watch : List Watch),
    r.body = .mark kind source flags watch → r.slate ≤ 9999 → r.take ≤ 999 → watch.length ≤ 4 →
    (r.words.getD 2 0).toNat = flags.byte + 2 ^ 8 * kind.val + 2 ^ 12 * watch.length + 2 ^ 16 * r.gen.toNat ∧
    (source = none →
      (r.words.getD 3 0).toNat = r.slate + 2 ^ 14 * r.take + 2 ^ 24 * 63 ∧ r.words.getD 4 0 = 0 ∧ r.words.getD 5 0 = 0) ∧
    (∀ m : MarkSource, source = some m → m.label < 2 ^ 23 → m.sub ≤ 255 → m.linkAddr ≤ 63 →
      (r.words.getD 3 0).toNat = r.slate + 2 ^ 14 * r.take + 2 ^ 24 * m.slot.val ∧
      (r.words.getD 4 0).toNat = m.label + 2 ^ 24 * m.fmt.code ∧
      (r.words.getD 5 0).toNat = m.sub + 2 ^ 8 * m.linkAddr)) ∧
  (∀ (r : TakeRecord) (ev : SysEvent), r.body = .system ev → r.slate ≤ 9999 → r.take ≤ 999 →
    let laid (subkind detail source word4 word5 : Nat) : Prop :=
      (r.words.getD 2 0).toNat = detail + 2 ^ 8 * subkind + 2 ^ 15 + 2 ^ 16 * r.gen.toNat ∧
        (r.words.getD 3 0).toNat = r.slate + 2 ^ 14 * r.take + 2 ^ 24 * source ∧
        (r.words.getD 4 0).toNat = word4 ∧ (r.words.getD 5 0).toNat = word5
    (∀ d : Nat, ev = .timeStep d → d < 2 ^ 32 → laid 1 0 63 d 0) ∧
    (∀ new old : RefState, ev = .referenceState new old → laid 2 (new.code + 4 * old.code) 63 0 0) ∧
    (∀ (i : Fin 48) (addr : Nat), addr ≤ 63 →
      (ev = .deviceState i addr .absent → laid 3 1 i.val 0 (2 ^ 8 * addr)) ∧
      (ev = .deviceState i addr .returned → laid 3 2 i.val 0 (2 ^ 8 * addr)) ∧
      (ev = .deviceState i addr .locked → laid 3 3 i.val 0 (2 ^ 8 * addr)) ∧
      (∀ (reason : DriftReason) (taken : RecoveryTaken), ev = .deviceState i addr (.drifting reason taken) →
        laid 3 (4 + 8 * reason.code + 32 * taken.code) i.val 0 (2 ^ 8 * addr)) ∧
      (∀ (o : JamOutcome) (origin : JamOrigin) (sets : Nat) (last : Option Nat) (left : DevState),
        ev = .jamOutcome i addr o origin sets last left → sets ≤ 4 → (∀ l, last = some l → l < 2 ^ 23) →
        laid 4 (o.code + 8 * origin.code + 16 * sets + (if last = none then 0 else 128)) i.val
          (last.getD 0 + 2 ^ 24 * left.code) (2 ^ 8 * addr))) ∧
    (∀ (c : Fin 16) (kind : ChannelEventKind),
      (ev = .channelEvent c kind none → laid 5 0 (c.val + 16 * kind.code) 0 0) ∧
      (∀ origin base : Nat, ev = .channelEvent c kind (some (origin, base)) →
        laid 5 (origin / 2 ^ 32 % 2 ^ 8) (c.val + 16 * kind.code + 64 + 128 * (origin / 2 ^ 40 % 2))
          (origin % 2 ^ 32) (base % 2 ^ 32)))) ∧
  ([RefState.free, .acquiring, .locked, .holdover].map RefState.code = [0, 1, 2, 3] ∧
    [DriftReason.inconsistent, .driftClamp, .channelStopped, .verifyError].map DriftReason.code = [0, 1, 2, 3] ∧
    [RecoveryTaken.none, .adopted, .jamStarted, .sourceUnusable].map RecoveryTaken.code = [0, 1, 2, 3] ∧
    [JamOutcome.done, .protectedDevice, .verifyError, .sourceStopped, .noAnswer, .abandoned].map JamOutcome.code =
      [0, 1, 2, 3, 4, 5] ∧
    [JamOrigin.order, .recovery].map JamOrigin.code = [0, 1] ∧
    [ChannelEventKind.start, .retime, .stop].map ChannelEventKind.code = [1, 2, 3]) ∧
  (∀ w : Watch, w.sub ≤ 255 → (w.sample = false → w.index < 2 ^ 23) →
    ∃ w0 w1 : Word, w.words = [w0, w1] ∧
      w0.toNat =
        w.chan.val + (if w.sample then 16 else 0) + (if w.stale then 32 else 0) + (if w.stopped then 64 else 0) +
          2 ^ 8 * (if w.sample then 0 else w.fmt.code) + 2 ^ 16 * w.sub + 2 ^ 24 * (w.index / 2 ^ 32 % 2 ^ 8) ∧
      w1.toNat = w.index % 2 ^ 32) ∧
  (∀ (s : State) (a : Nat), s.isPage a = true ↔ a ≠ 0 ∧ a % 1024 = 0 ∧ a + 1024 ≤ s.windowSize)

/-- If a step answers a next state, it keeps two properties, each by itself. The log unit: slate at most 9,999 and take at
most 999; each entry's watch list has at most 4 channels, none twice; the queue holds at most 64 records, each with at
most 4 watch entries; each queued record's sequence number is that of the record before it plus 1 plus its lost-before
count, and the sequence counter continues the tail by the lost-run count, modulo 2^32, so a receiver sees from the
records alone how many are missing. The page stock: at most 32 addresses, none twice, and neither the open page's nor
that of the page being claimed. -/
def Obligations.LogInvariant : Prop :=
  ∀ s t : State, step s = .next t → (s.lu.WF → t.lu.WF) ∧ (s.StockWF → t.StockWF)

/-- A non-zero multiple of 4 in IDLE makes it the head address, the state RUNNING, and begins the fetch there. A 0 in DONE
or STOPPED gives IDLE and head address 0. A 1 in RUNNING aborts: at a fetch before the header test has been passed, no
word of the block read yet, whatever its address, the chain ends STOPPED at once with no word written; at a fetch past
the test, or with an order not yet handed, ABORTED is to be terminated with; an image, a termination word or a link in
hand is finished and then the chain ends; a waiting JAM terminates ABORTED and the jam goes on, not waited for; an
EXCHANGE before its read ends ABORTED, one past it goes on; a FLUSH LOG terminates ABORTED and forgets its set, or
notes the abort when its close is being written. A second abort changes nothing. Any other write, 2 apart, changes
nothing but REFUSED, which is set. That the header test is passed with the first word's read is the model's form (log
entry 11), and so is what it does to an order not yet handed (log entry 12) and in a RUNNING chain with no step, which
no run reaches: nothing (log entry 24). A read of ORDER HEAD shows the chain state in bits 1:0 (0 IDLE, 1 RUNNING, 2
DONE, 3 STOPPED) and bits 31:2 of the head address above them. -/
def Obligations.OrderHeadWrites : Prop :=
  (∀ (s : State) (v : Word), v ≠ 0 → v.toNat % 4 = 0 → s.oe.chain = .idle →
    exec (.chainStart v) s =
      .next { s with oe := { s.oe with chain := .running, head := v.toNat, block := v.toNat, step := .fetching [] } }) ∧
  (∀ s : State, s.oe.chain = .done ∨ s.oe.chain = .stopped →
    exec .returnToIdle s = .next { s with oe := { s.oe with chain := .idle, head := 0 } }) ∧
  (∀ s : State, s.oe.chain = .running →
    let b := s.oe.block
    let stopping (t : State) : State := { t with oe := { t.oe with stopAfter := true } }
    let aborted (t : State) : State := { t with oe := { t.oe with step := .terminating [] .aborted 0, stopAfter := true } }
    (s.oe.stopAfter = true → exec .abort s = .next s) ∧
    (s.oe.stopAfter = false →
      (s.oe.step = .none → exec .abort s = .next s) ∧
      (∀ got, s.oe.step = .fetching got → (got = [] ∨ b = 0 ∨ b % 4 ≠ 0 ∨ s.windowSize < b + 16) →
        exec .abort s =
          .next { s with oe := { s.oe with chain := .stopped, block := 0, step := .none, stopAfter := false
                                           causes := s.oe.causes ||| 0x01 } }) ∧
      (∀ w params, s.oe.step = .fetching (w :: params) → b ≠ 0 → b % 4 = 0 → b + 16 ≤ s.windowSize →
        exec .abort s = .next (aborted s)) ∧
      (∀ o, s.oe.step = .taken o ∨ s.oe.step = .held o → exec .abort s = .next (aborted s)) ∧
      ((∃ a image, s.oe.step = .imaging a image) ∨ (∃ ws code n, s.oe.step = .terminating ws code n) ∨
          (∃ code, s.oe.step = .linking code) → exec .abort s = .next (stopping s)) ∧
      (∀ (i : Fin 48) (j : JamContext), s.oe.step = .waiting (.jam i) → (s.slot i).jam = some j →
        exec .abort s =
          .next
            (aborted
              (s.setSlot i
                { s.slot i with jam := some { j with waiting := false }, lastResult := some .aborted }))) ∧
      (∀ e : Exchange, s.oe.step = .waiting .exchange → s.exch = some e →
        (e.phase = .waitService → e.dropped = false →
          exec .abort s =
            .next
              (aborted
                { s.setSlot e.slot { s.slot e.slot with held := false, lastResult := some .aborted } with
                  exch := none })) ∧
        (e.phase ≠ .waitService → exec .abort s = .next (stopping s))) ∧
      (s.oe.step = .waiting .flushLog →
        (∀ cleared f, s.pw.activity = .closing .flush cleared → s.pw.flush = some f →
          exec .abort s = .next (stopping { s with pw := { s.pw with flush := some { f with aborted := true } } })) ∧
        ((∀ cleared, s.pw.activity ≠ .closing .flush cleared) →
          exec .abort s = .next (aborted { s with pw := { s.pw with flush := none } }))))) ∧
  (∀ s : State,
    let refused : State := { s with oe := { s.oe with causes := s.oe.causes ||| 0x40 } }
    (∀ v : Word, v ≠ 0 → v ≠ 1 → v ≠ 2 → v.toNat % 4 ≠ 0 ∨ s.oe.chain ≠ .idle →
      exec (.refusedOrderHeadWrite v) s = .next refused ∧ exec (.chainStart v) s = .next refused) ∧
    (s.oe.chain = .idle ∨ s.oe.chain = .running →
      exec .returnToIdle s = .next refused ∧ exec (.refusedOrderHeadWrite 0) s = .next refused) ∧
    (s.oe.chain ≠ .running → exec .abort s = .next refused ∧ exec (.refusedOrderHeadWrite 1) s = .next refused)) ∧
  (∀ s : State, s.orderHeadRead.toNat = s.oe.chain.code + 4 * (s.oe.head / 4 % 2 ^ 30)) ∧
  [ChainState.idle, .running, .done, .stopped].map ChainState.code = [0, 1, 2, 3]

/-- With every word that it may still write in the window, engine clear answers a state with the engine IDLE, head address
0, no block, no step, CLEARED alone set and the mask kept; the stock empty, no flush set, the page, its counters and
the queue kept, an open page being closed, a claim or close in progress going on as the writer's own; a STARVED writer
stays so and raises nothing (log entry 30). A waiting JAM is no longer waited for; an EXCHANGE before its read is gone
with its hold cleared, one past it is dropped and runs on; no other slot changes, nor the time base, channels, link,
log unit. A byte outside the words in progress, each a word of the engine's image, results or termination or a word of
the record being written, its page's record count not among them, reads as before, so the open page's header does
unless the engine writes there; and all of memory does with no write in progress. A write to ATTENTION clears each
cause whose bit is 1 and no other, sets none; a write to ATTENTION MASK replaces the mask by its low 8 bits; neither
changes anything else. A read of either shows the causes, or the mask, in bits 7:0 and 0 above. A cause that is raised
sets its bit, 0 CHAIN, 1 PAGE, 2 STOCK, 3 REFERENCE, 4 DEVICE, 5 MARK, 6 REFUSED, 7 CLEARED, and changes nothing else.
The interrupt line is asserted exactly when some cause is set whose mask bit is set. That the words made of a cut-off
operation are a free number is the model's form (log entry 14). -/
def Obligations.ClearAndAttention : Prop :=
  (∀ s : State, (∀ a ∈ s.clearAreas, a + 4 ≤ s.windowSize) →
    ∃ t : State, exec .engineClear s = .next t ∧
      t.oe = { s.oe with chain := .idle, head := 0, block := 0, step := .none, stopAfter := false, causes := 0x80 } ∧
      (t.tb = s.tb ∧ t.chans = s.chans ∧ t.lc = s.lc ∧ t.lu = s.lu ∧ t.straps = s.straps ∧ t.readData = s.readData ∧
        t.pending = s.pending) ∧
      (t.pw.stock = [] ∧ t.pw.flush = none ∧ t.pw.page = s.pw.page ∧ t.pw.pageSeq = s.pw.pageSeq ∧
        t.pw.refused = s.pw.refused) ∧
      (∀ p, s.pw.page = some p → s.pw.activity = .idle ∨ (∃ made, s.pw.activity = .writing made) →
        t.pw.activity = .closing .clear true) ∧
      (∀ a cleared, s.pw.activity = .claiming a cleared → t.pw.activity = .claiming a true) ∧
      (∀ cleared, s.pw.activity = .closing .full cleared → t.pw.activity = .closing .full true) ∧
      (∀ why cleared, s.pw.activity = .closing why cleared → why ≠ .full → t.pw.activity = .closing .clear true) ∧
      (s.pw.page = none → s.pw.activity = .idle ∨ s.pw.activity = .starved → t.pw.activity = s.pw.activity) ∧
      (∀ i : Fin 48, s.oe.step ≠ .waiting (.jam i) → s.oe.step ≠ .waiting .exchange → t.slot i = s.slot i) ∧
      (∀ (i : Fin 48) (j : JamContext), s.oe.step = .waiting (.jam i) → (s.slot i).jam = some j →
        t.exch = s.exch ∧ t.slot i = { s.slot i with jam := some { j with waiting := false } } ∧
          ∀ k : Fin 48, k ≠ i → t.slot k = s.slot k) ∧
      (∀ e : Exchange, s.oe.step = .waiting .exchange → s.exch = some e →
        (e.phase = .waitService → t.exch = none ∧ t.slot e.slot = { s.slot e.slot with held := false } ∧
          ∀ k : Fin 48, k ≠ e.slot → t.slot k = s.slot k) ∧
        (e.phase ≠ .waitService → t.exch = some { e with dropped := true } ∧ t.slots = s.slots)) ∧
      (s.oe.step ≠ .waiting .exchange → t.exch = s.exch) ∧
      (∀ x : Nat, (∀ a ∈ s.clearAreas, x < a ∨ a + 4 ≤ x) → Memory.read t.mem x = Memory.read s.mem x) ∧
      (∀ p, s.pw.page = some p → (∀ q ∈ s.engineWrites, q.1 + 4 ≤ p.addr ∨ p.addr + 16 ≤ q.1) →
        (∀ x : Nat, p.addr ≤ x → x < p.addr + 16 → Memory.read t.mem x = Memory.read s.mem x) ∧
        Memory.readWord t.mem (p.addr + 8) = Memory.readWord s.mem (p.addr + 8)) ∧
      (s.clearAreas = [] → t.mem = s.mem ∧ t.free = s.free)) ∧
  (∀ s : State,
    (∀ a ∈ s.clearAreas,
      (∃ q ∈ s.engineWrites, q.1 = a) ∨
      (∃ made p r rest, s.pw.activity = .writing made ∧ s.pw.page = some p ∧ s.lu.queue = r :: rest ∧
        ∃ k < r.length, made ≤ k ∧ a = p.addr + 16 + 4 * (p.used + k))) ∧
    (∀ q ∈ s.engineWrites,
      (q.1 = s.oe.block + 12 ∧ ∃ results code n, s.oe.step = .terminating results code n) ∨
      (∃ results code n, s.oe.step = .terminating results code n ∧ q ∈ results) ∨
      (∃ a image, s.oe.step = .imaging a image ∧ ∃ k < image.length, q.1 = a + 4 * k))) ∧
  (∀ (s : State) (v : Word), ∃ causes : BitVec 8,
    exec (.attentionWrite v) s = .next { s with oe := { s.oe with causes := causes } } ∧
    ∀ n < 8, causes.getLsbD n = (s.oe.causes.getLsbD n && !v.getLsbD n)) ∧
  (∀ (s : State) (v : Word), ∃ mask : BitVec 8,
    exec (.attentionMaskWrite v) s = .next { s with oe := { s.oe with mask := mask } } ∧
    ∀ n < 8, mask.getLsbD n = v.getLsbD n) ∧
  (∀ s : State, s.interruptLine = true ↔ ∃ n < 8, s.oe.causes.getLsbD n = true ∧ s.oe.mask.getLsbD n = true) ∧
  (∀ (s : State) (n : Nat),
    s.attentionRead.getLsbD n = (decide (n < 8) && s.oe.causes.getLsbD n) ∧
    s.attentionMaskRead.getLsbD n = (decide (n < 8) && s.oe.mask.getLsbD n)) ∧
  (∀ (s : State) (n : Nat) (c : Cause),
    [Cause.chain, .page, .stock, .reference, .device, .mark, .refused, .cleared][n]? = some c →
    ∃ causes : BitVec 8, s.raise c = { s with oe := { s.oe with causes := causes } } ∧
      ∀ k < 8, causes.getLsbD k = (s.oe.causes.getLsbD k || decide (k = n)))

/-- ORDER_FETCH, the words already read and the others as they stand being the block's: a block that is 0, misaligned or
not in the window ends the chain STOPPED; an unknown kind is to terminate REFUSED KIND and parameter words that do not
fit the window WINDOW FAULT, nothing written; else TAKEN is written and the order in hand has the kind, the three
flags and the parameter words. That a header test is failed and TAKEN written in this row, and that LINK_READ starts a
fetch at any other link, is the model's form (log entries 11 and 12). TERMINATION_WRITTEN: the result words still open
stand, then the termination word, code above detail, and the engine goes to LINKING, or the chain ends STOPPED after
an abort. LINK_READ: the next link for DONE and ACCEPTED, else the fault link; 0 ends the chain DONE or STOPPED, any
other starts a fetch; after an abort STOPPED. PASS terminates DONE. SNAPSHOT: WINDOW FAULT for a bad area, else an
image of 272 words is captured, its general section, channel summaries and slot summaries holding each field of R194
in its place with the value its owner holds, 0 elsewhere, an EMPTY slot only its last result code; SNAPSHOT_WRITTEN
puts what is left of it in the area, the result word 272 following. The memory being in canonical form, all other
bytes read as before. The codes are those of R188. An owner's report of a result, a detail and result words makes the
engine terminate with them, and an order kept makes it wait; neither changes anything else. Words laid from an address
stand at consecutive word addresses. -/
def Obligations.BlockSteps : Prop :=
  let ended (s : State) (e : ChainState) : State :=
    { s with oe := { s.oe with chain := e, block := 0, step := .none, stopAfter := false
                               causes := s.oe.causes ||| 0x01 } }
  let kinds : List (Nat × OrderKind × Nat) :=
    [(0x01, .pass, 0), (0x02, .snapshot, 2), (0x10, .setReference, 4), (0x20, .setChannel, 7),
      (0x21, .startChannel, 3), (0x22, .stopChannel, 1), (0x30, .enrol, 7), (0x31, .setDevice, 4),
      (0x32, .release, 1), (0x33, .adopt, 1), (0x34, .exchange, 2), (0x35, .jam, 3), (0x40, .setAction, 4),
      (0x41, .setTake, 2), (0x42, .injectMark, 4), (0x43, .translate, 16), (0x50, .givePages, 1),
      (0x51, .flushLog, 0)]
  (∀ (s : State) (got : List Word), s.oe.step = .fetching got →
    let b := s.oe.block
    let w := got.getD 0 (Memory.readWord s.mem b)
    let refused (code : Result) : State := { s with oe := { s.oe with step := .terminating [] code 0 } }
    (b = 0 ∨ b % 4 ≠ 0 ∨ s.windowSize < b + 16 → exec .orderFetch s = .next (ended s .stopped)) ∧
    (b ≠ 0 → b % 4 = 0 → b + 16 ≤ s.windowSize →
      ((∀ p ∈ kinds, w.toNat % 256 ≠ p.1) → exec .orderFetch s = .next (refused .refusedKind)) ∧
      (∀ p ∈ kinds, w.toNat % 256 = p.1 →
        let count := (got.getD 1 (Memory.readWord s.mem (b + 16))).toNat
        let n := if p.2.1 = .givePages ∧ 1 ≤ count ∧ count ≤ 32 then 1 + count else p.2.2
        (s.windowSize < b + 16 + 4 * n → exec .orderFetch s = .next (refused .windowFault)) ∧
        (b + 16 + 4 * n ≤ s.windowSize → Memory.wf s.mem = true →
          ∃ (m : List Host.Cell) (o : Order),
            exec .orderFetch s = .next { s with mem := m, oe := { s.oe with step := .taken o } } ∧
            o.kind = p.2.1 ∧ o.stForm = w.getLsbD 8 ∧ o.waitFlag = w.getLsbD 9 ∧ o.grid = w.getLsbD 10 ∧
            o.params.length = n ∧ (∀ k < n, o.p k = got.getD (k + 1) (Memory.readWord s.mem (b + 16 + 4 * k))) ∧
            Memory.readWord m (b + 12) = 0x00FF0000 ∧
            (∀ x : Nat, x < b + 12 ∨ b + 16 ≤ x → Memory.read m x = Memory.read s.mem x))))) ∧
  (∀ (s : State) (base : Nat) (ws : List Word) (code : Result) (detail : Nat),
    s.oe.step = .terminating (wordsAt base ws) code detail → s.oe.block + 16 ≤ base →
    base + 4 * ws.length ≤ s.windowSize → s.oe.block + 16 ≤ s.windowSize → detail < 65536 →
    Memory.wf s.mem = true →
    ∃ m : List Host.Cell,
      (s.oe.stopAfter = true → exec .terminationWritten s = .next (ended { s with mem := m } .stopped)) ∧
      (s.oe.stopAfter = false →
        exec .terminationWritten s = .next { s with mem := m, oe := { s.oe with step := .linking code } }) ∧
      (∀ n < ws.length, Memory.readWord m (base + 4 * n) = ws.getD n 0) ∧
      (Memory.readWord m (s.oe.block + 12)).toNat = code.code * 65536 + detail ∧
      (∀ x : Nat, (x < base ∨ base + 4 * ws.length ≤ x) → (x < s.oe.block + 12 ∨ s.oe.block + 16 ≤ x) →
        Memory.read m x = Memory.read s.mem x)) ∧
  (∀ (s : State) (code : Result), s.oe.step = .linking code → s.oe.block + 16 ≤ s.windowSize →
    let onward : Prop := code = .done ∨ code = .accepted
    let next := (Memory.readWord s.mem (s.oe.block + 4)).toNat
    let fault := (Memory.readWord s.mem (s.oe.block + 8)).toNat
    let fetch (a : Nat) : State := { s with oe := { s.oe with block := a, step := .fetching [] } }
    (s.oe.stopAfter = true → exec .linkRead s = .next (ended s .stopped)) ∧
    (s.oe.stopAfter = false → onward → next = 0 → exec .linkRead s = .next (ended s .done)) ∧
    (s.oe.stopAfter = false → onward → next ≠ 0 → exec .linkRead s = .next (fetch next)) ∧
    (s.oe.stopAfter = false → ¬onward → fault = 0 → exec .linkRead s = .next (ended s .stopped)) ∧
    (s.oe.stopAfter = false → ¬onward → fault ≠ 0 → exec .linkRead s = .next (fetch fault))) ∧
  (∀ (s : State) (o : Order), s.oe.step = .taken o → o.kind = .pass →
    exec .pass s = .next { s with oe := { s.oe with step := .terminating [] .done 0 } }) ∧
  (∀ (s : State) (o : Order), s.oe.step = .taken o → o.kind = .snapshot →
    let a := (o.p 0).toNat
    (a = 0 ∨ a % 4 ≠ 0 ∨ s.windowSize < a + 1088 →
      exec .snapshot s = .next { s with oe := { s.oe with step := .terminating [] .windowFault 0 } }) ∧
    (a ≠ 0 → a % 4 = 0 → a + 1088 ≤ s.windowSize →
      ∃ image : List Word, exec .snapshot s = .next { s with oe := { s.oe with step := .imaging a image } } ∧
        let word (n : Nat) : Nat := (image.getD n 0).toNat
        image.length = 272 ∧ image.getD 0 0 = BitVec.ofNat 32 s.tb.st ∧
        word 2 = s.tb.gen.toNat + 2 ^ 16 * s.tb.ref.code + 2 ^ 24 * (s.tb.qual % 2 ^ 5) ∧
        word 5 = s.lu.slate % 2 ^ 14 + 2 ^ 14 * (s.lu.take % 2 ^ 10) ∧
        word 6 = s.lu.queue.length % 2 ^ 7 + 2 ^ 16 * (s.pw.stock.length % 2 ^ 6) ∧ word 14 = 0 ∧ word 15 = 0 ∧
        image.getD 1 0 = BitVec.ofNat 32 (s.tb.st / 2 ^ 32) ∧ image.getD 3 0 = BitVec.ofInt 32 s.tb.trim ∧
        image.getD 4 0 = BitVec.ofInt 32 s.tb.slew ∧
        image.getD 7 0 = BitVec.ofNat 32 ((s.pw.page.map OpenPage.addr).getD 0) ∧
        image.getD 8 0 = s.lc.garbled ∧ image.getD 9 0 = s.lc.unknown ∧ image.getD 10 0 = s.lu.discarded ∧
        image.getD 11 0 = s.pw.refused ∧ image.getD 12 0 = s.lu.seq ∧ image.getD 13 0 = s.lu.lostTotal ∧
        (∀ c : Fin 16,
          let ch := s.chan c
          let state : Nat :=
            if ch.state = .stopped then 0 else if ch.state = .armed then 1 else if ch.stopPending then 3 else 2
          image.getD (16 + 4 * c.val) 0 = ch.cfg.userWord ∧
          word (17 + 4 * c.val) =
            ch.cfg.start % 2 ^ 23 + 2 ^ 23 * state + 2 ^ 25 * (if ch.kind = .sample then 1 else 0) +
              2 ^ 26 * (if ch.staged = none then 0 else 1) + 2 ^ 27 * (if ch.prior = none then 0 else 1) +
              2 ^ 28 * ch.cfg.fmt.code ∧
          word (18 + 4 * c.val) =
            ch.cfg.rate.n % 2 ^ 24 + 2 ^ 24 * (ch.bound % 2 ^ 6) + 2 ^ 30 * (if ch.cfg.labelOut then 1 else 0) ∧
          word (19 + 4 * c.val) = ch.cfg.rate.d % 2 ^ 16 + 2 ^ 16 * (ch.frame % 2 ^ 16)) ∧
        (∀ i : Fin 48,
          let d := s.slot i
          (d.state ≠ .empty →
            word (80 + 4 * i.val) =
              d.state.code + 2 ^ 3 * (if d.held then 1 else 0) + 2 ^ 4 * (d.linkAddr % 2 ^ 6) + 2 ^ 10 * d.cls.code +
                2 ^ 12 * (if d.driftClamped then 1 else 0) + 2 ^ 13 * (d.miss % 2 ^ 4) +
                2 ^ 17 * lastResultCode d.lastResult +
                (match d.state, d.jam with
                  | .jamming, some j => 2 ^ 22 * (j.retries % 2 ^ 2) + 2 ^ 24 * (j.reports % 2 ^ 3)
                  | _, _ => 0) ∧
            image.getD (81 + 4 * i.val) 0 = BitVec.ofInt 32 d.drift ∧
            image.getD (82 + 4 * i.val) 0 = d.marksLogged.setWidth 32 ∧ word (83 + 4 * i.val) = 0) ∧
          (d.state = .empty →
            word (80 + 4 * i.val) = 2 ^ 17 * lastResultCode d.lastResult ∧ word (81 + 4 * i.val) = 0 ∧
              word (82 + 4 * i.val) = 0 ∧ word (83 + 4 * i.val) = 0)))) ∧
  (∀ (s : State) (a : Nat) (image : List Word), s.oe.step = .imaging a image →
    a + 4 * image.length ≤ s.windowSize → Memory.wf s.mem = true →
    ∃ m : List Host.Cell,
      exec .snapshotWritten s =
        .next { s with mem := m, oe := { s.oe with step := .terminating [(s.oe.block + 20, 272)] .done 0 } } ∧
      (∀ n < image.length, Memory.readWord m (a + 4 * n) = image.getD n 0) ∧
      (∀ x : Nat, x < a ∨ a + 4 * image.length ≤ x → Memory.read m x = Memory.read s.mem x)) ∧
  (∀ c < 256, orderKindOfCode c = (kinds.find? (fun p => p.1 == c)).map (fun p => p.2.1)) ∧
  (∀ p ∈ kinds, p.2.1.paramWords = p.2.2) ∧
  ([Result.done, .accepted, .refusedState, .refusedRange, .refusedBusy, .refusedOccupied, .refusedDuplicate,
      .refusedBound, .refusedProtected, .refusedMismatch, .refusedClass, .refusedAbsent, .refusedKind, .windowFault,
      .packageInvalid, .verifyError, .noAnswer, .sourceStopped, .aborted, .protectedDevice].map Result.code =
        (List.range 20).map (· + 1) ∧
    lastResultCode none = 0 ∧ (∀ r : Result, lastResultCode (some r) = r.code) ∧
    [DevState.empty, .enrolled, .settling, .locked, .jamming, .drifting, .absent].map DevState.code = List.range 7 ∧
    [DevClass.camera, .recorder, .slate, .suite].map DevClass.code = [0, 1, 2, 3] ∧
    (∀ f : Fmt, f.code = f.base.code + (if f.drop then 8 else 0)) ∧
    [Base.b24, .b25, .b30, .b48, .b50, .b60].map Base.code = List.range 6) ∧
  (∀ (s : State) (code : Result) (detail : Nat) (results : List (Nat × Word)) (k : Kept),
    s.report code detail results = { s with oe := { s.oe with step := .terminating results code detail } } ∧
    s.keep k = { s with oe := { s.oe with step := .waiting k } }) ∧
  (∀ (m : List Host.Cell) (a n : Nat) (ws : List Word),
    (∀ i : Nat, (wordsAt a ws)[i]? = ws[i]?.map (fun w => (a + 4 * i, w))) ∧
    (∀ i < n, (Memory.readWords m a n)[i]? = some (Memory.readWord m (a + 4 * i))) ∧
    (Memory.readWords m a n).length = n)

/-- From every state whose memory is in canonical form, whose areas in hand lie in the window (the order block, the image
area, the package, the pages of the stock, the open page and the page being claimed, its counts fitting it), whose
page writer's activity agrees with page, stock and queue, whose engine has a step only in a RUNNING chain and whose
kept order is the one it waits for, every step answers a next state, whatever command is at the front; these four
properties hold in it again; and every byte at or past the end of the window, as it was sized before the step, reads
as before. -/
def Obligations.NoStepLeavesTheWindow : Prop :=
  ∀ s : State, Memory.wf s.mem = true → s.AreasWF → s.KeptWF →
    ∃ t : State, step s = .next t ∧ Memory.wf t.mem = true ∧ t.AreasWF ∧ t.KeptWF ∧
      ∀ x : Nat, s.windowSize ≤ x → Memory.read t.mem x = Memory.read s.mem x
end

