-- ==== Sys2Proof/Laws/Frames.lean ====
section
/-! SUPPORT. Frames: for each named operation over the state, the fields that it leaves unchanged, each as a simp lemma,
so that no later proof unfolds a record update to see that a field is untouched. -/

namespace Sys2Proof.Machine

@[simp] theorem State.setChan_frame (s : State) (c : Fin 16) (x : Channel) :
      (s.setChan c x).tb = s.tb ∧
      (s.setChan c x).lc = s.lc ∧
      (s.setChan c x).slots = s.slots ∧
      (s.setChan c x).exch = s.exch ∧
      (s.setChan c x).lu = s.lu ∧
      (s.setChan c x).pw = s.pw ∧
      (s.setChan c x).oe = s.oe ∧
      (s.setChan c x).mem = s.mem ∧
      (s.setChan c x).straps = s.straps ∧
      (s.setChan c x).readData = s.readData ∧
      (s.setChan c x).free = s.free ∧
      (s.setChan c x).pending = s.pending := by
  simp [State.setChan]

@[simp] theorem State.setSlot_frame (s : State) (i : Fin 48) (x : Device) :
      (s.setSlot i x).tb = s.tb ∧
      (s.setSlot i x).chans = s.chans ∧
      (s.setSlot i x).lc = s.lc ∧
      (s.setSlot i x).exch = s.exch ∧
      (s.setSlot i x).lu = s.lu ∧
      (s.setSlot i x).pw = s.pw ∧
      (s.setSlot i x).oe = s.oe ∧
      (s.setSlot i x).mem = s.mem ∧
      (s.setSlot i x).straps = s.straps ∧
      (s.setSlot i x).readData = s.readData ∧
      (s.setSlot i x).free = s.free ∧
      (s.setSlot i x).pending = s.pending := by
  simp [State.setSlot]

@[simp] theorem State.raise_frame (s : State) (c : Cause) :
      (s.raise c).tb = s.tb ∧
      (s.raise c).chans = s.chans ∧
      (s.raise c).lc = s.lc ∧
      (s.raise c).slots = s.slots ∧
      (s.raise c).exch = s.exch ∧
      (s.raise c).lu = s.lu ∧
      (s.raise c).pw = s.pw ∧
      (s.raise c).mem = s.mem ∧
      (s.raise c).straps = s.straps ∧
      (s.raise c).readData = s.readData ∧
      (s.raise c).free = s.free ∧
      (s.raise c).pending = s.pending := by
  simp [State.raise]

@[simp] theorem State.report_frame (s : State) (r : Result) (n : Nat) (ws : List (Nat × Word)) :
      (s.report r n ws).tb = s.tb ∧
      (s.report r n ws).chans = s.chans ∧
      (s.report r n ws).lc = s.lc ∧
      (s.report r n ws).slots = s.slots ∧
      (s.report r n ws).exch = s.exch ∧
      (s.report r n ws).lu = s.lu ∧
      (s.report r n ws).pw = s.pw ∧
      (s.report r n ws).mem = s.mem ∧
      (s.report r n ws).straps = s.straps ∧
      (s.report r n ws).readData = s.readData ∧
      (s.report r n ws).free = s.free ∧
      (s.report r n ws).pending = s.pending := by
  simp [State.report]

@[simp] theorem State.chainEnd_frame (s : State) (e : ChainState) :
      (s.chainEnd e).tb = s.tb ∧
      (s.chainEnd e).chans = s.chans ∧
      (s.chainEnd e).lc = s.lc ∧
      (s.chainEnd e).slots = s.slots ∧
      (s.chainEnd e).exch = s.exch ∧
      (s.chainEnd e).lu = s.lu ∧
      (s.chainEnd e).pw = s.pw ∧
      (s.chainEnd e).mem = s.mem ∧
      (s.chainEnd e).straps = s.straps ∧
      (s.chainEnd e).readData = s.readData ∧
      (s.chainEnd e).free = s.free ∧
      (s.chainEnd e).pending = s.pending := by
  simp [State.chainEnd]

@[simp] theorem State.keep_frame (s : State) (k : Kept) :
      (s.keep k).tb = s.tb ∧
      (s.keep k).chans = s.chans ∧
      (s.keep k).lc = s.lc ∧
      (s.keep k).slots = s.slots ∧
      (s.keep k).exch = s.exch ∧
      (s.keep k).lu = s.lu ∧
      (s.keep k).pw = s.pw ∧
      (s.keep k).mem = s.mem ∧
      (s.keep k).straps = s.straps ∧
      (s.keep k).readData = s.readData ∧
      (s.keep k).free = s.free ∧
      (s.keep k).pending = s.pending := by
  simp [State.keep]

@[simp] theorem State.setActivity_frame (s : State) (a : Activity) :
      (s.setActivity a).tb = s.tb ∧
      (s.setActivity a).chans = s.chans ∧
      (s.setActivity a).lc = s.lc ∧
      (s.setActivity a).slots = s.slots ∧
      (s.setActivity a).exch = s.exch ∧
      (s.setActivity a).lu = s.lu ∧
      (s.setActivity a).oe = s.oe ∧
      (s.setActivity a).mem = s.mem ∧
      (s.setActivity a).straps = s.straps ∧
      (s.setActivity a).readData = s.readData ∧
      (s.setActivity a).free = s.free ∧
      (s.setActivity a).pending = s.pending := by
  simp [State.setActivity]

@[simp] theorem State.setExchange_frame (s : State) (e : Option Exchange) :
      (s.setExchange e).tb = s.tb ∧
      (s.setExchange e).chans = s.chans ∧
      (s.setExchange e).lc = s.lc ∧
      (s.setExchange e).slots = s.slots ∧
      (s.setExchange e).lu = s.lu ∧
      (s.setExchange e).pw = s.pw ∧
      (s.setExchange e).oe = s.oe ∧
      (s.setExchange e).mem = s.mem ∧
      (s.setExchange e).straps = s.straps ∧
      (s.setExchange e).readData = s.readData ∧
      (s.setExchange e).free = s.free ∧
      (s.setExchange e).pending = s.pending := by
  simp [State.setExchange]

@[simp] theorem State.setLastResult_frame (s : State) (i : Fin 48) (r : Option Result) :
      (s.setLastResult i r).tb = s.tb ∧
      (s.setLastResult i r).chans = s.chans ∧
      (s.setLastResult i r).lc = s.lc ∧
      (s.setLastResult i r).exch = s.exch ∧
      (s.setLastResult i r).lu = s.lu ∧
      (s.setLastResult i r).pw = s.pw ∧
      (s.setLastResult i r).oe = s.oe ∧
      (s.setLastResult i r).mem = s.mem ∧
      (s.setLastResult i r).straps = s.straps ∧
      (s.setLastResult i r).readData = s.readData ∧
      (s.setLastResult i r).free = s.free ∧
      (s.setLastResult i r).pending = s.pending := by
  simp [State.setLastResult]

@[simp] theorem State.clearHold_frame (s : State) (i : Fin 48) :
      (s.clearHold i).tb = s.tb ∧
      (s.clearHold i).chans = s.chans ∧
      (s.clearHold i).lc = s.lc ∧
      (s.clearHold i).exch = s.exch ∧
      (s.clearHold i).lu = s.lu ∧
      (s.clearHold i).pw = s.pw ∧
      (s.clearHold i).oe = s.oe ∧
      (s.clearHold i).mem = s.mem ∧
      (s.clearHold i).straps = s.straps ∧
      (s.clearHold i).readData = s.readData ∧
      (s.clearHold i).free = s.free ∧
      (s.clearHold i).pending = s.pending := by
  simp [State.clearHold]

@[simp] theorem State.endFlush_frame (s : State) (r : Result) (n : Nat) :
      (s.endFlush r n).tb = s.tb ∧
      (s.endFlush r n).chans = s.chans ∧
      (s.endFlush r n).lc = s.lc ∧
      (s.endFlush r n).slots = s.slots ∧
      (s.endFlush r n).exch = s.exch ∧
      (s.endFlush r n).lu = s.lu ∧
      (s.endFlush r n).mem = s.mem ∧
      (s.endFlush r n).straps = s.straps ∧
      (s.endFlush r n).readData = s.readData ∧
      (s.endFlush r n).free = s.free ∧
      (s.endFlush r n).pending = s.pending := by
  simp [State.endFlush]

@[simp] theorem State.beginClaim_frame (s : State) (p : Nat) (l : List Nat) :
      (s.beginClaim p l).tb = s.tb ∧
      (s.beginClaim p l).chans = s.chans ∧
      (s.beginClaim p l).lc = s.lc ∧
      (s.beginClaim p l).slots = s.slots ∧
      (s.beginClaim p l).exch = s.exch ∧
      (s.beginClaim p l).lu = s.lu ∧
      (s.beginClaim p l).mem = s.mem ∧
      (s.beginClaim p l).straps = s.straps ∧
      (s.beginClaim p l).readData = s.readData ∧
      (s.beginClaim p l).free = s.free ∧
      (s.beginClaim p l).pending = s.pending := by
  unfold State.beginClaim
  try dsimp only
  (repeat' split) <;> simp

@[simp] theorem State.enterStarved_frame (s : State) (b : Bool) :
      (s.enterStarved b).tb = s.tb ∧
      (s.enterStarved b).chans = s.chans ∧
      (s.enterStarved b).lc = s.lc ∧
      (s.enterStarved b).slots = s.slots ∧
      (s.enterStarved b).exch = s.exch ∧
      (s.enterStarved b).lu = s.lu ∧
      (s.enterStarved b).mem = s.mem ∧
      (s.enterStarved b).straps = s.straps ∧
      (s.enterStarved b).readData = s.readData ∧
      (s.enterStarved b).free = s.free ∧
      (s.enterStarved b).pending = s.pending := by
  unfold State.enterStarved
  try dsimp only
  (repeat' split) <;> simp

@[simp] theorem State.chooseWork_frame (s : State) (b : Bool) :
      (s.chooseWork b).tb = s.tb ∧
      (s.chooseWork b).chans = s.chans ∧
      (s.chooseWork b).lc = s.lc ∧
      (s.chooseWork b).slots = s.slots ∧
      (s.chooseWork b).exch = s.exch ∧
      (s.chooseWork b).lu = s.lu ∧
      (s.chooseWork b).mem = s.mem ∧
      (s.chooseWork b).straps = s.straps ∧
      (s.chooseWork b).readData = s.readData ∧
      (s.chooseWork b).free = s.free ∧
      (s.chooseWork b).pending = s.pending := by
  unfold State.chooseWork
  try dsimp only
  (repeat' split) <;> simp

@[simp] theorem State.choose_frame (s : State) (b : Bool) :
      (s.choose b).tb = s.tb ∧
      (s.choose b).chans = s.chans ∧
      (s.choose b).lc = s.lc ∧
      (s.choose b).slots = s.slots ∧
      (s.choose b).exch = s.exch ∧
      (s.choose b).lu = s.lu ∧
      (s.choose b).mem = s.mem ∧
      (s.choose b).straps = s.straps ∧
      (s.choose b).readData = s.readData ∧
      (s.choose b).free = s.free ∧
      (s.choose b).pending = s.pending := by
  unfold State.choose
  try dsimp only
  (repeat' split) <;> simp

@[simp] theorem State.submit_frame (s : State) (r : TakeRecord) :
      (s.submit r).tb = s.tb ∧
      (s.submit r).chans = s.chans ∧
      (s.submit r).lc = s.lc ∧
      (s.submit r).slots = s.slots ∧
      (s.submit r).exch = s.exch ∧
      (s.submit r).mem = s.mem ∧
      (s.submit r).straps = s.straps ∧
      (s.submit r).readData = s.readData ∧
      (s.submit r).free = s.free ∧
      (s.submit r).pending = s.pending := by
  unfold State.submit
  try dsimp only
  (repeat' split) <;> simp

@[simp] theorem State.sysEvent_frame (s : State) (ev : SysEvent) :
      (s.sysEvent ev).tb = s.tb ∧
      (s.sysEvent ev).chans = s.chans ∧
      (s.sysEvent ev).lc = s.lc ∧
      (s.sysEvent ev).slots = s.slots ∧
      (s.sysEvent ev).exch = s.exch ∧
      (s.sysEvent ev).mem = s.mem ∧
      (s.sysEvent ev).straps = s.straps ∧
      (s.sysEvent ev).readData = s.readData ∧
      (s.sysEvent ev).free = s.free ∧
      (s.sysEvent ev).pending = s.pending := by
  simp [State.sysEvent]

@[simp] theorem State.stampChannels_frame (s : State) (w : Word) (cs : List (Fin 16)) :
      (s.stampChannels w cs).tb = s.tb ∧
      (s.stampChannels w cs).lc = s.lc ∧
      (s.stampChannels w cs).slots = s.slots ∧
      (s.stampChannels w cs).exch = s.exch ∧
      (s.stampChannels w cs).lu = s.lu ∧
      (s.stampChannels w cs).pw = s.pw ∧
      (s.stampChannels w cs).oe = s.oe ∧
      (s.stampChannels w cs).mem = s.mem ∧
      (s.stampChannels w cs).straps = s.straps ∧
      (s.stampChannels w cs).readData = s.readData ∧
      (s.stampChannels w cs).free = s.free ∧
      (s.stampChannels w cs).pending = s.pending := by
  induction cs generalizing s with
  | nil => simp [State.stampChannels]
  | cons c cs ih =>
    unfold State.stampChannels
    split <;> simp [ih]

@[simp] theorem State.discardMark_frame (s : State)  :
      (s.discardMark).tb = s.tb ∧
      (s.discardMark).chans = s.chans ∧
      (s.discardMark).lc = s.lc ∧
      (s.discardMark).slots = s.slots ∧
      (s.discardMark).exch = s.exch ∧
      (s.discardMark).pw = s.pw ∧
      (s.discardMark).oe = s.oe ∧
      (s.discardMark).mem = s.mem ∧
      (s.discardMark).straps = s.straps ∧
      (s.discardMark).readData = s.readData ∧
      (s.discardMark).free = s.free ∧
      (s.discardMark).pending = s.pending := by
  simp [State.discardMark]

@[simp] theorem State.countMark_frame (s : State) (m : MarkOrigin) :
      (s.countMark m).tb = s.tb ∧
      (s.countMark m).chans = s.chans ∧
      (s.countMark m).lc = s.lc ∧
      (s.countMark m).exch = s.exch ∧
      (s.countMark m).lu = s.lu ∧
      (s.countMark m).pw = s.pw ∧
      (s.countMark m).oe = s.oe ∧
      (s.countMark m).mem = s.mem ∧
      (s.countMark m).straps = s.straps ∧
      (s.countMark m).readData = s.readData ∧
      (s.countMark m).free = s.free ∧
      (s.countMark m).pending = s.pending := by
  unfold State.countMark
  try dsimp only
  (repeat' split) <;> simp

@[simp] theorem State.logMark_frame (s : State) (k : Fin 16) (m : MarkOrigin) :
      (s.logMark k m).tb = s.tb ∧
      (s.logMark k m).lc = s.lc ∧
      (s.logMark k m).exch = s.exch ∧
      (s.logMark k m).mem = s.mem ∧
      (s.logMark k m).straps = s.straps ∧
      (s.logMark k m).readData = s.readData ∧
      (s.logMark k m).free = s.free ∧
      (s.logMark k m).pending = s.pending := by
  unfold State.logMark
  try dsimp only
  (repeat' split) <;> simp

@[simp] theorem State.takeMark_frame (s : State) (k : Fin 16) (m : MarkOrigin) :
      (s.takeMark k m).tb = s.tb ∧
      (s.takeMark k m).lc = s.lc ∧
      (s.takeMark k m).exch = s.exch ∧
      (s.takeMark k m).mem = s.mem ∧
      (s.takeMark k m).straps = s.straps ∧
      (s.takeMark k m).readData = s.readData ∧
      (s.takeMark k m).free = s.free ∧
      (s.takeMark k m).pending = s.pending := by
  unfold State.takeMark
  try dsimp only
  (repeat' split) <;> simp

@[simp] theorem State.takeEntry_frame (i : Fin 48) (s : State) (e : MarkEntry) :
      (State.takeEntry i s e).tb = s.tb ∧
      (State.takeEntry i s e).lc = s.lc ∧
      (State.takeEntry i s e).exch = s.exch ∧
      (State.takeEntry i s e).mem = s.mem ∧
      (State.takeEntry i s e).straps = s.straps ∧
      (State.takeEntry i s e).readData = s.readData ∧
      (State.takeEntry i s e).free = s.free ∧
      (State.takeEntry i s e).pending = s.pending := by
  unfold State.takeEntry
  split <;> simp

@[simp] theorem State.urgentInsert_frame (s : State) (i : Fin 48) :
      (s.urgentInsert i).tb = s.tb ∧
      (s.urgentInsert i).chans = s.chans ∧
      (s.urgentInsert i).slots = s.slots ∧
      (s.urgentInsert i).exch = s.exch ∧
      (s.urgentInsert i).lu = s.lu ∧
      (s.urgentInsert i).pw = s.pw ∧
      (s.urgentInsert i).oe = s.oe ∧
      (s.urgentInsert i).mem = s.mem ∧
      (s.urgentInsert i).straps = s.straps ∧
      (s.urgentInsert i).readData = s.readData ∧
      (s.urgentInsert i).free = s.free ∧
      (s.urgentInsert i).pending = s.pending := by
  unfold State.urgentInsert
  try dsimp only
  (repeat' split) <;> simp

@[simp] theorem State.urgentRemove_frame (s : State) (i : Fin 48) :
      (s.urgentRemove i).tb = s.tb ∧
      (s.urgentRemove i).chans = s.chans ∧
      (s.urgentRemove i).slots = s.slots ∧
      (s.urgentRemove i).exch = s.exch ∧
      (s.urgentRemove i).lu = s.lu ∧
      (s.urgentRemove i).pw = s.pw ∧
      (s.urgentRemove i).oe = s.oe ∧
      (s.urgentRemove i).mem = s.mem ∧
      (s.urgentRemove i).straps = s.straps ∧
      (s.urgentRemove i).readData = s.readData ∧
      (s.urgentRemove i).free = s.free ∧
      (s.urgentRemove i).pending = s.pending := by
  simp [State.urgentRemove]

@[simp] theorem State.startJam_frame (s : State) (i : Fin 48) (c : Fin 16) (o : JamOrigin) (n : Nat) (b : Bool) :
      (s.startJam i c o n b).tb = s.tb ∧
      (s.startJam i c o n b).chans = s.chans ∧
      (s.startJam i c o n b).exch = s.exch ∧
      (s.startJam i c o n b).lu = s.lu ∧
      (s.startJam i c o n b).pw = s.pw ∧
      (s.startJam i c o n b).oe = s.oe ∧
      (s.startJam i c o n b).mem = s.mem ∧
      (s.startJam i c o n b).straps = s.straps ∧
      (s.startJam i c o n b).readData = s.readData ∧
      (s.startJam i c o n b).free = s.free ∧
      (s.startJam i c o n b).pending = s.pending := by
  simp [State.startJam]

@[simp] theorem State.recover_frame (s : State) (i : Fin 48) (t : RecoveryTaken) :
      (s.recover i t).tb = s.tb ∧
      (s.recover i t).chans = s.chans ∧
      (s.recover i t).exch = s.exch ∧
      (s.recover i t).lu = s.lu ∧
      (s.recover i t).pw = s.pw ∧
      (s.recover i t).oe = s.oe ∧
      (s.recover i t).mem = s.mem ∧
      (s.recover i t).straps = s.straps ∧
      (s.recover i t).readData = s.readData ∧
      (s.recover i t).free = s.free ∧
      (s.recover i t).pending = s.pending := by
  unfold State.recover
  try dsimp only
  (repeat' split) <;> simp

@[simp] theorem State.enterDrifting_frame (s : State) (i : Fin 48) (r : DriftReason) :
      (s.enterDrifting i r).tb = s.tb ∧
      (s.enterDrifting i r).chans = s.chans ∧
      (s.enterDrifting i r).exch = s.exch ∧
      (s.enterDrifting i r).mem = s.mem ∧
      (s.enterDrifting i r).straps = s.straps ∧
      (s.enterDrifting i r).readData = s.readData ∧
      (s.enterDrifting i r).free = s.free ∧
      (s.enterDrifting i r).pending = s.pending := by
  simp [State.enterDrifting]

@[simp] theorem State.enterAbsent_frame (s : State) (i : Fin 48) (b : DevState) :
      (s.enterAbsent i b).tb = s.tb ∧
      (s.enterAbsent i b).chans = s.chans ∧
      (s.enterAbsent i b).lc = s.lc ∧
      (s.enterAbsent i b).exch = s.exch ∧
      (s.enterAbsent i b).mem = s.mem ∧
      (s.enterAbsent i b).straps = s.straps ∧
      (s.enterAbsent i b).readData = s.readData ∧
      (s.enterAbsent i b).free = s.free ∧
      (s.enterAbsent i b).pending = s.pending := by
  simp [State.enterAbsent]

@[simp] theorem State.adoptReport_frame (s : State) (i : Fin 48) (l e : Nat) :
      (s.adoptReport i l e).tb = s.tb ∧
      (s.adoptReport i l e).chans = s.chans ∧
      (s.adoptReport i l e).lc = s.lc ∧
      (s.adoptReport i l e).exch = s.exch ∧
      (s.adoptReport i l e).lu = s.lu ∧
      (s.adoptReport i l e).pw = s.pw ∧
      (s.adoptReport i l e).oe = s.oe ∧
      (s.adoptReport i l e).mem = s.mem ∧
      (s.adoptReport i l e).straps = s.straps ∧
      (s.adoptReport i l e).readData = s.readData ∧
      (s.adoptReport i l e).free = s.free ∧
      (s.adoptReport i l e).pending = s.pending := by
  unfold State.adoptReport
  try dsimp only
  (repeat' split) <;> simp

@[simp] theorem State.jamStateRecords_frame (s : State) (i : Fin 48) (j : JamContext) (o : JamOutcome) :
      (s.jamStateRecords i j o).tb = s.tb ∧
      (s.jamStateRecords i j o).chans = s.chans ∧
      (s.jamStateRecords i j o).exch = s.exch ∧
      (s.jamStateRecords i j o).mem = s.mem ∧
      (s.jamStateRecords i j o).straps = s.straps ∧
      (s.jamStateRecords i j o).readData = s.readData ∧
      (s.jamStateRecords i j o).free = s.free ∧
      (s.jamStateRecords i j o).pending = s.pending := by
  unfold State.jamStateRecords
  try dsimp only
  (repeat' split) <;> simp

@[simp] theorem State.applyPendingDelay_frame (s : State) (i : Fin 48) (j : JamContext) :
      (s.applyPendingDelay i j).tb = s.tb ∧
      (s.applyPendingDelay i j).chans = s.chans ∧
      (s.applyPendingDelay i j).lc = s.lc ∧
      (s.applyPendingDelay i j).exch = s.exch ∧
      (s.applyPendingDelay i j).lu = s.lu ∧
      (s.applyPendingDelay i j).pw = s.pw ∧
      (s.applyPendingDelay i j).oe = s.oe ∧
      (s.applyPendingDelay i j).mem = s.mem ∧
      (s.applyPendingDelay i j).straps = s.straps ∧
      (s.applyPendingDelay i j).readData = s.readData ∧
      (s.applyPendingDelay i j).free = s.free ∧
      (s.applyPendingDelay i j).pending = s.pending := by
  unfold State.applyPendingDelay
  try dsimp only
  (repeat' split) <;> simp

@[simp] theorem State.deliverOutcome_frame (s : State) (i : Fin 48) (j : JamContext) (o : JamOutcome) :
      (s.deliverOutcome i j o).tb = s.tb ∧
      (s.deliverOutcome i j o).chans = s.chans ∧
      (s.deliverOutcome i j o).lc = s.lc ∧
      (s.deliverOutcome i j o).exch = s.exch ∧
      (s.deliverOutcome i j o).lu = s.lu ∧
      (s.deliverOutcome i j o).pw = s.pw ∧
      (s.deliverOutcome i j o).mem = s.mem ∧
      (s.deliverOutcome i j o).straps = s.straps ∧
      (s.deliverOutcome i j o).readData = s.readData ∧
      (s.deliverOutcome i j o).free = s.free ∧
      (s.deliverOutcome i j o).pending = s.pending := by
  unfold State.deliverOutcome
  try dsimp only
  (repeat' split) <;> simp

@[simp] theorem State.jamEnd_frame (s : State) (i : Fin 48) (o : JamOutcome) :
      (s.jamEnd i o).tb = s.tb ∧
      (s.jamEnd i o).chans = s.chans ∧
      (s.jamEnd i o).exch = s.exch ∧
      (s.jamEnd i o).mem = s.mem ∧
      (s.jamEnd i o).straps = s.straps ∧
      (s.jamEnd i o).readData = s.readData ∧
      (s.jamEnd i o).free = s.free ∧
      (s.jamEnd i o).pending = s.pending := by
  unfold State.jamEnd
  try dsimp only
  (repeat' split) <;> simp

@[simp] theorem State.jamAbandon_frame (s : State) (i : Fin 48) :
      (s.jamAbandon i).tb = s.tb ∧
      (s.jamAbandon i).chans = s.chans ∧
      (s.jamAbandon i).exch = s.exch ∧
      (s.jamAbandon i).mem = s.mem ∧
      (s.jamAbandon i).straps = s.straps ∧
      (s.jamAbandon i).readData = s.readData ∧
      (s.jamAbandon i).free = s.free ∧
      (s.jamAbandon i).pending = s.pending := by
  unfold State.jamAbandon
  try dsimp only
  (repeat' split) <;> simp

@[simp] theorem State.jamPass_frame (s : State) (i : Fin 48) (l e : Nat) :
      (s.jamPass i l e).tb = s.tb ∧
      (s.jamPass i l e).chans = s.chans ∧
      (s.jamPass i l e).exch = s.exch ∧
      (s.jamPass i l e).mem = s.mem ∧
      (s.jamPass i l e).straps = s.straps ∧
      (s.jamPass i l e).readData = s.readData ∧
      (s.jamPass i l e).free = s.free ∧
      (s.jamPass i l e).pending = s.pending := by
  simp [State.jamPass]

@[simp] theorem State.jamRetry_frame (s : State) (i : Fin 48) (j : JamContext) :
      (s.jamRetry i j).tb = s.tb ∧
      (s.jamRetry i j).chans = s.chans ∧
      (s.jamRetry i j).exch = s.exch ∧
      (s.jamRetry i j).lu = s.lu ∧
      (s.jamRetry i j).pw = s.pw ∧
      (s.jamRetry i j).oe = s.oe ∧
      (s.jamRetry i j).mem = s.mem ∧
      (s.jamRetry i j).straps = s.straps ∧
      (s.jamRetry i j).readData = s.readData ∧
      (s.jamRetry i j).free = s.free ∧
      (s.jamRetry i j).pending = s.pending := by
  simp [State.jamRetry]

@[simp] theorem State.jamFail_frame (s : State) (i : Fin 48) (j : JamContext) :
      (s.jamFail i j).tb = s.tb ∧
      (s.jamFail i j).chans = s.chans ∧
      (s.jamFail i j).exch = s.exch ∧
      (s.jamFail i j).mem = s.mem ∧
      (s.jamFail i j).straps = s.straps ∧
      (s.jamFail i j).readData = s.readData ∧
      (s.jamFail i j).free = s.free ∧
      (s.jamFail i j).pending = s.pending := by
  unfold State.jamFail
  try dsimp only
  (repeat' split) <;> simp

@[simp] theorem State.jamReport_frame (s : State) (i : Fin 48) (l e : Nat) :
      (s.jamReport i l e).tb = s.tb ∧
      (s.jamReport i l e).chans = s.chans ∧
      (s.jamReport i l e).exch = s.exch ∧
      (s.jamReport i l e).mem = s.mem ∧
      (s.jamReport i l e).straps = s.straps ∧
      (s.jamReport i l e).readData = s.readData ∧
      (s.jamReport i l e).free = s.free ∧
      (s.jamReport i l e).pending = s.pending := by
  unfold State.jamReport
  try dsimp only
  (repeat' split) <;> simp

@[simp] theorem State.consistentReport_frame (s : State) (i : Fin 48) (l e g : Nat) (b : Bool) :
      (s.consistentReport i l e g b).tb = s.tb ∧
      (s.consistentReport i l e g b).chans = s.chans ∧
      (s.consistentReport i l e g b).exch = s.exch ∧
      (s.consistentReport i l e g b).mem = s.mem ∧
      (s.consistentReport i l e g b).straps = s.straps ∧
      (s.consistentReport i l e g b).readData = s.readData ∧
      (s.consistentReport i l e g b).free = s.free ∧
      (s.consistentReport i l e g b).pending = s.pending := by
  unfold State.consistentReport
  try dsimp only
  (repeat' split) <;> simp

@[simp] theorem State.inconsistentReport_frame (s : State) (i : Fin 48) (l e : Nat) :
      (s.inconsistentReport i l e).tb = s.tb ∧
      (s.inconsistentReport i l e).chans = s.chans ∧
      (s.inconsistentReport i l e).exch = s.exch ∧
      (s.inconsistentReport i l e).mem = s.mem ∧
      (s.inconsistentReport i l e).straps = s.straps ∧
      (s.inconsistentReport i l e).readData = s.readData ∧
      (s.inconsistentReport i l e).free = s.free ∧
      (s.inconsistentReport i l e).pending = s.pending := by
  unfold State.inconsistentReport
  try dsimp only
  (repeat' split) <;> simp

@[simp] theorem State.testedReport_frame (s : State) (i : Fin 48) (l e : Nat) :
      (s.testedReport i l e).tb = s.tb ∧
      (s.testedReport i l e).chans = s.chans ∧
      (s.testedReport i l e).exch = s.exch ∧
      (s.testedReport i l e).mem = s.mem ∧
      (s.testedReport i l e).straps = s.straps ∧
      (s.testedReport i l e).readData = s.readData ∧
      (s.testedReport i l e).free = s.free ∧
      (s.testedReport i l e).pending = s.pending := by
  unfold State.testedReport
  try dsimp only
  (repeat' split) <;> simp

@[simp] theorem State.returnReport_frame (s : State) (i : Fin 48) (l e : Nat) :
      (s.returnReport i l e).tb = s.tb ∧
      (s.returnReport i l e).chans = s.chans ∧
      (s.returnReport i l e).exch = s.exch ∧
      (s.returnReport i l e).mem = s.mem ∧
      (s.returnReport i l e).straps = s.straps ∧
      (s.returnReport i l e).readData = s.readData ∧
      (s.returnReport i l e).free = s.free ∧
      (s.returnReport i l e).pending = s.pending := by
  unfold State.returnReport
  try dsimp only
  (repeat' split) <;> simp

@[simp] theorem State.reportUpdate_frame (s : State) (i : Fin 48) (r : Report) :
      (s.reportUpdate i r).tb = s.tb ∧
      (s.reportUpdate i r).chans = s.chans ∧
      (s.reportUpdate i r).exch = s.exch ∧
      (s.reportUpdate i r).mem = s.mem ∧
      (s.reportUpdate i r).straps = s.straps ∧
      (s.reportUpdate i r).readData = s.readData ∧
      (s.reportUpdate i r).free = s.free ∧
      (s.reportUpdate i r).pending = s.pending := by
  unfold State.reportUpdate
  try dsimp only
  (repeat' split) <;> simp

@[simp] theorem State.takeEntries_frame (i : Fin 48) (es : List MarkEntry) (s : State) :
      (es.foldl (State.takeEntry i) s).tb = s.tb ∧
      (es.foldl (State.takeEntry i) s).lc = s.lc ∧
      (es.foldl (State.takeEntry i) s).exch = s.exch ∧
      (es.foldl (State.takeEntry i) s).mem = s.mem ∧
      (es.foldl (State.takeEntry i) s).straps = s.straps ∧
      (es.foldl (State.takeEntry i) s).readData = s.readData ∧
      (es.foldl (State.takeEntry i) s).free = s.free ∧
      (es.foldl (State.takeEntry i) s).pending = s.pending := by
  induction es generalizing s with
  | nil => simp
  | cons e es ih => simp [ih]

@[simp] theorem State.reportArrival_frame (s : State) (i : Fin 48) (r : Report) :
      (s.reportArrival i r).tb = s.tb ∧
      (s.reportArrival i r).exch = s.exch ∧
      (s.reportArrival i r).mem = s.mem ∧
      (s.reportArrival i r).straps = s.straps ∧
      (s.reportArrival i r).readData = s.readData ∧
      (s.reportArrival i r).free = s.free ∧
      (s.reportArrival i r).pending = s.pending := by
  unfold State.reportArrival
  simp

@[simp] theorem State.deviceMiss_frame (s : State) (i : Fin 48) :
      (s.deviceMiss i).tb = s.tb ∧
      (s.deviceMiss i).chans = s.chans ∧
      (s.deviceMiss i).exch = s.exch ∧
      (s.deviceMiss i).mem = s.mem ∧
      (s.deviceMiss i).straps = s.straps ∧
      (s.deviceMiss i).readData = s.readData ∧
      (s.deviceMiss i).free = s.free ∧
      (s.deviceMiss i).pending = s.pending := by
  unfold State.deviceMiss
  try dsimp only
  (repeat' split) <;> simp

@[simp] theorem State.stopNoticeAt_frame (c : Fin 16) (s : State) (i : Fin 48) :
      (State.stopNoticeAt c s i).tb = s.tb ∧
      (State.stopNoticeAt c s i).chans = s.chans ∧
      (State.stopNoticeAt c s i).exch = s.exch ∧
      (State.stopNoticeAt c s i).mem = s.mem ∧
      (State.stopNoticeAt c s i).straps = s.straps ∧
      (State.stopNoticeAt c s i).readData = s.readData ∧
      (State.stopNoticeAt c s i).free = s.free ∧
      (State.stopNoticeAt c s i).pending = s.pending := by
  unfold State.stopNoticeAt
  try dsimp only
  (repeat' split) <;> simp

@[simp] theorem State.stopNotices_frame (c : Fin 16) (l : List (Fin 48)) (s : State) :
      (l.foldl (State.stopNoticeAt c) s).tb = s.tb ∧
      (l.foldl (State.stopNoticeAt c) s).chans = s.chans ∧
      (l.foldl (State.stopNoticeAt c) s).exch = s.exch ∧
      (l.foldl (State.stopNoticeAt c) s).mem = s.mem ∧
      (l.foldl (State.stopNoticeAt c) s).straps = s.straps ∧
      (l.foldl (State.stopNoticeAt c) s).readData = s.readData ∧
      (l.foldl (State.stopNoticeAt c) s).free = s.free ∧
      (l.foldl (State.stopNoticeAt c) s).pending = s.pending := by
  induction l generalizing s with
  | nil => simp
  | cons e es ih => simp [ih]

@[simp] theorem State.stopNotice_frame (s : State) (c : Fin 16) :
      (s.stopNotice c).tb = s.tb ∧
      (s.stopNotice c).chans = s.chans ∧
      (s.stopNotice c).exch = s.exch ∧
      (s.stopNotice c).mem = s.mem ∧
      (s.stopNotice c).straps = s.straps ∧
      (s.stopNotice c).readData = s.readData ∧
      (s.stopNotice c).free = s.free ∧
      (s.stopNotice c).pending = s.pending := by
  simp [State.stopNotice]

@[simp] theorem State.rosterStep_frame (s : State) (d : Nat) :
      (s.rosterStep d).tb = s.tb ∧
      (s.rosterStep d).chans = s.chans ∧
      (s.rosterStep d).lc = s.lc ∧
      (s.rosterStep d).exch = s.exch ∧
      (s.rosterStep d).lu = s.lu ∧
      (s.rosterStep d).pw = s.pw ∧
      (s.rosterStep d).oe = s.oe ∧
      (s.rosterStep d).mem = s.mem ∧
      (s.rosterStep d).straps = s.straps ∧
      (s.rosterStep d).readData = s.readData ∧
      (s.rosterStep d).free = s.free ∧
      (s.rosterStep d).pending = s.pending := by
  simp [State.rosterStep]

@[simp] theorem State.rosterReport_frame (s : State) (i : Fin 48) (r : Result) :
      (s.rosterReport i r).tb = s.tb ∧
      (s.rosterReport i r).chans = s.chans ∧
      (s.rosterReport i r).lc = s.lc ∧
      (s.rosterReport i r).exch = s.exch ∧
      (s.rosterReport i r).lu = s.lu ∧
      (s.rosterReport i r).pw = s.pw ∧
      (s.rosterReport i r).mem = s.mem ∧
      (s.rosterReport i r).straps = s.straps ∧
      (s.rosterReport i r).readData = s.readData ∧
      (s.rosterReport i r).free = s.free ∧
      (s.rosterReport i r).pending = s.pending := by
  simp [State.rosterReport]

@[simp] theorem State.raiseBound_frame (s : State) (c : Option (Fin 16)) :
      (s.raiseBound c).tb = s.tb ∧
      (s.raiseBound c).lc = s.lc ∧
      (s.raiseBound c).slots = s.slots ∧
      (s.raiseBound c).exch = s.exch ∧
      (s.raiseBound c).lu = s.lu ∧
      (s.raiseBound c).pw = s.pw ∧
      (s.raiseBound c).oe = s.oe ∧
      (s.raiseBound c).mem = s.mem ∧
      (s.raiseBound c).straps = s.straps ∧
      (s.raiseBound c).readData = s.readData ∧
      (s.raiseBound c).free = s.free ∧
      (s.raiseBound c).pending = s.pending := by
  unfold State.raiseBound
  try dsimp only
  (repeat' split) <;> simp

@[simp] theorem State.lowerBound_frame (s : State) (c : Option (Fin 16)) :
      (s.lowerBound c).tb = s.tb ∧
      (s.lowerBound c).lc = s.lc ∧
      (s.lowerBound c).slots = s.slots ∧
      (s.lowerBound c).exch = s.exch ∧
      (s.lowerBound c).lu = s.lu ∧
      (s.lowerBound c).pw = s.pw ∧
      (s.lowerBound c).oe = s.oe ∧
      (s.lowerBound c).mem = s.mem ∧
      (s.lowerBound c).straps = s.straps ∧
      (s.lowerBound c).readData = s.readData ∧
      (s.lowerBound c).free = s.free ∧
      (s.lowerBound c).pending = s.pending := by
  unfold State.lowerBound
  try dsimp only
  (repeat' split) <;> simp

@[simp] theorem State.emptySlot_frame (s : State) (i : Fin 48) :
      (s.emptySlot i).tb = s.tb ∧
      (s.emptySlot i).chans = s.chans ∧
      (s.emptySlot i).lc = s.lc ∧
      (s.emptySlot i).exch = s.exch ∧
      (s.emptySlot i).lu = s.lu ∧
      (s.emptySlot i).pw = s.pw ∧
      (s.emptySlot i).oe = s.oe ∧
      (s.emptySlot i).mem = s.mem ∧
      (s.emptySlot i).straps = s.straps ∧
      (s.emptySlot i).readData = s.readData ∧
      (s.emptySlot i).free = s.free ∧
      (s.emptySlot i).pending = s.pending := by
  simp [State.emptySlot]

@[simp] theorem enrolOrder_frame (o : Order) (s : State) :
      (enrolOrder o s).tb = s.tb ∧
      (enrolOrder o s).lc = s.lc ∧
      (enrolOrder o s).exch = s.exch ∧
      (enrolOrder o s).lu = s.lu ∧
      (enrolOrder o s).pw = s.pw ∧
      (enrolOrder o s).mem = s.mem ∧
      (enrolOrder o s).straps = s.straps ∧
      (enrolOrder o s).readData = s.readData ∧
      (enrolOrder o s).free = s.free ∧
      (enrolOrder o s).pending = s.pending := by
  unfold enrolOrder
  try dsimp only
  (repeat' split) <;> simp

@[simp] theorem setDeviceOrder_frame (o : Order) (s : State) :
      (setDeviceOrder o s).tb = s.tb ∧
      (setDeviceOrder o s).chans = s.chans ∧
      (setDeviceOrder o s).lc = s.lc ∧
      (setDeviceOrder o s).exch = s.exch ∧
      (setDeviceOrder o s).lu = s.lu ∧
      (setDeviceOrder o s).pw = s.pw ∧
      (setDeviceOrder o s).mem = s.mem ∧
      (setDeviceOrder o s).straps = s.straps ∧
      (setDeviceOrder o s).readData = s.readData ∧
      (setDeviceOrder o s).free = s.free ∧
      (setDeviceOrder o s).pending = s.pending := by
  unfold setDeviceOrder
  try dsimp only
  (repeat' split) <;> simp

@[simp] theorem releaseOrder_frame (o : Order) (s : State) :
      (releaseOrder o s).tb = s.tb ∧
      (releaseOrder o s).exch = s.exch ∧
      (releaseOrder o s).mem = s.mem ∧
      (releaseOrder o s).straps = s.straps ∧
      (releaseOrder o s).readData = s.readData ∧
      (releaseOrder o s).free = s.free ∧
      (releaseOrder o s).pending = s.pending := by
  unfold releaseOrder
  try dsimp only
  (repeat' split) <;> simp

@[simp] theorem adoptOrder_frame (o : Order) (s : State) :
      (adoptOrder o s).tb = s.tb ∧
      (adoptOrder o s).chans = s.chans ∧
      (adoptOrder o s).lc = s.lc ∧
      (adoptOrder o s).exch = s.exch ∧
      (adoptOrder o s).lu = s.lu ∧
      (adoptOrder o s).pw = s.pw ∧
      (adoptOrder o s).mem = s.mem ∧
      (adoptOrder o s).straps = s.straps ∧
      (adoptOrder o s).readData = s.readData ∧
      (adoptOrder o s).free = s.free ∧
      (adoptOrder o s).pending = s.pending := by
  unfold adoptOrder
  try dsimp only
  (repeat' split) <;> simp

@[simp] theorem jamOrder_frame (o : Order) (s : State) :
      (jamOrder o s).tb = s.tb ∧
      (jamOrder o s).chans = s.chans ∧
      (jamOrder o s).exch = s.exch ∧
      (jamOrder o s).lu = s.lu ∧
      (jamOrder o s).pw = s.pw ∧
      (jamOrder o s).mem = s.mem ∧
      (jamOrder o s).straps = s.straps ∧
      (jamOrder o s).readData = s.readData ∧
      (jamOrder o s).free = s.free ∧
      (jamOrder o s).pending = s.pending := by
  unfold jamOrder
  try dsimp only
  (repeat' split) <;> simp

@[simp] theorem exchangeOrder_frame (o : Order) (s : State) :
      (exchangeOrder o s).tb = s.tb ∧
      (exchangeOrder o s).chans = s.chans ∧
      (exchangeOrder o s).lc = s.lc ∧
      (exchangeOrder o s).lu = s.lu ∧
      (exchangeOrder o s).pw = s.pw ∧
      (exchangeOrder o s).mem = s.mem ∧
      (exchangeOrder o s).straps = s.straps ∧
      (exchangeOrder o s).readData = s.readData ∧
      (exchangeOrder o s).free = s.free ∧
      (exchangeOrder o s).pending = s.pending := by
  unfold exchangeOrder
  try dsimp only
  (repeat' split) <;> simp

@[simp] theorem rosterOrder_frame (o : Order) (s : State) :
      (rosterOrder o s).tb = s.tb ∧
      (rosterOrder o s).mem = s.mem ∧
      (rosterOrder o s).straps = s.straps ∧
      (rosterOrder o s).readData = s.readData ∧
      (rosterOrder o s).free = s.free ∧
      (rosterOrder o s).pending = s.pending := by
  unfold rosterOrder
  try dsimp only
  (repeat' split) <;> simp

@[simp] theorem State.handHeld_frame (s : State)  :
      (s.handHeld).tb = s.tb ∧
      (s.handHeld).mem = s.mem ∧
      (s.handHeld).straps = s.straps ∧
      (s.handHeld).readData = s.readData ∧
      (s.handHeld).free = s.free ∧
      (s.handHeld).pending = s.pending := by
  unfold State.handHeld
  try dsimp only
  (repeat' split) <;> simp

@[simp] theorem State.endExchange_frame (s : State) (e : Exchange) (r : Result) :
      (s.endExchange e r).tb = s.tb ∧
      (s.endExchange e r).mem = s.mem ∧
      (s.endExchange e r).straps = s.straps ∧
      (s.endExchange e r).readData = s.readData ∧
      (s.endExchange e r).free = s.free ∧
      (s.endExchange e r).pending = s.pending := by
  unfold State.endExchange
  try dsimp only
  (repeat' split) <;> simp

@[simp] theorem State.serviceEnded_frame (s : State) (i : Fin 48) :
      (s.serviceEnded i).tb = s.tb ∧
      (s.serviceEnded i).mem = s.mem ∧
      (s.serviceEnded i).straps = s.straps ∧
      (s.serviceEnded i).readData = s.readData ∧
      (s.serviceEnded i).free = s.free ∧
      (s.serviceEnded i).pending = s.pending := by
  unfold State.serviceEnded
  try dsimp only
  (repeat' split) <;> simp

@[simp] theorem State.swapBound_frame (s : State) (a b : Option (Fin 16)) :
      (s.swapBound a b).tb = s.tb ∧
      (s.swapBound a b).lc = s.lc ∧
      (s.swapBound a b).slots = s.slots ∧
      (s.swapBound a b).exch = s.exch ∧
      (s.swapBound a b).lu = s.lu ∧
      (s.swapBound a b).pw = s.pw ∧
      (s.swapBound a b).oe = s.oe ∧
      (s.swapBound a b).mem = s.mem ∧
      (s.swapBound a b).straps = s.straps ∧
      (s.swapBound a b).readData = s.readData ∧
      (s.swapBound a b).free = s.free ∧
      (s.swapBound a b).pending = s.pending := by
  unfold State.swapBound
  try dsimp only
  (repeat' split) <;> simp

@[simp] theorem State.exchangeSwap_frame (s : State) (e : Exchange) (d : Device) :
      (s.exchangeSwap e d).tb = s.tb ∧
      (s.exchangeSwap e d).lc = s.lc ∧
      (s.exchangeSwap e d).lu = s.lu ∧
      (s.exchangeSwap e d).pw = s.pw ∧
      (s.exchangeSwap e d).oe = s.oe ∧
      (s.exchangeSwap e d).mem = s.mem ∧
      (s.exchangeSwap e d).straps = s.straps ∧
      (s.exchangeSwap e d).readData = s.readData ∧
      (s.exchangeSwap e d).free = s.free ∧
      (s.exchangeSwap e d).pending = s.pending := by
  simp [State.exchangeSwap]

@[simp] theorem State.exchangeRead_frame (s : State) (e : Exchange) (got : List Word) :
      (s.exchangeRead e got).tb = s.tb ∧
      (s.exchangeRead e got).mem = s.mem ∧
      (s.exchangeRead e got).straps = s.straps ∧
      (s.exchangeRead e got).readData = s.readData ∧
      (s.exchangeRead e got).free = s.free ∧
      (s.exchangeRead e got).pending = s.pending := by
  unfold State.exchangeRead
  try dsimp only
  (repeat' split) <;> simp

@[simp] theorem State.retimeRecord_frame (s : State) (c : Fin 16) (x : Channel) :
      (s.retimeRecord c x).tb = s.tb ∧
      (s.retimeRecord c x).chans = s.chans ∧
      (s.retimeRecord c x).lc = s.lc ∧
      (s.retimeRecord c x).slots = s.slots ∧
      (s.retimeRecord c x).exch = s.exch ∧
      (s.retimeRecord c x).mem = s.mem ∧
      (s.retimeRecord c x).straps = s.straps ∧
      (s.retimeRecord c x).readData = s.readData ∧
      (s.retimeRecord c x).free = s.free ∧
      (s.retimeRecord c x).pending = s.pending := by
  unfold State.retimeRecord
  try dsimp only
  (repeat' split) <;> simp

@[simp] theorem State.stopChannel_frame (s : State) (c : Fin 16) :
      (s.stopChannel c).tb = s.tb ∧
      (s.stopChannel c).exch = s.exch ∧
      (s.stopChannel c).mem = s.mem ∧
      (s.stopChannel c).straps = s.straps ∧
      (s.stopChannel c).readData = s.readData ∧
      (s.stopChannel c).free = s.free ∧
      (s.stopChannel c).pending = s.pending := by
  simp [State.stopChannel]

@[simp] theorem State.emitEdge_frame (s : State) (c : Fin 16) (e : Nat) :
      (s.emitEdge c e).tb = s.tb ∧
      (s.emitEdge c e).exch = s.exch ∧
      (s.emitEdge c e).mem = s.mem ∧
      (s.emitEdge c e).straps = s.straps ∧
      (s.emitEdge c e).readData = s.readData ∧
      (s.emitEdge c e).free = s.free ∧
      (s.emitEdge c e).pending = s.pending := by
  unfold State.emitEdge
  try dsimp only
  (repeat' split) <;> simp

@[simp] theorem State.startRecord_frame (s : State) (c : Fin 16) (t : Nat) :
      (s.startRecord c t).tb = s.tb ∧
      (s.startRecord c t).chans = s.chans ∧
      (s.startRecord c t).lc = s.lc ∧
      (s.startRecord c t).slots = s.slots ∧
      (s.startRecord c t).exch = s.exch ∧
      (s.startRecord c t).mem = s.mem ∧
      (s.startRecord c t).straps = s.straps ∧
      (s.startRecord c t).readData = s.readData ∧
      (s.startRecord c t).free = s.free ∧
      (s.startRecord c t).pending = s.pending := by
  simp [State.startRecord]

@[simp] theorem State.armedStart_frame (s : State) (c : Fin 16) (t : Nat) :
      (s.armedStart c t).tb = s.tb ∧
      (s.armedStart c t).lc = s.lc ∧
      (s.armedStart c t).slots = s.slots ∧
      (s.armedStart c t).exch = s.exch ∧
      (s.armedStart c t).mem = s.mem ∧
      (s.armedStart c t).straps = s.straps ∧
      (s.armedStart c t).readData = s.readData ∧
      (s.armedStart c t).free = s.free ∧
      (s.armedStart c t).pending = s.pending := by
  simp [State.armedStart]

@[simp] theorem State.lateStart_frame (s : State) (c : Fin 16) (t : Nat) :
      (s.lateStart c t).tb = s.tb ∧
      (s.lateStart c t).lc = s.lc ∧
      (s.lateStart c t).slots = s.slots ∧
      (s.lateStart c t).exch = s.exch ∧
      (s.lateStart c t).mem = s.mem ∧
      (s.lateStart c t).straps = s.straps ∧
      (s.lateStart c t).readData = s.readData ∧
      (s.lateStart c t).free = s.free ∧
      (s.lateStart c t).pending = s.pending := by
  simp [State.lateStart]

@[simp] theorem State.skipEdges_frame (s : State) (c : Fin 16) (a b : Nat) :
      (s.skipEdges c a b).tb = s.tb ∧
      (s.skipEdges c a b).exch = s.exch ∧
      (s.skipEdges c a b).mem = s.mem ∧
      (s.skipEdges c a b).straps = s.straps ∧
      (s.skipEdges c a b).readData = s.readData ∧
      (s.skipEdges c a b).free = s.free ∧
      (s.skipEdges c a b).pending = s.pending := by
  unfold State.skipEdges
  try dsimp only
  (repeat' split) <;> simp

@[simp] theorem State.channelStep_frame (a b : Nat) (s : State) (c : Fin 16) :
      (State.channelStep a b s c).tb = s.tb ∧
      (State.channelStep a b s c).exch = s.exch ∧
      (State.channelStep a b s c).mem = s.mem ∧
      (State.channelStep a b s c).straps = s.straps ∧
      (State.channelStep a b s c).readData = s.readData ∧
      (State.channelStep a b s c).free = s.free ∧
      (State.channelStep a b s c).pending = s.pending := by
  unfold State.channelStep
  try dsimp only
  (repeat' split) <;> simp

@[simp] theorem State.channelSteps_frame (a b : Nat) (l : List (Fin 16)) (s : State) :
      (l.foldl (State.channelStep a b) s).tb = s.tb ∧
      (l.foldl (State.channelStep a b) s).exch = s.exch ∧
      (l.foldl (State.channelStep a b) s).mem = s.mem ∧
      (l.foldl (State.channelStep a b) s).straps = s.straps ∧
      (l.foldl (State.channelStep a b) s).readData = s.readData ∧
      (l.foldl (State.channelStep a b) s).free = s.free ∧
      (l.foldl (State.channelStep a b) s).pending = s.pending := by
  induction l generalizing s with
  | nil => simp
  | cons e es ih => simp [ih]

@[simp] theorem State.channelsStep_frame (s : State) (a b : Nat) :
      (s.channelsStep a b).tb = s.tb ∧
      (s.channelsStep a b).exch = s.exch ∧
      (s.channelsStep a b).mem = s.mem ∧
      (s.channelsStep a b).straps = s.straps ∧
      (s.channelsStep a b).readData = s.readData ∧
      (s.channelsStep a b).free = s.free ∧
      (s.channelsStep a b).pending = s.pending := by
  simp [State.channelsStep]

@[simp] theorem State.settleChannel_frame (s : State) (c : Fin 16) :
      (s.settleChannel c).tb = s.tb ∧
      (s.settleChannel c).exch = s.exch ∧
      (s.settleChannel c).mem = s.mem ∧
      (s.settleChannel c).straps = s.straps ∧
      (s.settleChannel c).readData = s.readData ∧
      (s.settleChannel c).free = s.free ∧
      (s.settleChannel c).pending = s.pending := by
  unfold State.settleChannel
  try dsimp only
  (repeat' split) <;> simp

@[simp] theorem State.settleEach_frame (l : List (Fin 16)) (s : State) :
      (l.foldl State.settleChannel s).tb = s.tb ∧
      (l.foldl State.settleChannel s).exch = s.exch ∧
      (l.foldl State.settleChannel s).mem = s.mem ∧
      (l.foldl State.settleChannel s).straps = s.straps ∧
      (l.foldl State.settleChannel s).readData = s.readData ∧
      (l.foldl State.settleChannel s).free = s.free ∧
      (l.foldl State.settleChannel s).pending = s.pending := by
  induction l generalizing s with
  | nil => simp
  | cons e es ih => simp [ih]

@[simp] theorem State.settleChannels_frame (s : State)  :
      (s.settleChannels).tb = s.tb ∧
      (s.settleChannels).exch = s.exch ∧
      (s.settleChannels).mem = s.mem ∧
      (s.settleChannels).straps = s.straps ∧
      (s.settleChannels).readData = s.readData ∧
      (s.settleChannels).free = s.free ∧
      (s.settleChannels).pending = s.pending := by
  simp [State.settleChannels]

@[simp] theorem setChannelOrder_frame (o : Order) (s : State) :
      (setChannelOrder o s).tb = s.tb ∧
      (setChannelOrder o s).lc = s.lc ∧
      (setChannelOrder o s).slots = s.slots ∧
      (setChannelOrder o s).exch = s.exch ∧
      (setChannelOrder o s).lu = s.lu ∧
      (setChannelOrder o s).pw = s.pw ∧
      (setChannelOrder o s).mem = s.mem ∧
      (setChannelOrder o s).straps = s.straps ∧
      (setChannelOrder o s).readData = s.readData ∧
      (setChannelOrder o s).free = s.free ∧
      (setChannelOrder o s).pending = s.pending := by
  unfold setChannelOrder
  try dsimp only
  (repeat' split) <;> simp

@[simp] theorem startChannelOrder_frame (o : Order) (s : State) :
      (startChannelOrder o s).tb = s.tb ∧
      (startChannelOrder o s).lc = s.lc ∧
      (startChannelOrder o s).slots = s.slots ∧
      (startChannelOrder o s).exch = s.exch ∧
      (startChannelOrder o s).mem = s.mem ∧
      (startChannelOrder o s).straps = s.straps ∧
      (startChannelOrder o s).readData = s.readData ∧
      (startChannelOrder o s).free = s.free ∧
      (startChannelOrder o s).pending = s.pending := by
  unfold startChannelOrder
  try dsimp only
  (repeat' split) <;> simp

@[simp] theorem stopChannelOrder_frame (o : Order) (s : State) :
      (stopChannelOrder o s).tb = s.tb ∧
      (stopChannelOrder o s).exch = s.exch ∧
      (stopChannelOrder o s).mem = s.mem ∧
      (stopChannelOrder o s).straps = s.straps ∧
      (stopChannelOrder o s).readData = s.readData ∧
      (stopChannelOrder o s).free = s.free ∧
      (stopChannelOrder o s).pending = s.pending := by
  unfold stopChannelOrder
  try dsimp only
  (repeat' split) <;> simp

@[simp] theorem State.refChanged_frame (s : State) (r : RefState) :
      (s.refChanged r).tb = s.tb ∧
      (s.refChanged r).chans = s.chans ∧
      (s.refChanged r).lc = s.lc ∧
      (s.refChanged r).slots = s.slots ∧
      (s.refChanged r).exch = s.exch ∧
      (s.refChanged r).mem = s.mem ∧
      (s.refChanged r).straps = s.straps ∧
      (s.refChanged r).readData = s.readData ∧
      (s.refChanged r).free = s.free ∧
      (s.refChanged r).pending = s.pending := by
  simp [State.refChanged]

@[simp] theorem State.enterAcquiring_frame (s : State) (t : Option Nat) :
      (s.enterAcquiring t).chans = s.chans ∧
      (s.enterAcquiring t).lc = s.lc ∧
      (s.enterAcquiring t).slots = s.slots ∧
      (s.enterAcquiring t).exch = s.exch ∧
      (s.enterAcquiring t).mem = s.mem ∧
      (s.enterAcquiring t).straps = s.straps ∧
      (s.enterAcquiring t).readData = s.readData ∧
      (s.enterAcquiring t).free = s.free ∧
      (s.enterAcquiring t).pending = s.pending := by
  simp [State.enterAcquiring]

@[simp] theorem State.announceStep_frame (s : State) (a d : Nat) :
      (s.announceStep a d).tb = s.tb ∧
      (s.announceStep a d).exch = s.exch ∧
      (s.announceStep a d).mem = s.mem ∧
      (s.announceStep a d).straps = s.straps ∧
      (s.announceStep a d).readData = s.readData ∧
      (s.announceStep a d).free = s.free ∧
      (s.announceStep a d).pending = s.pending := by
  simp [State.announceStep]

@[simp] theorem State.stepForward_frame (s : State) (a g : Nat) :
      (s.stepForward a g).exch = s.exch ∧
      (s.stepForward a g).mem = s.mem ∧
      (s.stepForward a g).straps = s.straps ∧
      (s.stepForward a g).readData = s.readData ∧
      (s.stepForward a g).free = s.free ∧
      (s.stepForward a g).pending = s.pending := by
  unfold State.stepForward
  try dsimp only
  simp

@[simp] theorem State.align_frame (s : State) (a : Nat) :
      (s.align a).exch = s.exch ∧
      (s.align a).mem = s.mem ∧
      (s.align a).straps = s.straps ∧
      (s.align a).readData = s.readData ∧
      (s.align a).free = s.free ∧
      (s.align a).pending = s.pending := by
  unfold State.align
  try dsimp only
  (repeat' split) <;> simp

@[simp] theorem State.edgeAcquiring_frame (s : State) (a : Nat) :
      (s.edgeAcquiring a).exch = s.exch ∧
      (s.edgeAcquiring a).mem = s.mem ∧
      (s.edgeAcquiring a).straps = s.straps ∧
      (s.edgeAcquiring a).readData = s.readData ∧
      (s.edgeAcquiring a).free = s.free ∧
      (s.edgeAcquiring a).pending = s.pending := by
  unfold State.edgeAcquiring
  try dsimp only
  (repeat' split) <;> simp

@[simp] theorem State.edgeMatched_frame (s : State) (a p : Nat) :
      (s.edgeMatched a p).chans = s.chans ∧
      (s.edgeMatched a p).lc = s.lc ∧
      (s.edgeMatched a p).slots = s.slots ∧
      (s.edgeMatched a p).exch = s.exch ∧
      (s.edgeMatched a p).mem = s.mem ∧
      (s.edgeMatched a p).straps = s.straps ∧
      (s.edgeMatched a p).readData = s.readData ∧
      (s.edgeMatched a p).free = s.free ∧
      (s.edgeMatched a p).pending = s.pending := by
  unfold State.edgeMatched
  try dsimp only
  (repeat' split) <;> simp

@[simp] theorem State.edgeLocked_frame (s : State) (a : Nat) :
      (s.edgeLocked a).chans = s.chans ∧
      (s.edgeLocked a).lc = s.lc ∧
      (s.edgeLocked a).slots = s.slots ∧
      (s.edgeLocked a).exch = s.exch ∧
      (s.edgeLocked a).mem = s.mem ∧
      (s.edgeLocked a).straps = s.straps ∧
      (s.edgeLocked a).readData = s.readData ∧
      (s.edgeLocked a).free = s.free ∧
      (s.edgeLocked a).pending = s.pending := by
  unfold State.edgeLocked
  try dsimp only
  (repeat' split) <;> simp

@[simp] theorem State.refMiss_frame (s : State)  :
      (s.refMiss).chans = s.chans ∧
      (s.refMiss).lc = s.lc ∧
      (s.refMiss).slots = s.slots ∧
      (s.refMiss).exch = s.exch ∧
      (s.refMiss).mem = s.mem ∧
      (s.refMiss).straps = s.straps ∧
      (s.refMiss).readData = s.readData ∧
      (s.refMiss).free = s.free ∧
      (s.refMiss).pending = s.pending := by
  unfold State.refMiss
  try dsimp only
  (repeat' split) <;> simp

@[simp] theorem State.settleMisses_frame (s : State) :
      (s.settleMisses).chans = s.chans ∧
      (s.settleMisses).lc = s.lc ∧
      (s.settleMisses).slots = s.slots ∧
      (s.settleMisses).exch = s.exch ∧
      (s.settleMisses).mem = s.mem ∧
      (s.settleMisses).straps = s.straps ∧
      (s.settleMisses).readData = s.readData ∧
      (s.settleMisses).free = s.free ∧
      (s.settleMisses).pending = s.pending := by
  unfold State.settleMisses
  try dsimp only
  (repeat' split) <;> simp

@[simp] theorem State.refEdge_frame (s : State) :
      (s.refEdge).exch = s.exch ∧
      (s.refEdge).mem = s.mem ∧
      (s.refEdge).straps = s.straps ∧
      (s.refEdge).readData = s.readData ∧
      (s.refEdge).free = s.free ∧
      (s.refEdge).pending = s.pending := by
  unfold State.refEdge
  try dsimp only
  (repeat' split) <;> simp

@[simp] theorem setReferenceOrder_frame (o : Order) (s : State) :
      (setReferenceOrder o s).chans = s.chans ∧
      (setReferenceOrder o s).lc = s.lc ∧
      (setReferenceOrder o s).slots = s.slots ∧
      (setReferenceOrder o s).exch = s.exch ∧
      (setReferenceOrder o s).mem = s.mem ∧
      (setReferenceOrder o s).straps = s.straps ∧
      (setReferenceOrder o s).readData = s.readData ∧
      (setReferenceOrder o s).free = s.free ∧
      (setReferenceOrder o s).pending = s.pending := by
  unfold setReferenceOrder
  try dsimp only
  (repeat' split) <;> simp

@[simp] theorem setActionOrder_frame (o : Order) (s : State) :
      (setActionOrder o s).tb = s.tb ∧
      (setActionOrder o s).chans = s.chans ∧
      (setActionOrder o s).lc = s.lc ∧
      (setActionOrder o s).slots = s.slots ∧
      (setActionOrder o s).exch = s.exch ∧
      (setActionOrder o s).pw = s.pw ∧
      (setActionOrder o s).mem = s.mem ∧
      (setActionOrder o s).straps = s.straps ∧
      (setActionOrder o s).readData = s.readData ∧
      (setActionOrder o s).free = s.free ∧
      (setActionOrder o s).pending = s.pending := by
  unfold setActionOrder
  try dsimp only
  (repeat' split) <;> simp

@[simp] theorem setTakeOrder_frame (o : Order) (s : State) :
      (setTakeOrder o s).tb = s.tb ∧
      (setTakeOrder o s).chans = s.chans ∧
      (setTakeOrder o s).lc = s.lc ∧
      (setTakeOrder o s).slots = s.slots ∧
      (setTakeOrder o s).exch = s.exch ∧
      (setTakeOrder o s).pw = s.pw ∧
      (setTakeOrder o s).mem = s.mem ∧
      (setTakeOrder o s).straps = s.straps ∧
      (setTakeOrder o s).readData = s.readData ∧
      (setTakeOrder o s).free = s.free ∧
      (setTakeOrder o s).pending = s.pending := by
  unfold setTakeOrder
  try dsimp only
  (repeat' split) <;> simp

@[simp] theorem injectMarkOrder_frame (o : Order) (s : State) :
      (injectMarkOrder o s).tb = s.tb ∧
      (injectMarkOrder o s).lc = s.lc ∧
      (injectMarkOrder o s).exch = s.exch ∧
      (injectMarkOrder o s).mem = s.mem ∧
      (injectMarkOrder o s).straps = s.straps ∧
      (injectMarkOrder o s).readData = s.readData ∧
      (injectMarkOrder o s).free = s.free ∧
      (injectMarkOrder o s).pending = s.pending := by
  unfold injectMarkOrder
  try dsimp only
  (repeat' split) <;> simp

@[simp] theorem translateOrder_frame (o : Order) (s : State) :
      (translateOrder o s).tb = s.tb ∧
      (translateOrder o s).chans = s.chans ∧
      (translateOrder o s).lc = s.lc ∧
      (translateOrder o s).slots = s.slots ∧
      (translateOrder o s).exch = s.exch ∧
      (translateOrder o s).lu = s.lu ∧
      (translateOrder o s).pw = s.pw ∧
      (translateOrder o s).mem = s.mem ∧
      (translateOrder o s).straps = s.straps ∧
      (translateOrder o s).readData = s.readData ∧
      (translateOrder o s).free = s.free ∧
      (translateOrder o s).pending = s.pending := by
  unfold translateOrder
  try dsimp only
  (repeat' split) <;> simp

@[simp] theorem givePagesOrder_frame (o : Order) (s : State) :
      (givePagesOrder o s).tb = s.tb ∧
      (givePagesOrder o s).chans = s.chans ∧
      (givePagesOrder o s).lc = s.lc ∧
      (givePagesOrder o s).slots = s.slots ∧
      (givePagesOrder o s).exch = s.exch ∧
      (givePagesOrder o s).lu = s.lu ∧
      (givePagesOrder o s).mem = s.mem ∧
      (givePagesOrder o s).straps = s.straps ∧
      (givePagesOrder o s).readData = s.readData ∧
      (givePagesOrder o s).free = s.free ∧
      (givePagesOrder o s).pending = s.pending := by
  unfold givePagesOrder
  try dsimp only
  (repeat' split) <;> simp

@[simp] theorem flushLogOrder_frame (o : Order) (s : State) :
      (flushLogOrder o s).tb = s.tb ∧
      (flushLogOrder o s).chans = s.chans ∧
      (flushLogOrder o s).lc = s.lc ∧
      (flushLogOrder o s).slots = s.slots ∧
      (flushLogOrder o s).exch = s.exch ∧
      (flushLogOrder o s).lu = s.lu ∧
      (flushLogOrder o s).mem = s.mem ∧
      (flushLogOrder o s).straps = s.straps ∧
      (flushLogOrder o s).readData = s.readData ∧
      (flushLogOrder o s).free = s.free ∧
      (flushLogOrder o s).pending = s.pending := by
  unfold flushLogOrder
  try dsimp only
  (repeat' split) <;> simp

@[simp] theorem State.send_frame (s : State) (p : LinkPhase) (cs : List Byte) :
      (s.send p cs).tb = s.tb ∧
      (s.send p cs).chans = s.chans ∧
      (s.send p cs).slots = s.slots ∧
      (s.send p cs).exch = s.exch ∧
      (s.send p cs).lu = s.lu ∧
      (s.send p cs).pw = s.pw ∧
      (s.send p cs).oe = s.oe ∧
      (s.send p cs).mem = s.mem ∧
      (s.send p cs).straps = s.straps ∧
      (s.send p cs).readData = s.readData ∧
      (s.send p cs).free = s.free ∧
      (s.send p cs).pending = s.pending := by
  simp [State.send]

@[simp] theorem State.sendCall_frame (s : State) (a : Nat) :
      (s.sendCall a).tb = s.tb ∧
      (s.sendCall a).chans = s.chans ∧
      (s.sendCall a).slots = s.slots ∧
      (s.sendCall a).exch = s.exch ∧
      (s.sendCall a).lu = s.lu ∧
      (s.sendCall a).pw = s.pw ∧
      (s.sendCall a).oe = s.oe ∧
      (s.sendCall a).mem = s.mem ∧
      (s.sendCall a).straps = s.straps ∧
      (s.sendCall a).readData = s.readData ∧
      (s.sendCall a).free = s.free ∧
      (s.sendCall a).pending = s.pending := by
  simp [State.sendCall]

@[simp] theorem State.setTurn_frame (s : State) (i : Fin 48) (j : JamContext) (a : Nat) :
      (s.setTurn i j a).tb = s.tb ∧
      (s.setTurn i j a).chans = s.chans ∧
      (s.setTurn i j a).exch = s.exch ∧
      (s.setTurn i j a).mem = s.mem ∧
      (s.setTurn i j a).straps = s.straps ∧
      (s.setTurn i j a).readData = s.readData ∧
      (s.setTurn i j a).free = s.free ∧
      (s.setTurn i j a).pending = s.pending := by
  unfold State.setTurn
  try dsimp only
  (repeat' split) <;> simp

@[simp] theorem State.beginTurn_frame (s : State) (i : Fin 48) (u : Bool) :
      (s.beginTurn i u).tb = s.tb ∧
      (s.beginTurn i u).chans = s.chans ∧
      (s.beginTurn i u).slots = s.slots ∧
      (s.beginTurn i u).exch = s.exch ∧
      (s.beginTurn i u).lu = s.lu ∧
      (s.beginTurn i u).pw = s.pw ∧
      (s.beginTurn i u).oe = s.oe ∧
      (s.beginTurn i u).mem = s.mem ∧
      (s.beginTurn i u).straps = s.straps ∧
      (s.beginTurn i u).readData = s.readData ∧
      (s.beginTurn i u).free = s.free ∧
      (s.beginTurn i u).pending = s.pending := by
  simp [State.beginTurn]

@[simp] theorem State.urgentTurn_frame (s : State) (i : Fin 48) :
      (s.urgentTurn i).tb = s.tb ∧
      (s.urgentTurn i).chans = s.chans ∧
      (s.urgentTurn i).exch = s.exch ∧
      (s.urgentTurn i).mem = s.mem ∧
      (s.urgentTurn i).straps = s.straps ∧
      (s.urgentTurn i).readData = s.readData ∧
      (s.urgentTurn i).free = s.free ∧
      (s.urgentTurn i).pending = s.pending := by
  unfold State.urgentTurn
  try dsimp only
  (repeat' split) <;> simp

@[simp] theorem State.rotationTurn_frame (s : State) (i : Fin 48) :
      (s.rotationTurn i).tb = s.tb ∧
      (s.rotationTurn i).chans = s.chans ∧
      (s.rotationTurn i).slots = s.slots ∧
      (s.rotationTurn i).exch = s.exch ∧
      (s.rotationTurn i).lu = s.lu ∧
      (s.rotationTurn i).pw = s.pw ∧
      (s.rotationTurn i).oe = s.oe ∧
      (s.rotationTurn i).mem = s.mem ∧
      (s.rotationTurn i).straps = s.straps ∧
      (s.rotationTurn i).readData = s.readData ∧
      (s.rotationTurn i).free = s.free ∧
      (s.rotationTurn i).pending = s.pending := by
  simp [State.rotationTurn]

@[simp] theorem State.takeTurn_frame (s : State)  :
      (s.takeTurn).tb = s.tb ∧
      (s.takeTurn).chans = s.chans ∧
      (s.takeTurn).exch = s.exch ∧
      (s.takeTurn).mem = s.mem ∧
      (s.takeTurn).straps = s.straps ∧
      (s.takeTurn).readData = s.readData ∧
      (s.takeTurn).free = s.free ∧
      (s.takeTurn).pending = s.pending := by
  unfold State.takeTurn
  try dsimp only
  (repeat' split) <;> simp

@[simp] theorem State.putBack_frame (s : State) (t : Turn) :
      (s.putBack t).tb = s.tb ∧
      (s.putBack t).chans = s.chans ∧
      (s.putBack t).slots = s.slots ∧
      (s.putBack t).exch = s.exch ∧
      (s.putBack t).lu = s.lu ∧
      (s.putBack t).pw = s.pw ∧
      (s.putBack t).oe = s.oe ∧
      (s.putBack t).mem = s.mem ∧
      (s.putBack t).straps = s.straps ∧
      (s.putBack t).readData = s.readData ∧
      (s.putBack t).free = s.free ∧
      (s.putBack t).pending = s.pending := by
  unfold State.putBack
  try dsimp only
  (repeat' split) <;> simp

@[simp] theorem State.endTurn_frame (s : State) (t : Turn) :
      (s.endTurn t).tb = s.tb ∧
      (s.endTurn t).mem = s.mem ∧
      (s.endTurn t).straps = s.straps ∧
      (s.endTurn t).readData = s.readData ∧
      (s.endTurn t).free = s.free ∧
      (s.endTurn t).pending = s.pending := by
  simp [State.endTurn]

@[simp] theorem State.deliverMiss_frame (s : State) (t : Turn) :
      (s.deliverMiss t).tb = s.tb ∧
      (s.deliverMiss t).chans = s.chans ∧
      (s.deliverMiss t).exch = s.exch ∧
      (s.deliverMiss t).mem = s.mem ∧
      (s.deliverMiss t).straps = s.straps ∧
      (s.deliverMiss t).readData = s.readData ∧
      (s.deliverMiss t).free = s.free ∧
      (s.deliverMiss t).pending = s.pending := by
  unfold State.deliverMiss
  try dsimp only
  (repeat' split) <;> simp

@[simp] theorem State.answerDelivery_frame (s : State) (t : Turn) (a : Nat) (g : BitVec 16) (cs : List RxChar) (q : Bool) :
      (s.answerDelivery t a g cs q).tb = s.tb ∧
      (s.answerDelivery t a g cs q).exch = s.exch ∧
      (s.answerDelivery t a g cs q).mem = s.mem ∧
      (s.answerDelivery t a g cs q).straps = s.straps ∧
      (s.answerDelivery t a g cs q).readData = s.readData ∧
      (s.answerDelivery t a g cs q).free = s.free ∧
      (s.answerDelivery t a g cs q).pending = s.pending := by
  unfold State.answerDelivery
  try dsimp only
  (repeat' split) <;> simp

@[simp] theorem State.beginFetch_frame (s : State) (b : Nat) :
      (s.beginFetch b).tb = s.tb ∧
      (s.beginFetch b).chans = s.chans ∧
      (s.beginFetch b).lc = s.lc ∧
      (s.beginFetch b).slots = s.slots ∧
      (s.beginFetch b).exch = s.exch ∧
      (s.beginFetch b).lu = s.lu ∧
      (s.beginFetch b).pw = s.pw ∧
      (s.beginFetch b).mem = s.mem ∧
      (s.beginFetch b).straps = s.straps ∧
      (s.beginFetch b).readData = s.readData ∧
      (s.beginFetch b).free = s.free ∧
      (s.beginFetch b).pending = s.pending := by
  simp [State.beginFetch]

@[simp] theorem State.fetched_frame (s : State) (got : List Word) :
      (s.fetched got).tb = s.tb ∧
      (s.fetched got).chans = s.chans ∧
      (s.fetched got).lc = s.lc ∧
      (s.fetched got).slots = s.slots ∧
      (s.fetched got).exch = s.exch ∧
      (s.fetched got).lu = s.lu ∧
      (s.fetched got).pw = s.pw ∧
      (s.fetched got).straps = s.straps ∧
      (s.fetched got).readData = s.readData ∧
      (s.fetched got).free = s.free ∧
      (s.fetched got).pending = s.pending := by
  unfold State.fetched
  try dsimp only
  (repeat' split) <;> simp

@[simp] theorem State.terminated_frame (s : State) (ws : List (Nat × Word)) (r : Result) :
      (s.terminated ws r).tb = s.tb ∧
      (s.terminated ws r).chans = s.chans ∧
      (s.terminated ws r).lc = s.lc ∧
      (s.terminated ws r).slots = s.slots ∧
      (s.terminated ws r).exch = s.exch ∧
      (s.terminated ws r).lu = s.lu ∧
      (s.terminated ws r).pw = s.pw ∧
      (s.terminated ws r).straps = s.straps ∧
      (s.terminated ws r).readData = s.readData ∧
      (s.terminated ws r).free = s.free ∧
      (s.terminated ws r).pending = s.pending := by
  unfold State.terminated
  try dsimp only
  (repeat' split) <;> simp

@[simp] theorem State.linked_frame (s : State) (r : Result) :
      (s.linked r).tb = s.tb ∧
      (s.linked r).chans = s.chans ∧
      (s.linked r).lc = s.lc ∧
      (s.linked r).slots = s.slots ∧
      (s.linked r).exch = s.exch ∧
      (s.linked r).lu = s.lu ∧
      (s.linked r).pw = s.pw ∧
      (s.linked r).mem = s.mem ∧
      (s.linked r).straps = s.straps ∧
      (s.linked r).readData = s.readData ∧
      (s.linked r).free = s.free ∧
      (s.linked r).pending = s.pending := by
  unfold State.linked
  try dsimp only
  (repeat' split) <;> simp

@[simp] theorem passOrder_frame (o : Order) (s : State) :
      (passOrder o s).tb = s.tb ∧
      (passOrder o s).chans = s.chans ∧
      (passOrder o s).lc = s.lc ∧
      (passOrder o s).slots = s.slots ∧
      (passOrder o s).exch = s.exch ∧
      (passOrder o s).lu = s.lu ∧
      (passOrder o s).pw = s.pw ∧
      (passOrder o s).mem = s.mem ∧
      (passOrder o s).straps = s.straps ∧
      (passOrder o s).readData = s.readData ∧
      (passOrder o s).free = s.free ∧
      (passOrder o s).pending = s.pending := by
  unfold passOrder
  simp

@[simp] theorem snapshotOrder_frame (o : Order) (s : State) :
      (snapshotOrder o s).tb = s.tb ∧
      (snapshotOrder o s).chans = s.chans ∧
      (snapshotOrder o s).lc = s.lc ∧
      (snapshotOrder o s).slots = s.slots ∧
      (snapshotOrder o s).exch = s.exch ∧
      (snapshotOrder o s).lu = s.lu ∧
      (snapshotOrder o s).pw = s.pw ∧
      (snapshotOrder o s).mem = s.mem ∧
      (snapshotOrder o s).straps = s.straps ∧
      (snapshotOrder o s).readData = s.readData ∧
      (snapshotOrder o s).free = s.free ∧
      (snapshotOrder o s).pending = s.pending := by
  unfold snapshotOrder
  try dsimp only
  (repeat' split) <;> simp

@[simp] theorem State.imageWritten_frame (s : State) (a : Nat) (ws : List Word) :
      (s.imageWritten a ws).tb = s.tb ∧
      (s.imageWritten a ws).chans = s.chans ∧
      (s.imageWritten a ws).lc = s.lc ∧
      (s.imageWritten a ws).slots = s.slots ∧
      (s.imageWritten a ws).exch = s.exch ∧
      (s.imageWritten a ws).lu = s.lu ∧
      (s.imageWritten a ws).pw = s.pw ∧
      (s.imageWritten a ws).straps = s.straps ∧
      (s.imageWritten a ws).readData = s.readData ∧
      (s.imageWritten a ws).free = s.free ∧
      (s.imageWritten a ws).pending = s.pending := by
  simp [State.imageWritten]

@[simp] theorem State.setStopAfter_frame (s : State)  :
      (s.setStopAfter).tb = s.tb ∧
      (s.setStopAfter).chans = s.chans ∧
      (s.setStopAfter).lc = s.lc ∧
      (s.setStopAfter).slots = s.slots ∧
      (s.setStopAfter).exch = s.exch ∧
      (s.setStopAfter).lu = s.lu ∧
      (s.setStopAfter).pw = s.pw ∧
      (s.setStopAfter).mem = s.mem ∧
      (s.setStopAfter).straps = s.straps ∧
      (s.setStopAfter).readData = s.readData ∧
      (s.setStopAfter).free = s.free ∧
      (s.setStopAfter).pending = s.pending := by
  simp [State.setStopAfter]

@[simp] theorem State.abortJam_frame (s : State) (i : Fin 48) :
      (s.abortJam i).tb = s.tb ∧
      (s.abortJam i).chans = s.chans ∧
      (s.abortJam i).lc = s.lc ∧
      (s.abortJam i).exch = s.exch ∧
      (s.abortJam i).lu = s.lu ∧
      (s.abortJam i).pw = s.pw ∧
      (s.abortJam i).mem = s.mem ∧
      (s.abortJam i).straps = s.straps ∧
      (s.abortJam i).readData = s.readData ∧
      (s.abortJam i).free = s.free ∧
      (s.abortJam i).pending = s.pending := by
  simp [State.abortJam]

@[simp] theorem State.abortFlush_frame (s : State)  :
      (s.abortFlush).tb = s.tb ∧
      (s.abortFlush).chans = s.chans ∧
      (s.abortFlush).lc = s.lc ∧
      (s.abortFlush).slots = s.slots ∧
      (s.abortFlush).exch = s.exch ∧
      (s.abortFlush).lu = s.lu ∧
      (s.abortFlush).mem = s.mem ∧
      (s.abortFlush).straps = s.straps ∧
      (s.abortFlush).readData = s.readData ∧
      (s.abortFlush).free = s.free ∧
      (s.abortFlush).pending = s.pending := by
  unfold State.abortFlush
  try dsimp only
  (repeat' split) <;> simp

@[simp] theorem State.abortExchange_frame (s : State)  :
      (s.abortExchange).tb = s.tb ∧
      (s.abortExchange).mem = s.mem ∧
      (s.abortExchange).straps = s.straps ∧
      (s.abortExchange).readData = s.readData ∧
      (s.abortExchange).free = s.free ∧
      (s.abortExchange).pending = s.pending := by
  unfold State.abortExchange
  try dsimp only
  (repeat' split) <;> simp

@[simp] theorem State.abortKept_frame (s : State) (k : Kept) :
      (s.abortKept k).tb = s.tb ∧
      (s.abortKept k).mem = s.mem ∧
      (s.abortKept k).straps = s.straps ∧
      (s.abortKept k).readData = s.readData ∧
      (s.abortKept k).free = s.free ∧
      (s.abortKept k).pending = s.pending := by
  unfold State.abortKept
  try dsimp only
  (repeat' split) <;> simp

@[simp] theorem State.abortChain_frame (s : State)  :
      (s.abortChain).tb = s.tb ∧
      (s.abortChain).mem = s.mem ∧
      (s.abortChain).straps = s.straps ∧
      (s.abortChain).readData = s.readData ∧
      (s.abortChain).free = s.free ∧
      (s.abortChain).pending = s.pending := by
  unfold State.abortChain
  try dsimp only
  (repeat' split) <;> simp

@[simp] theorem State.cutRecord_frame (s : State) (p : OpenPage) (r : TakeRecord) (made : Nat) :
      (s.cutRecord p r made).tb = s.tb ∧
      (s.cutRecord p r made).chans = s.chans ∧
      (s.cutRecord p r made).lc = s.lc ∧
      (s.cutRecord p r made).slots = s.slots ∧
      (s.cutRecord p r made).exch = s.exch ∧
      (s.cutRecord p r made).lu = s.lu ∧
      (s.cutRecord p r made).pw = s.pw ∧
      (s.cutRecord p r made).oe = s.oe ∧
      (s.cutRecord p r made).straps = s.straps ∧
      (s.cutRecord p r made).readData = s.readData ∧
      (s.cutRecord p r made).pending = s.pending := by
  unfold State.cutRecord
  (repeat' split) <;> simp

@[simp] theorem State.pageWriterClear_frame (s : State)  :
      (s.pageWriterClear).tb = s.tb ∧
      (s.pageWriterClear).chans = s.chans ∧
      (s.pageWriterClear).lc = s.lc ∧
      (s.pageWriterClear).slots = s.slots ∧
      (s.pageWriterClear).exch = s.exch ∧
      (s.pageWriterClear).lu = s.lu ∧
      (s.pageWriterClear).oe = s.oe ∧
      (s.pageWriterClear).straps = s.straps ∧
      (s.pageWriterClear).readData = s.readData ∧
      (s.pageWriterClear).pending = s.pending := by
  unfold State.pageWriterClear
  try dsimp only
  (repeat' split) <;> simp

@[simp] theorem State.cutEngine_frame (s : State)  :
      (s.cutEngine).tb = s.tb ∧
      (s.cutEngine).chans = s.chans ∧
      (s.cutEngine).lc = s.lc ∧
      (s.cutEngine).slots = s.slots ∧
      (s.cutEngine).exch = s.exch ∧
      (s.cutEngine).lu = s.lu ∧
      (s.cutEngine).pw = s.pw ∧
      (s.cutEngine).oe = s.oe ∧
      (s.cutEngine).straps = s.straps ∧
      (s.cutEngine).readData = s.readData ∧
      (s.cutEngine).pending = s.pending := by
  unfold State.cutEngine
  try dsimp only
  (repeat' split) <;> simp

@[simp] theorem State.dropKept_frame (s : State)  :
      (s.dropKept).tb = s.tb ∧
      (s.dropKept).chans = s.chans ∧
      (s.dropKept).lc = s.lc ∧
      (s.dropKept).lu = s.lu ∧
      (s.dropKept).pw = s.pw ∧
      (s.dropKept).oe = s.oe ∧
      (s.dropKept).mem = s.mem ∧
      (s.dropKept).straps = s.straps ∧
      (s.dropKept).readData = s.readData ∧
      (s.dropKept).free = s.free ∧
      (s.dropKept).pending = s.pending := by
  unfold State.dropKept
  try dsimp only
  (repeat' split) <;> simp

@[simp] theorem State.clearEngine_frame (s : State) :
      (s.clearEngine).tb = s.tb ∧
      (s.clearEngine).chans = s.chans ∧
      (s.clearEngine).lc = s.lc ∧
      (s.clearEngine).lu = s.lu ∧
      (s.clearEngine).straps = s.straps ∧
      (s.clearEngine).readData = s.readData ∧
      (s.clearEngine).pending = s.pending := by
  unfold State.clearEngine
  try dsimp only
  simp

@[simp] theorem State.refuseHead_frame (s : State)  :
      (s.refuseHead).tb = s.tb ∧
      (s.refuseHead).chans = s.chans ∧
      (s.refuseHead).lc = s.lc ∧
      (s.refuseHead).slots = s.slots ∧
      (s.refuseHead).exch = s.exch ∧
      (s.refuseHead).lu = s.lu ∧
      (s.refuseHead).pw = s.pw ∧
      (s.refuseHead).mem = s.mem ∧
      (s.refuseHead).straps = s.straps ∧
      (s.refuseHead).readData = s.readData ∧
      (s.refuseHead).free = s.free ∧
      (s.refuseHead).pending = s.pending := by
  simp [State.refuseHead]

@[simp] theorem State.claimEmpty_frame (s : State) (p : Nat) (b : Bool) :
      (s.claimEmpty p b).tb = s.tb ∧
      (s.claimEmpty p b).chans = s.chans ∧
      (s.claimEmpty p b).lc = s.lc ∧
      (s.claimEmpty p b).slots = s.slots ∧
      (s.claimEmpty p b).exch = s.exch ∧
      (s.claimEmpty p b).lu = s.lu ∧
      (s.claimEmpty p b).straps = s.straps ∧
      (s.claimEmpty p b).readData = s.readData ∧
      (s.claimEmpty p b).free = s.free ∧
      (s.claimEmpty p b).pending = s.pending := by
  unfold State.claimEmpty
  try dsimp only
  split <;> simp

@[simp] theorem State.claimRefused_frame (s : State) (b : Bool) :
      (s.claimRefused b).tb = s.tb ∧
      (s.claimRefused b).chans = s.chans ∧
      (s.claimRefused b).lc = s.lc ∧
      (s.claimRefused b).slots = s.slots ∧
      (s.claimRefused b).exch = s.exch ∧
      (s.claimRefused b).lu = s.lu ∧
      (s.claimRefused b).mem = s.mem ∧
      (s.claimRefused b).straps = s.straps ∧
      (s.claimRefused b).readData = s.readData ∧
      (s.claimRefused b).free = s.free ∧
      (s.claimRefused b).pending = s.pending := by
  simp [State.claimRefused]

@[simp] theorem State.recordDone_frame (s : State) (p : OpenPage) (r : TakeRecord) (l : List TakeRecord) (made : Nat) :
      (s.recordDone p r l made).tb = s.tb ∧
      (s.recordDone p r l made).chans = s.chans ∧
      (s.recordDone p r l made).lc = s.lc ∧
      (s.recordDone p r l made).slots = s.slots ∧
      (s.recordDone p r l made).exch = s.exch ∧
      (s.recordDone p r l made).straps = s.straps ∧
      (s.recordDone p r l made).readData = s.readData ∧
      (s.recordDone p r l made).free = s.free ∧
      (s.recordDone p r l made).pending = s.pending := by
  simp [State.recordDone]

@[simp] theorem State.afterClose_frame (s : State) (w : CloseWhy) (b : Bool) :
      (s.afterClose w b).tb = s.tb ∧
      (s.afterClose w b).chans = s.chans ∧
      (s.afterClose w b).lc = s.lc ∧
      (s.afterClose w b).slots = s.slots ∧
      (s.afterClose w b).exch = s.exch ∧
      (s.afterClose w b).lu = s.lu ∧
      (s.afterClose w b).mem = s.mem ∧
      (s.afterClose w b).straps = s.straps ∧
      (s.afterClose w b).readData = s.readData ∧
      (s.afterClose w b).free = s.free ∧
      (s.afterClose w b).pending = s.pending := by
  unfold State.afterClose
  try dsimp only
  (repeat' split) <;> simp

@[simp] theorem State.closeDone_frame (s : State) (p : OpenPage) (w : CloseWhy) (b : Bool) :
      (s.closeDone p w b).tb = s.tb ∧
      (s.closeDone p w b).chans = s.chans ∧
      (s.closeDone p w b).lc = s.lc ∧
      (s.closeDone p w b).slots = s.slots ∧
      (s.closeDone p w b).exch = s.exch ∧
      (s.closeDone p w b).lu = s.lu ∧
      (s.closeDone p w b).straps = s.straps ∧
      (s.closeDone p w b).readData = s.readData ∧
      (s.closeDone p w b).free = s.free ∧
      (s.closeDone p w b).pending = s.pending := by
  simp [State.closeDone]

end Sys2Proof.Machine
end

