-- ==== Sys2Proof/Laws/State.lean ====
section
/-! SUPPORT. One simp lemma per field per update of the state and its records, so that no later proof unfolds a record
update. The fields of State that an operation leaves unchanged are in Sys2Proof/Laws/Frames.lean. -/

namespace Sys2Proof.Machine

/-! ## Channels and slots: the one read after the one write -/

@[simp] theorem State.setChan_chan_same (s : State) (c : Fin 16) (x : Channel) :
    (s.setChan c x).chan c = x := Vector.getElem_set_self c.isLt

@[simp] theorem State.setChan_chan_other (s : State) (c e : Fin 16) (x : Channel) (h : e ≠ c) :
    (s.setChan c x).chan e = s.chan e :=
  Vector.getElem_set_ne c.isLt e.isLt (fun he => h (Fin.ext he.symm))

@[simp] theorem State.setSlot_slot_same (s : State) (i : Fin 48) (x : Device) :
    (s.setSlot i x).slot i = x := Vector.getElem_set_self i.isLt

@[simp] theorem State.setSlot_slot_other (s : State) (i j : Fin 48) (x : Device) (h : j ≠ i) :
    (s.setSlot i x).slot j = s.slot j :=
  Vector.getElem_set_ne i.isLt j.isLt (fun he => h (Fin.ext he.symm))

@[simp] theorem State.setChan_slot (s : State) (c : Fin 16) (x : Channel) (i : Fin 48) :
    (s.setChan c x).slot i = s.slot i := rfl

@[simp] theorem State.setSlot_chan (s : State) (i : Fin 48) (x : Device) (c : Fin 16) :
    (s.setSlot i x).chan c = s.chan c := rfl

/-! ## The order engine -/

@[simp] theorem State.raise_oe_chain (s : State) (c : Cause) :
    (s.raise c).oe.chain = s.oe.chain := rfl

@[simp] theorem State.raise_oe_head (s : State) (c : Cause) :
    (s.raise c).oe.head = s.oe.head := rfl

@[simp] theorem State.raise_oe_block (s : State) (c : Cause) :
    (s.raise c).oe.block = s.oe.block := rfl

@[simp] theorem State.raise_oe_step (s : State) (c : Cause) :
    (s.raise c).oe.step = s.oe.step := rfl

@[simp] theorem State.raise_oe_stopAfter (s : State) (c : Cause) :
    (s.raise c).oe.stopAfter = s.oe.stopAfter := rfl

@[simp] theorem State.raise_oe_causes (s : State) (c : Cause) :
    (s.raise c).oe.causes = s.oe.causes ||| c.bitMask := rfl

@[simp] theorem State.raise_oe_mask (s : State) (c : Cause) :
    (s.raise c).oe.mask = s.oe.mask := rfl

@[simp] theorem State.report_oe_chain (s : State) (r : Result) (n : Nat) (ws : List (Nat × Word)) :
    (s.report r n ws).oe.chain = s.oe.chain := rfl

@[simp] theorem State.report_oe_head (s : State) (r : Result) (n : Nat) (ws : List (Nat × Word)) :
    (s.report r n ws).oe.head = s.oe.head := rfl

@[simp] theorem State.report_oe_block (s : State) (r : Result) (n : Nat) (ws : List (Nat × Word)) :
    (s.report r n ws).oe.block = s.oe.block := rfl

@[simp] theorem State.report_oe_step (s : State) (r : Result) (n : Nat) (ws : List (Nat × Word)) :
    (s.report r n ws).oe.step = .terminating ws r n := rfl

@[simp] theorem State.report_oe_stopAfter (s : State) (r : Result) (n : Nat) (ws : List (Nat × Word)) :
    (s.report r n ws).oe.stopAfter = s.oe.stopAfter := rfl

@[simp] theorem State.report_oe_causes (s : State) (r : Result) (n : Nat) (ws : List (Nat × Word)) :
    (s.report r n ws).oe.causes = s.oe.causes := rfl

@[simp] theorem State.report_oe_mask (s : State) (r : Result) (n : Nat) (ws : List (Nat × Word)) :
    (s.report r n ws).oe.mask = s.oe.mask := rfl

@[simp] theorem State.chainEnd_oe_chain (s : State) (e : ChainState) :
    (s.chainEnd e).oe.chain = e := rfl

@[simp] theorem State.chainEnd_oe_head (s : State) (e : ChainState) :
    (s.chainEnd e).oe.head = s.oe.head := rfl

@[simp] theorem State.chainEnd_oe_block (s : State) (e : ChainState) :
    (s.chainEnd e).oe.block = 0 := rfl

@[simp] theorem State.chainEnd_oe_step (s : State) (e : ChainState) :
    (s.chainEnd e).oe.step = .none := rfl

@[simp] theorem State.chainEnd_oe_stopAfter (s : State) (e : ChainState) :
    (s.chainEnd e).oe.stopAfter = false := rfl

@[simp] theorem State.chainEnd_oe_causes (s : State) (e : ChainState) :
    (s.chainEnd e).oe.causes = s.oe.causes ||| 0x01 := rfl

@[simp] theorem State.chainEnd_oe_mask (s : State) (e : ChainState) :
    (s.chainEnd e).oe.mask = s.oe.mask := rfl

@[simp] theorem State.keep_oe_chain (s : State) (k : Kept) :
    (s.keep k).oe.chain = s.oe.chain := rfl

@[simp] theorem State.keep_oe_head (s : State) (k : Kept) :
    (s.keep k).oe.head = s.oe.head := rfl

@[simp] theorem State.keep_oe_block (s : State) (k : Kept) :
    (s.keep k).oe.block = s.oe.block := rfl

@[simp] theorem State.keep_oe_step (s : State) (k : Kept) :
    (s.keep k).oe.step = .waiting k := rfl

@[simp] theorem State.keep_oe_stopAfter (s : State) (k : Kept) :
    (s.keep k).oe.stopAfter = s.oe.stopAfter := rfl

@[simp] theorem State.keep_oe_causes (s : State) (k : Kept) :
    (s.keep k).oe.causes = s.oe.causes := rfl

@[simp] theorem State.keep_oe_mask (s : State) (k : Kept) :
    (s.keep k).oe.mask = s.oe.mask := rfl

@[simp] theorem State.beginFetch_oe_chain (s : State) (b : Nat) :
    (s.beginFetch b).oe.chain = s.oe.chain := rfl

@[simp] theorem State.beginFetch_oe_head (s : State) (b : Nat) :
    (s.beginFetch b).oe.head = s.oe.head := rfl

@[simp] theorem State.beginFetch_oe_block (s : State) (b : Nat) :
    (s.beginFetch b).oe.block = b := rfl

@[simp] theorem State.beginFetch_oe_step (s : State) (b : Nat) :
    (s.beginFetch b).oe.step = .fetching [] := rfl

@[simp] theorem State.beginFetch_oe_stopAfter (s : State) (b : Nat) :
    (s.beginFetch b).oe.stopAfter = s.oe.stopAfter := rfl

@[simp] theorem State.beginFetch_oe_causes (s : State) (b : Nat) :
    (s.beginFetch b).oe.causes = s.oe.causes := rfl

@[simp] theorem State.beginFetch_oe_mask (s : State) (b : Nat) :
    (s.beginFetch b).oe.mask = s.oe.mask := rfl

@[simp] theorem State.setStopAfter_oe_chain (s : State) :
    (s.setStopAfter).oe.chain = s.oe.chain := rfl

@[simp] theorem State.setStopAfter_oe_head (s : State) :
    (s.setStopAfter).oe.head = s.oe.head := rfl

@[simp] theorem State.setStopAfter_oe_block (s : State) :
    (s.setStopAfter).oe.block = s.oe.block := rfl

@[simp] theorem State.setStopAfter_oe_step (s : State) :
    (s.setStopAfter).oe.step = s.oe.step := rfl

@[simp] theorem State.setStopAfter_oe_stopAfter (s : State) :
    (s.setStopAfter).oe.stopAfter = true := rfl

@[simp] theorem State.setStopAfter_oe_causes (s : State) :
    (s.setStopAfter).oe.causes = s.oe.causes := rfl

@[simp] theorem State.setStopAfter_oe_mask (s : State) :
    (s.setStopAfter).oe.mask = s.oe.mask := rfl

/-! ## The page writer -/

@[simp] theorem State.setActivity_pw_activity (s : State) (a : Activity) :
    (s.setActivity a).pw.activity = a := rfl

@[simp] theorem State.setActivity_pw_page (s : State) (a : Activity) :
    (s.setActivity a).pw.page = s.pw.page := rfl

@[simp] theorem State.setActivity_pw_stock (s : State) (a : Activity) :
    (s.setActivity a).pw.stock = s.pw.stock := rfl

@[simp] theorem State.setActivity_pw_flush (s : State) (a : Activity) :
    (s.setActivity a).pw.flush = s.pw.flush := rfl

@[simp] theorem State.setActivity_pw_pageSeq (s : State) (a : Activity) :
    (s.setActivity a).pw.pageSeq = s.pw.pageSeq := rfl

@[simp] theorem State.setActivity_pw_refused (s : State) (a : Activity) :
    (s.setActivity a).pw.refused = s.pw.refused := rfl

@[simp] theorem State.endFlush_pw_activity (s : State) (r : Result) (n : Nat) :
    (s.endFlush r n).pw.activity = s.pw.activity := rfl

@[simp] theorem State.endFlush_pw_page (s : State) (r : Result) (n : Nat) :
    (s.endFlush r n).pw.page = s.pw.page := rfl

@[simp] theorem State.endFlush_pw_stock (s : State) (r : Result) (n : Nat) :
    (s.endFlush r n).pw.stock = s.pw.stock := rfl

@[simp] theorem State.endFlush_pw_flush (s : State) (r : Result) (n : Nat) :
    (s.endFlush r n).pw.flush = none := rfl

@[simp] theorem State.endFlush_pw_pageSeq (s : State) (r : Result) (n : Nat) :
    (s.endFlush r n).pw.pageSeq = s.pw.pageSeq := rfl

@[simp] theorem State.endFlush_pw_refused (s : State) (r : Result) (n : Nat) :
    (s.endFlush r n).pw.refused = s.pw.refused := rfl

@[simp] theorem State.endFlush_oe_chain (s : State) (r : Result) (n : Nat) :
    (s.endFlush r n).oe.chain = s.oe.chain := rfl

@[simp] theorem State.endFlush_oe_head (s : State) (r : Result) (n : Nat) :
    (s.endFlush r n).oe.head = s.oe.head := rfl

@[simp] theorem State.endFlush_oe_block (s : State) (r : Result) (n : Nat) :
    (s.endFlush r n).oe.block = s.oe.block := rfl

@[simp] theorem State.endFlush_oe_step (s : State) (r : Result) (n : Nat) :
    (s.endFlush r n).oe.step = .terminating [] r n := rfl

@[simp] theorem State.endFlush_oe_stopAfter (s : State) (r : Result) (n : Nat) :
    (s.endFlush r n).oe.stopAfter = s.oe.stopAfter := rfl

@[simp] theorem State.endFlush_oe_causes (s : State) (r : Result) (n : Nat) :
    (s.endFlush r n).oe.causes = s.oe.causes := rfl

@[simp] theorem State.endFlush_oe_mask (s : State) (r : Result) (n : Nat) :
    (s.endFlush r n).oe.mask = s.oe.mask := rfl

/-! ## The link controller -/

@[simp] theorem State.send_lc_urgent (s : State) (p : LinkPhase) (cs : List Byte) :
    (s.send p cs).lc.urgent = s.lc.urgent := rfl

@[simp] theorem State.send_lc_rotation (s : State) (p : LinkPhase) (cs : List Byte) :
    (s.send p cs).lc.rotation = s.lc.rotation := rfl

@[simp] theorem State.send_lc_lastUrgent (s : State) (p : LinkPhase) (cs : List Byte) :
    (s.send p cs).lc.lastUrgent = s.lc.lastUrgent := rfl

@[simp] theorem State.send_lc_turn (s : State) (p : LinkPhase) (cs : List Byte) :
    (s.send p cs).lc.turn = s.lc.turn := rfl

@[simp] theorem State.send_lc_phase (s : State) (p : LinkPhase) (cs : List Byte) :
    (s.send p cs).lc.phase = p := rfl

@[simp] theorem State.send_lc_timer (s : State) (p : LinkPhase) (cs : List Byte) :
    (s.send p cs).lc.timer = 0 := rfl

@[simp] theorem State.send_lc_tx (s : State) (p : LinkPhase) (cs : List Byte) :
    (s.send p cs).lc.tx = cs := rfl

@[simp] theorem State.send_lc_garbled (s : State) (p : LinkPhase) (cs : List Byte) :
    (s.send p cs).lc.garbled = s.lc.garbled := rfl

@[simp] theorem State.send_lc_unknown (s : State) (p : LinkPhase) (cs : List Byte) :
    (s.send p cs).lc.unknown = s.lc.unknown := rfl

/-! ## Records -/

@[simp] theorem Device.forget_state (d : Device) :
    d.forget.state = d.state := rfl

@[simp] theorem Device.forget_held (d : Device) :
    d.forget.held = d.held := rfl

@[simp] theorem Device.forget_linkAddr (d : Device) :
    d.forget.linkAddr = d.linkAddr := rfl

@[simp] theorem Device.forget_cls (d : Device) :
    d.forget.cls = d.cls := rfl

@[simp] theorem Device.forget_rate (d : Device) :
    d.forget.rate = d.rate := rfl

@[simp] theorem Device.forget_fmt (d : Device) :
    d.forget.fmt = d.fmt := rfl

@[simp] theorem Device.forget_boundTo (d : Device) :
    d.forget.boundTo = d.boundTo := rfl

@[simp] theorem Device.forget_offset (d : Device) :
    d.forget.offset = none := rfl

@[simp] theorem Device.forget_pathDelay (d : Device) :
    d.forget.pathDelay = d.pathDelay := rfl

@[simp] theorem Device.forget_window (d : Device) :
    d.forget.window = d.window := rfl

@[simp] theorem Device.forget_recovery (d : Device) :
    d.forget.recovery = d.recovery := rfl

@[simp] theorem Device.forget_jamSource (d : Device) :
    d.forget.jamSource = d.jamSource := rfl

@[simp] theorem Device.forget_protectedFlag (d : Device) :
    d.forget.protectedFlag = d.protectedFlag := rfl

@[simp] theorem Device.forget_dualTrack (d : Device) :
    d.forget.dualTrack = d.dualTrack := rfl

@[simp] theorem Device.forget_anchor (d : Device) :
    d.forget.anchor = none := rfl

@[simp] theorem Device.forget_verify (d : Device) :
    d.forget.verify = none := rfl

@[simp] theorem Device.forget_drift (d : Device) :
    d.forget.drift = d.drift := rfl

@[simp] theorem Device.forget_driftClamped (d : Device) :
    d.forget.driftClamped = d.driftClamped := rfl

@[simp] theorem Device.forget_good (d : Device) :
    d.forget.good = 0 := rfl

@[simp] theorem Device.forget_bad (d : Device) :
    d.forget.bad = 0 := rfl

@[simp] theorem Device.forget_miss (d : Device) :
    d.forget.miss = d.miss := rfl

@[simp] theorem Device.forget_before (d : Device) :
    d.forget.before = d.before := rfl

@[simp] theorem Device.forget_jam (d : Device) :
    d.forget.jam = d.jam := rfl

@[simp] theorem Device.forget_lastResult (d : Device) :
    d.forget.lastResult = d.lastResult := rfl

@[simp] theorem Device.forget_marksLogged (d : Device) :
    d.forget.marksLogged = d.marksLogged := rfl

@[simp] theorem Channel.quiet_kind (ch : Channel) :
    ch.quiet.kind = ch.kind := rfl

@[simp] theorem Channel.quiet_state (ch : Channel) :
    ch.quiet.state = ch.state := rfl

@[simp] theorem Channel.quiet_stopPending (ch : Channel) :
    ch.quiet.stopPending = ch.stopPending := rfl

@[simp] theorem Channel.quiet_cfg (ch : Channel) :
    ch.quiet.cfg = ch.cfg := rfl

@[simp] theorem Channel.quiet_staged (ch : Channel) :
    ch.quiet.staged = ch.staged := rfl

@[simp] theorem Channel.quiet_cur (ch : Channel) :
    ch.quiet.cur = ch.cur := rfl

@[simp] theorem Channel.quiet_prior (ch : Channel) :
    ch.quiet.prior = ch.prior := rfl

@[simp] theorem Channel.quiet_frame (ch : Channel) :
    ch.quiet.frame = ch.frame := rfl

@[simp] theorem Channel.quiet_lastEdge (ch : Channel) :
    ch.quiet.lastEdge = ch.lastEdge := rfl

@[simp] theorem Channel.quiet_startSt (ch : Channel) :
    ch.quiet.startSt = ch.startSt := rfl

@[simp] theorem Channel.quiet_bound (ch : Channel) :
    ch.quiet.bound = ch.bound := rfl

@[simp] theorem Channel.quiet_pulse (ch : Channel) :
    ch.quiet.pulse = none := rfl

@[simp] theorem Channel.quiet_tcWord (ch : Channel) :
    ch.quiet.tcWord = none := rfl

@[simp] theorem Channel.count_kind (ch : Channel) (e : Nat) :
    (ch.count e).kind = ch.kind := rfl

@[simp] theorem Channel.count_state (ch : Channel) (e : Nat) :
    (ch.count e).state = ch.state := rfl

@[simp] theorem Channel.count_stopPending (ch : Channel) (e : Nat) :
    (ch.count e).stopPending = ch.stopPending := rfl

@[simp] theorem Channel.count_cfg (ch : Channel) (e : Nat) :
    (ch.count e).cfg = ch.cfg := rfl

@[simp] theorem Channel.count_staged (ch : Channel) (e : Nat) :
    (ch.count e).staged = ch.staged := rfl

@[simp] theorem Channel.count_cur (ch : Channel) (e : Nat) :
    (ch.count e).cur = ch.cur := rfl

@[simp] theorem Channel.count_prior (ch : Channel) (e : Nat) :
    (ch.count e).prior = ch.prior := rfl

@[simp] theorem Channel.count_frame (ch : Channel) (e : Nat) :
    (ch.count e).frame = ch.frame + 1 := rfl

@[simp] theorem Channel.count_lastEdge (ch : Channel) (e : Nat) :
    (ch.count e).lastEdge = some e := rfl

@[simp] theorem Channel.count_startSt (ch : Channel) (e : Nat) :
    (ch.count e).startSt = ch.startSt := rfl

@[simp] theorem Channel.count_bound (ch : Channel) (e : Nat) :
    (ch.count e).bound = ch.bound := rfl

@[simp] theorem Channel.count_pulse (ch : Channel) (e : Nat) :
    (ch.count e).pulse = ch.pulse := rfl

@[simp] theorem Channel.count_tcWord (ch : Channel) (e : Nat) :
    (ch.count e).tcWord = ch.tcWord := rfl

@[simp] theorem Channel.stopped_kind (ch : Channel) :
    ch.stopped.kind = ch.kind := rfl

@[simp] theorem Channel.stopped_state (ch : Channel) :
    ch.stopped.state = .stopped := rfl

@[simp] theorem Channel.stopped_stopPending (ch : Channel) :
    ch.stopped.stopPending = false := rfl

@[simp] theorem Channel.stopped_cfg (ch : Channel) :
    ch.stopped.cfg = ch.cfg := rfl

@[simp] theorem Channel.stopped_staged (ch : Channel) :
    ch.stopped.staged = none := rfl

@[simp] theorem Channel.stopped_cur (ch : Channel) :
    ch.stopped.cur = ch.cur := rfl

@[simp] theorem Channel.stopped_prior (ch : Channel) :
    ch.stopped.prior = ch.prior := rfl

@[simp] theorem Channel.stopped_frame (ch : Channel) :
    ch.stopped.frame = ch.frame := rfl

@[simp] theorem Channel.stopped_lastEdge (ch : Channel) :
    ch.stopped.lastEdge = ch.lastEdge := rfl

@[simp] theorem Channel.stopped_startSt (ch : Channel) :
    ch.stopped.startSt = none := rfl

@[simp] theorem Channel.stopped_bound (ch : Channel) :
    ch.stopped.bound = ch.bound := rfl

@[simp] theorem Channel.stopped_pulse (ch : Channel) :
    ch.stopped.pulse = none := rfl

@[simp] theorem Channel.stopped_tcWord (ch : Channel) :
    ch.stopped.tcWord = none := rfl

end Sys2Proof.Machine
end

