-- ==== Sys2Proof/Laws/Keeps.lean ====
section
/-! SUPPORT. The attention mask and the action table: for each named operation over the state, that it leaves them
unchanged, each as a simp lemma (SET ACTION's own operation apart). -/

namespace Sys2Proof.Machine

@[simp] theorem LogUnit.stepTake_actions (lu : LogUnit) (x : TakeStep) : (lu.stepTake x).actions = lu.actions := by
  cases x <;> rfl

@[simp] theorem Engine.cleared_mask (oe : Engine) : oe.cleared.mask = oe.mask := rfl

@[simp] theorem State.setChan_keeps (s : State) (c : Fin 16) (x : Channel) :
    (s.setChan c x).oe.mask = s.oe.mask ∧ (s.setChan c x).lu.actions = s.lu.actions := by
  simp [State.setChan]

@[simp] theorem State.setSlot_keeps (s : State) (i : Fin 48) (x : Device) :
    (s.setSlot i x).oe.mask = s.oe.mask ∧ (s.setSlot i x).lu.actions = s.lu.actions := by
  simp [State.setSlot]

@[simp] theorem State.raise_keeps (s : State) (c : Cause) :
    (s.raise c).oe.mask = s.oe.mask ∧ (s.raise c).lu.actions = s.lu.actions := by
  simp [State.raise]

@[simp] theorem State.report_keeps (s : State) (r : Result) (n : Nat) (ws : List (Nat × Word)) :
    (s.report r n ws).oe.mask = s.oe.mask ∧ (s.report r n ws).lu.actions = s.lu.actions := by
  simp [State.report]

@[simp] theorem State.chainEnd_keeps (s : State) (e : ChainState) :
    (s.chainEnd e).oe.mask = s.oe.mask ∧ (s.chainEnd e).lu.actions = s.lu.actions := by
  simp [State.chainEnd]

@[simp] theorem State.keep_keeps (s : State) (k : Kept) :
    (s.keep k).oe.mask = s.oe.mask ∧ (s.keep k).lu.actions = s.lu.actions := by
  simp [State.keep]

@[simp] theorem State.setActivity_keeps (s : State) (a : Activity) :
    (s.setActivity a).oe.mask = s.oe.mask ∧ (s.setActivity a).lu.actions = s.lu.actions := by
  simp [State.setActivity]

@[simp] theorem State.setExchange_keeps (s : State) (e : Option Exchange) :
    (s.setExchange e).oe.mask = s.oe.mask ∧ (s.setExchange e).lu.actions = s.lu.actions := by
  simp [State.setExchange]

@[simp] theorem State.setLastResult_keeps (s : State) (i : Fin 48) (r : Option Result) :
    (s.setLastResult i r).oe.mask = s.oe.mask ∧ (s.setLastResult i r).lu.actions = s.lu.actions := by
  simp [State.setLastResult]

@[simp] theorem State.clearHold_keeps (s : State) (i : Fin 48) :
    (s.clearHold i).oe.mask = s.oe.mask ∧ (s.clearHold i).lu.actions = s.lu.actions := by
  simp [State.clearHold]

@[simp] theorem State.endFlush_keeps (s : State) (r : Result) (n : Nat) :
    (s.endFlush r n).oe.mask = s.oe.mask ∧ (s.endFlush r n).lu.actions = s.lu.actions := by
  simp [State.endFlush]

@[simp] theorem State.beginClaim_keeps (s : State) (p : Nat) (l : List Nat) :
    (s.beginClaim p l).oe.mask = s.oe.mask ∧ (s.beginClaim p l).lu.actions = s.lu.actions := by
  unfold State.beginClaim
  try dsimp only
  (repeat' split) <;> simp

@[simp] theorem State.enterStarved_keeps (s : State) (b : Bool) :
    (s.enterStarved b).oe.mask = s.oe.mask ∧ (s.enterStarved b).lu.actions = s.lu.actions := by
  unfold State.enterStarved
  try dsimp only
  (repeat' split) <;> simp

@[simp] theorem State.chooseWork_keeps (s : State) (b : Bool) :
    (s.chooseWork b).oe.mask = s.oe.mask ∧ (s.chooseWork b).lu.actions = s.lu.actions := by
  unfold State.chooseWork
  try dsimp only
  (repeat' split) <;> simp

@[simp] theorem State.choose_keeps (s : State) (b : Bool) :
    (s.choose b).oe.mask = s.oe.mask ∧ (s.choose b).lu.actions = s.lu.actions := by
  unfold State.choose
  try dsimp only
  (repeat' split) <;> simp

@[simp] theorem State.submit_keeps (s : State) (r : TakeRecord) :
    (s.submit r).oe.mask = s.oe.mask ∧ (s.submit r).lu.actions = s.lu.actions := by
  unfold State.submit
  try dsimp only
  (repeat' split) <;> simp

@[simp] theorem State.sysEvent_keeps (s : State) (ev : SysEvent) :
    (s.sysEvent ev).oe.mask = s.oe.mask ∧ (s.sysEvent ev).lu.actions = s.lu.actions := by
  simp [State.sysEvent]

@[simp] theorem State.stampChannels_keeps (s : State) (w : Word) (cs : List (Fin 16)) :
    (s.stampChannels w cs).oe.mask = s.oe.mask ∧ (s.stampChannels w cs).lu.actions = s.lu.actions := by
  induction cs generalizing s with
  | nil => simp [State.stampChannels]
  | cons c cs ih =>
    unfold State.stampChannels
    split <;> simp only [ih] <;> simp

@[simp] theorem State.discardMark_keeps (s : State)  :
    (s.discardMark).oe.mask = s.oe.mask ∧ (s.discardMark).lu.actions = s.lu.actions := by
  simp [State.discardMark]

@[simp] theorem State.countMark_keeps (s : State) (m : MarkOrigin) :
    (s.countMark m).oe.mask = s.oe.mask ∧ (s.countMark m).lu.actions = s.lu.actions := by
  unfold State.countMark
  try dsimp only
  (repeat' split) <;> simp

@[simp] theorem State.logMark_keeps (s : State) (k : Fin 16) (m : MarkOrigin) :
    (s.logMark k m).oe.mask = s.oe.mask ∧ (s.logMark k m).lu.actions = s.lu.actions := by
  unfold State.logMark
  try dsimp only
  (repeat' split) <;> simp

@[simp] theorem State.takeMark_keeps (s : State) (k : Fin 16) (m : MarkOrigin) :
    (s.takeMark k m).oe.mask = s.oe.mask ∧ (s.takeMark k m).lu.actions = s.lu.actions := by
  unfold State.takeMark
  try dsimp only
  (repeat' split) <;> simp

@[simp] theorem State.takeEntry_keeps (i : Fin 48) (s : State) (e : MarkEntry) :
    (State.takeEntry i s e).oe.mask = s.oe.mask ∧ (State.takeEntry i s e).lu.actions = s.lu.actions := by
  unfold State.takeEntry
  split <;> simp

@[simp] theorem State.urgentInsert_keeps (s : State) (i : Fin 48) :
    (s.urgentInsert i).oe.mask = s.oe.mask ∧ (s.urgentInsert i).lu.actions = s.lu.actions := by
  unfold State.urgentInsert
  try dsimp only
  (repeat' split) <;> simp

@[simp] theorem State.urgentRemove_keeps (s : State) (i : Fin 48) :
    (s.urgentRemove i).oe.mask = s.oe.mask ∧ (s.urgentRemove i).lu.actions = s.lu.actions := by
  simp [State.urgentRemove]

@[simp] theorem State.startJam_keeps (s : State) (i : Fin 48) (c : Fin 16) (o : JamOrigin) (n : Nat) (b : Bool) :
    (s.startJam i c o n b).oe.mask = s.oe.mask ∧ (s.startJam i c o n b).lu.actions = s.lu.actions := by
  simp [State.startJam]

@[simp] theorem State.recover_keeps (s : State) (i : Fin 48) (t : RecoveryTaken) :
    (s.recover i t).oe.mask = s.oe.mask ∧ (s.recover i t).lu.actions = s.lu.actions := by
  unfold State.recover
  try dsimp only
  (repeat' split) <;> simp

@[simp] theorem State.enterDrifting_keeps (s : State) (i : Fin 48) (r : DriftReason) :
    (s.enterDrifting i r).oe.mask = s.oe.mask ∧ (s.enterDrifting i r).lu.actions = s.lu.actions := by
  simp [State.enterDrifting]

@[simp] theorem State.enterAbsent_keeps (s : State) (i : Fin 48) (b : DevState) :
    (s.enterAbsent i b).oe.mask = s.oe.mask ∧ (s.enterAbsent i b).lu.actions = s.lu.actions := by
  simp [State.enterAbsent]

@[simp] theorem State.adoptReport_keeps (s : State) (i : Fin 48) (l e : Nat) :
    (s.adoptReport i l e).oe.mask = s.oe.mask ∧ (s.adoptReport i l e).lu.actions = s.lu.actions := by
  unfold State.adoptReport
  try dsimp only
  (repeat' split) <;> simp

@[simp] theorem State.jamStateRecords_keeps (s : State) (i : Fin 48) (j : JamContext) (o : JamOutcome) :
    (s.jamStateRecords i j o).oe.mask = s.oe.mask ∧ (s.jamStateRecords i j o).lu.actions = s.lu.actions := by
  unfold State.jamStateRecords
  try dsimp only
  (repeat' split) <;> simp

@[simp] theorem State.applyPendingDelay_keeps (s : State) (i : Fin 48) (j : JamContext) :
    (s.applyPendingDelay i j).oe.mask = s.oe.mask ∧ (s.applyPendingDelay i j).lu.actions = s.lu.actions := by
  unfold State.applyPendingDelay
  try dsimp only
  (repeat' split) <;> simp

@[simp] theorem State.deliverOutcome_keeps (s : State) (i : Fin 48) (j : JamContext) (o : JamOutcome) :
    (s.deliverOutcome i j o).oe.mask = s.oe.mask ∧ (s.deliverOutcome i j o).lu.actions = s.lu.actions := by
  unfold State.deliverOutcome
  try dsimp only
  (repeat' split) <;> simp

@[simp] theorem State.jamEnd_keeps (s : State) (i : Fin 48) (o : JamOutcome) :
    (s.jamEnd i o).oe.mask = s.oe.mask ∧ (s.jamEnd i o).lu.actions = s.lu.actions := by
  unfold State.jamEnd
  try dsimp only
  (repeat' split) <;> simp

@[simp] theorem State.jamAbandon_keeps (s : State) (i : Fin 48) :
    (s.jamAbandon i).oe.mask = s.oe.mask ∧ (s.jamAbandon i).lu.actions = s.lu.actions := by
  unfold State.jamAbandon
  try dsimp only
  (repeat' split) <;> simp

@[simp] theorem State.jamPass_keeps (s : State) (i : Fin 48) (l e : Nat) :
    (s.jamPass i l e).oe.mask = s.oe.mask ∧ (s.jamPass i l e).lu.actions = s.lu.actions := by
  simp [State.jamPass]

@[simp] theorem State.jamRetry_keeps (s : State) (i : Fin 48) (j : JamContext) :
    (s.jamRetry i j).oe.mask = s.oe.mask ∧ (s.jamRetry i j).lu.actions = s.lu.actions := by
  simp [State.jamRetry]

@[simp] theorem State.jamFail_keeps (s : State) (i : Fin 48) (j : JamContext) :
    (s.jamFail i j).oe.mask = s.oe.mask ∧ (s.jamFail i j).lu.actions = s.lu.actions := by
  unfold State.jamFail
  try dsimp only
  (repeat' split) <;> simp

@[simp] theorem State.jamReport_keeps (s : State) (i : Fin 48) (l e : Nat) :
    (s.jamReport i l e).oe.mask = s.oe.mask ∧ (s.jamReport i l e).lu.actions = s.lu.actions := by
  unfold State.jamReport
  try dsimp only
  (repeat' split) <;> simp

@[simp] theorem State.consistentReport_keeps (s : State) (i : Fin 48) (l e g : Nat) (b : Bool) :
    (s.consistentReport i l e g b).oe.mask = s.oe.mask ∧ (s.consistentReport i l e g b).lu.actions = s.lu.actions := by
  unfold State.consistentReport
  try dsimp only
  (repeat' split) <;> simp

@[simp] theorem State.inconsistentReport_keeps (s : State) (i : Fin 48) (l e : Nat) :
    (s.inconsistentReport i l e).oe.mask = s.oe.mask ∧ (s.inconsistentReport i l e).lu.actions = s.lu.actions := by
  unfold State.inconsistentReport
  try dsimp only
  (repeat' split) <;> simp

@[simp] theorem State.testedReport_keeps (s : State) (i : Fin 48) (l e : Nat) :
    (s.testedReport i l e).oe.mask = s.oe.mask ∧ (s.testedReport i l e).lu.actions = s.lu.actions := by
  unfold State.testedReport
  try dsimp only
  (repeat' split) <;> simp

@[simp] theorem State.returnReport_keeps (s : State) (i : Fin 48) (l e : Nat) :
    (s.returnReport i l e).oe.mask = s.oe.mask ∧ (s.returnReport i l e).lu.actions = s.lu.actions := by
  unfold State.returnReport
  try dsimp only
  (repeat' split) <;> simp

@[simp] theorem State.reportUpdate_keeps (s : State) (i : Fin 48) (r : Report) :
    (s.reportUpdate i r).oe.mask = s.oe.mask ∧ (s.reportUpdate i r).lu.actions = s.lu.actions := by
  unfold State.reportUpdate
  try dsimp only
  (repeat' split) <;> simp

@[simp] theorem State.takeEntries_keeps (i : Fin 48) (es : List MarkEntry) (s : State) :
    (es.foldl (State.takeEntry i) s).oe.mask = s.oe.mask ∧ (es.foldl (State.takeEntry i) s).lu.actions = s.lu.actions := by
  induction es generalizing s with
  | nil => simp
  | cons e es ih => simp [ih]

@[simp] theorem State.reportArrival_keeps (s : State) (i : Fin 48) (r : Report) :
    (s.reportArrival i r).oe.mask = s.oe.mask ∧ (s.reportArrival i r).lu.actions = s.lu.actions := by
  unfold State.reportArrival
  simp

@[simp] theorem State.deviceMiss_keeps (s : State) (i : Fin 48) :
    (s.deviceMiss i).oe.mask = s.oe.mask ∧ (s.deviceMiss i).lu.actions = s.lu.actions := by
  unfold State.deviceMiss
  try dsimp only
  (repeat' split) <;> simp

@[simp] theorem State.stopNoticeAt_keeps (c : Fin 16) (s : State) (i : Fin 48) :
    (State.stopNoticeAt c s i).oe.mask = s.oe.mask ∧ (State.stopNoticeAt c s i).lu.actions = s.lu.actions := by
  unfold State.stopNoticeAt
  try dsimp only
  (repeat' split) <;> simp

@[simp] theorem State.stopNotices_keeps (c : Fin 16) (l : List (Fin 48)) (s : State) :
    (l.foldl (State.stopNoticeAt c) s).oe.mask = s.oe.mask ∧ (l.foldl (State.stopNoticeAt c) s).lu.actions = s.lu.actions := by
  induction l generalizing s with
  | nil => simp
  | cons e es ih => simp [ih]

@[simp] theorem State.stopNotice_keeps (s : State) (c : Fin 16) :
    (s.stopNotice c).oe.mask = s.oe.mask ∧ (s.stopNotice c).lu.actions = s.lu.actions := by
  simp [State.stopNotice]

@[simp] theorem State.rosterStep_keeps (s : State) (d : Nat) :
    (s.rosterStep d).oe.mask = s.oe.mask ∧ (s.rosterStep d).lu.actions = s.lu.actions := by
  simp [State.rosterStep]

@[simp] theorem State.rosterReport_keeps (s : State) (i : Fin 48) (r : Result) :
    (s.rosterReport i r).oe.mask = s.oe.mask ∧ (s.rosterReport i r).lu.actions = s.lu.actions := by
  simp [State.rosterReport]

@[simp] theorem State.raiseBound_keeps (s : State) (c : Option (Fin 16)) :
    (s.raiseBound c).oe.mask = s.oe.mask ∧ (s.raiseBound c).lu.actions = s.lu.actions := by
  unfold State.raiseBound
  try dsimp only
  (repeat' split) <;> simp

@[simp] theorem State.lowerBound_keeps (s : State) (c : Option (Fin 16)) :
    (s.lowerBound c).oe.mask = s.oe.mask ∧ (s.lowerBound c).lu.actions = s.lu.actions := by
  unfold State.lowerBound
  try dsimp only
  (repeat' split) <;> simp

@[simp] theorem State.emptySlot_keeps (s : State) (i : Fin 48) :
    (s.emptySlot i).oe.mask = s.oe.mask ∧ (s.emptySlot i).lu.actions = s.lu.actions := by
  simp [State.emptySlot]

@[simp] theorem enrolOrder_keeps (o : Order) (s : State) :
    (enrolOrder o s).oe.mask = s.oe.mask ∧ (enrolOrder o s).lu.actions = s.lu.actions := by
  unfold enrolOrder
  try dsimp only
  (repeat' split) <;> simp

@[simp] theorem setDeviceOrder_keeps (o : Order) (s : State) :
    (setDeviceOrder o s).oe.mask = s.oe.mask ∧ (setDeviceOrder o s).lu.actions = s.lu.actions := by
  unfold setDeviceOrder
  try dsimp only
  (repeat' split) <;> simp

@[simp] theorem releaseOrder_keeps (o : Order) (s : State) :
    (releaseOrder o s).oe.mask = s.oe.mask ∧ (releaseOrder o s).lu.actions = s.lu.actions := by
  unfold releaseOrder
  try dsimp only
  (repeat' split) <;> simp

@[simp] theorem adoptOrder_keeps (o : Order) (s : State) :
    (adoptOrder o s).oe.mask = s.oe.mask ∧ (adoptOrder o s).lu.actions = s.lu.actions := by
  unfold adoptOrder
  try dsimp only
  (repeat' split) <;> simp

@[simp] theorem jamOrder_keeps (o : Order) (s : State) :
    (jamOrder o s).oe.mask = s.oe.mask ∧ (jamOrder o s).lu.actions = s.lu.actions := by
  unfold jamOrder
  try dsimp only
  (repeat' split) <;> simp

@[simp] theorem exchangeOrder_keeps (o : Order) (s : State) :
    (exchangeOrder o s).oe.mask = s.oe.mask ∧ (exchangeOrder o s).lu.actions = s.lu.actions := by
  unfold exchangeOrder
  try dsimp only
  (repeat' split) <;> simp

@[simp] theorem rosterOrder_keeps (o : Order) (s : State) :
    (rosterOrder o s).oe.mask = s.oe.mask ∧ (rosterOrder o s).lu.actions = s.lu.actions := by
  unfold rosterOrder
  try dsimp only
  (repeat' split) <;> simp

@[simp] theorem State.handHeld_keeps (s : State)  :
    (s.handHeld).oe.mask = s.oe.mask ∧ (s.handHeld).lu.actions = s.lu.actions := by
  unfold State.handHeld
  try dsimp only
  (repeat' split) <;> simp

@[simp] theorem State.endExchange_keeps (s : State) (e : Exchange) (r : Result) :
    (s.endExchange e r).oe.mask = s.oe.mask ∧ (s.endExchange e r).lu.actions = s.lu.actions := by
  unfold State.endExchange
  try dsimp only
  (repeat' split) <;> simp

@[simp] theorem State.serviceEnded_keeps (s : State) (i : Fin 48) :
    (s.serviceEnded i).oe.mask = s.oe.mask ∧ (s.serviceEnded i).lu.actions = s.lu.actions := by
  unfold State.serviceEnded
  try dsimp only
  (repeat' split) <;> simp

@[simp] theorem State.swapBound_keeps (s : State) (a b : Option (Fin 16)) :
    (s.swapBound a b).oe.mask = s.oe.mask ∧ (s.swapBound a b).lu.actions = s.lu.actions := by
  unfold State.swapBound
  try dsimp only
  (repeat' split) <;> simp

@[simp] theorem State.exchangeSwap_keeps (s : State) (e : Exchange) (d : Device) :
    (s.exchangeSwap e d).oe.mask = s.oe.mask ∧ (s.exchangeSwap e d).lu.actions = s.lu.actions := by
  simp [State.exchangeSwap]

@[simp] theorem State.exchangeRead_keeps (s : State) (e : Exchange) (got : List Word) :
    (s.exchangeRead e got).oe.mask = s.oe.mask ∧ (s.exchangeRead e got).lu.actions = s.lu.actions := by
  unfold State.exchangeRead
  try dsimp only
  (repeat' split) <;> simp

@[simp] theorem State.retimeRecord_keeps (s : State) (c : Fin 16) (x : Channel) :
    (s.retimeRecord c x).oe.mask = s.oe.mask ∧ (s.retimeRecord c x).lu.actions = s.lu.actions := by
  unfold State.retimeRecord
  try dsimp only
  (repeat' split) <;> simp

@[simp] theorem State.stopChannel_keeps (s : State) (c : Fin 16) :
    (s.stopChannel c).oe.mask = s.oe.mask ∧ (s.stopChannel c).lu.actions = s.lu.actions := by
  simp [State.stopChannel]

@[simp] theorem State.emitEdge_keeps (s : State) (c : Fin 16) (e : Nat) :
    (s.emitEdge c e).oe.mask = s.oe.mask ∧ (s.emitEdge c e).lu.actions = s.lu.actions := by
  unfold State.emitEdge
  try dsimp only
  (repeat' split) <;> simp

@[simp] theorem State.startRecord_keeps (s : State) (c : Fin 16) (t : Nat) :
    (s.startRecord c t).oe.mask = s.oe.mask ∧ (s.startRecord c t).lu.actions = s.lu.actions := by
  simp [State.startRecord]

@[simp] theorem State.armedStart_keeps (s : State) (c : Fin 16) (t : Nat) :
    (s.armedStart c t).oe.mask = s.oe.mask ∧ (s.armedStart c t).lu.actions = s.lu.actions := by
  simp [State.armedStart]

@[simp] theorem State.lateStart_keeps (s : State) (c : Fin 16) (t : Nat) :
    (s.lateStart c t).oe.mask = s.oe.mask ∧ (s.lateStart c t).lu.actions = s.lu.actions := by
  simp [State.lateStart]

@[simp] theorem State.skipEdges_keeps (s : State) (c : Fin 16) (a b : Nat) :
    (s.skipEdges c a b).oe.mask = s.oe.mask ∧ (s.skipEdges c a b).lu.actions = s.lu.actions := by
  unfold State.skipEdges
  try dsimp only
  (repeat' split) <;> simp

@[simp] theorem State.channelStep_keeps (a b : Nat) (s : State) (c : Fin 16) :
    (State.channelStep a b s c).oe.mask = s.oe.mask ∧ (State.channelStep a b s c).lu.actions = s.lu.actions := by
  unfold State.channelStep
  try dsimp only
  (repeat' split) <;> simp

@[simp] theorem State.channelSteps_keeps (a b : Nat) (l : List (Fin 16)) (s : State) :
    (l.foldl (State.channelStep a b) s).oe.mask = s.oe.mask ∧ (l.foldl (State.channelStep a b) s).lu.actions = s.lu.actions := by
  induction l generalizing s with
  | nil => simp
  | cons e es ih => simp [ih]

@[simp] theorem State.channelsStep_keeps (s : State) (a b : Nat) :
    (s.channelsStep a b).oe.mask = s.oe.mask ∧ (s.channelsStep a b).lu.actions = s.lu.actions := by
  simp [State.channelsStep]

@[simp] theorem State.settleChannel_keeps (s : State) (c : Fin 16) :
    (s.settleChannel c).oe.mask = s.oe.mask ∧ (s.settleChannel c).lu.actions = s.lu.actions := by
  unfold State.settleChannel
  try dsimp only
  (repeat' split) <;> simp

@[simp] theorem State.settleEach_keeps (l : List (Fin 16)) (s : State) :
    (l.foldl State.settleChannel s).oe.mask = s.oe.mask ∧ (l.foldl State.settleChannel s).lu.actions = s.lu.actions := by
  induction l generalizing s with
  | nil => simp
  | cons e es ih => simp [ih]

@[simp] theorem State.settleChannels_keeps (s : State)  :
    (s.settleChannels).oe.mask = s.oe.mask ∧ (s.settleChannels).lu.actions = s.lu.actions := by
  simp [State.settleChannels]

@[simp] theorem setChannelOrder_keeps (o : Order) (s : State) :
    (setChannelOrder o s).oe.mask = s.oe.mask ∧ (setChannelOrder o s).lu.actions = s.lu.actions := by
  unfold setChannelOrder
  try dsimp only
  (repeat' split) <;> simp

@[simp] theorem startChannelOrder_keeps (o : Order) (s : State) :
    (startChannelOrder o s).oe.mask = s.oe.mask ∧ (startChannelOrder o s).lu.actions = s.lu.actions := by
  unfold startChannelOrder
  try dsimp only
  (repeat' split) <;> simp

@[simp] theorem stopChannelOrder_keeps (o : Order) (s : State) :
    (stopChannelOrder o s).oe.mask = s.oe.mask ∧ (stopChannelOrder o s).lu.actions = s.lu.actions := by
  unfold stopChannelOrder
  try dsimp only
  (repeat' split) <;> simp

@[simp] theorem State.refChanged_keeps (s : State) (r : RefState) :
    (s.refChanged r).oe.mask = s.oe.mask ∧ (s.refChanged r).lu.actions = s.lu.actions := by
  simp [State.refChanged]

@[simp] theorem State.enterAcquiring_keeps (s : State) (t : Option Nat) :
    (s.enterAcquiring t).oe.mask = s.oe.mask ∧ (s.enterAcquiring t).lu.actions = s.lu.actions := by
  simp [State.enterAcquiring]

@[simp] theorem State.announceStep_keeps (s : State) (a d : Nat) :
    (s.announceStep a d).oe.mask = s.oe.mask ∧ (s.announceStep a d).lu.actions = s.lu.actions := by
  simp [State.announceStep]

@[simp] theorem State.stepForward_keeps (s : State) (a g : Nat) :
    (s.stepForward a g).oe.mask = s.oe.mask ∧ (s.stepForward a g).lu.actions = s.lu.actions := by
  unfold State.stepForward
  try dsimp only
  simp

@[simp] theorem State.align_keeps (s : State) (a : Nat) :
    (s.align a).oe.mask = s.oe.mask ∧ (s.align a).lu.actions = s.lu.actions := by
  unfold State.align
  try dsimp only
  (repeat' split) <;> simp

@[simp] theorem State.edgeAcquiring_keeps (s : State) (a : Nat) :
    (s.edgeAcquiring a).oe.mask = s.oe.mask ∧ (s.edgeAcquiring a).lu.actions = s.lu.actions := by
  unfold State.edgeAcquiring
  try dsimp only
  (repeat' split) <;> simp

@[simp] theorem State.edgeMatched_keeps (s : State) (a p : Nat) :
    (s.edgeMatched a p).oe.mask = s.oe.mask ∧ (s.edgeMatched a p).lu.actions = s.lu.actions := by
  unfold State.edgeMatched
  try dsimp only
  (repeat' split) <;> simp

@[simp] theorem State.edgeLocked_keeps (s : State) (a : Nat) :
    (s.edgeLocked a).oe.mask = s.oe.mask ∧ (s.edgeLocked a).lu.actions = s.lu.actions := by
  unfold State.edgeLocked
  try dsimp only
  (repeat' split) <;> simp

@[simp] theorem State.refMiss_keeps (s : State)  :
    (s.refMiss).oe.mask = s.oe.mask ∧ (s.refMiss).lu.actions = s.lu.actions := by
  unfold State.refMiss
  try dsimp only
  (repeat' split) <;> simp

@[simp] theorem State.settleMisses_keeps (s : State) :
    (s.settleMisses).oe.mask = s.oe.mask ∧ (s.settleMisses).lu.actions = s.lu.actions := by
  unfold State.settleMisses
  try dsimp only
  (repeat' split) <;> simp

@[simp] theorem State.refEdge_keeps (s : State) :
    (s.refEdge).oe.mask = s.oe.mask ∧ (s.refEdge).lu.actions = s.lu.actions := by
  unfold State.refEdge
  try dsimp only
  (repeat' split) <;> simp

@[simp] theorem setReferenceOrder_keeps (o : Order) (s : State) :
    (setReferenceOrder o s).oe.mask = s.oe.mask ∧ (setReferenceOrder o s).lu.actions = s.lu.actions := by
  unfold setReferenceOrder
  try dsimp only
  (repeat' split) <;> simp

@[simp] theorem setActionOrder_keeps (o : Order) (s : State) :
    (setActionOrder o s).oe.mask = s.oe.mask := by
  unfold setActionOrder
  try dsimp only
  (repeat' split) <;> simp

@[simp] theorem setTakeOrder_keeps (o : Order) (s : State) :
    (setTakeOrder o s).oe.mask = s.oe.mask ∧ (setTakeOrder o s).lu.actions = s.lu.actions := by
  unfold setTakeOrder
  try dsimp only
  (repeat' split) <;> simp

@[simp] theorem injectMarkOrder_keeps (o : Order) (s : State) :
    (injectMarkOrder o s).oe.mask = s.oe.mask ∧ (injectMarkOrder o s).lu.actions = s.lu.actions := by
  unfold injectMarkOrder
  try dsimp only
  (repeat' split) <;> simp

@[simp] theorem translateOrder_keeps (o : Order) (s : State) :
    (translateOrder o s).oe.mask = s.oe.mask ∧ (translateOrder o s).lu.actions = s.lu.actions := by
  unfold translateOrder
  try dsimp only
  (repeat' split) <;> simp

@[simp] theorem givePagesOrder_keeps (o : Order) (s : State) :
    (givePagesOrder o s).oe.mask = s.oe.mask ∧ (givePagesOrder o s).lu.actions = s.lu.actions := by
  unfold givePagesOrder
  try dsimp only
  (repeat' split) <;> simp

@[simp] theorem flushLogOrder_keeps (o : Order) (s : State) :
    (flushLogOrder o s).oe.mask = s.oe.mask ∧ (flushLogOrder o s).lu.actions = s.lu.actions := by
  unfold flushLogOrder
  try dsimp only
  (repeat' split) <;> simp

@[simp] theorem State.send_keeps (s : State) (p : LinkPhase) (cs : List Byte) :
    (s.send p cs).oe.mask = s.oe.mask ∧ (s.send p cs).lu.actions = s.lu.actions := by
  simp [State.send]

@[simp] theorem State.sendCall_keeps (s : State) (a : Nat) :
    (s.sendCall a).oe.mask = s.oe.mask ∧ (s.sendCall a).lu.actions = s.lu.actions := by
  simp [State.sendCall]

@[simp] theorem State.setTurn_keeps (s : State) (i : Fin 48) (j : JamContext) (a : Nat) :
    (s.setTurn i j a).oe.mask = s.oe.mask ∧ (s.setTurn i j a).lu.actions = s.lu.actions := by
  unfold State.setTurn
  try dsimp only
  (repeat' split) <;> simp

@[simp] theorem State.beginTurn_keeps (s : State) (i : Fin 48) (u : Bool) :
    (s.beginTurn i u).oe.mask = s.oe.mask ∧ (s.beginTurn i u).lu.actions = s.lu.actions := by
  simp [State.beginTurn]

@[simp] theorem State.urgentTurn_keeps (s : State) (i : Fin 48) :
    (s.urgentTurn i).oe.mask = s.oe.mask ∧ (s.urgentTurn i).lu.actions = s.lu.actions := by
  unfold State.urgentTurn
  try dsimp only
  (repeat' split) <;> simp

@[simp] theorem State.rotationTurn_keeps (s : State) (i : Fin 48) :
    (s.rotationTurn i).oe.mask = s.oe.mask ∧ (s.rotationTurn i).lu.actions = s.lu.actions := by
  simp [State.rotationTurn]

@[simp] theorem State.takeTurn_keeps (s : State)  :
    (s.takeTurn).oe.mask = s.oe.mask ∧ (s.takeTurn).lu.actions = s.lu.actions := by
  unfold State.takeTurn
  try dsimp only
  (repeat' split) <;> simp

@[simp] theorem State.putBack_keeps (s : State) (t : Turn) :
    (s.putBack t).oe.mask = s.oe.mask ∧ (s.putBack t).lu.actions = s.lu.actions := by
  unfold State.putBack
  try dsimp only
  (repeat' split) <;> simp

@[simp] theorem State.endTurn_keeps (s : State) (t : Turn) :
    (s.endTurn t).oe.mask = s.oe.mask ∧ (s.endTurn t).lu.actions = s.lu.actions := by
  simp [State.endTurn]

@[simp] theorem State.deliverMiss_keeps (s : State) (t : Turn) :
    (s.deliverMiss t).oe.mask = s.oe.mask ∧ (s.deliverMiss t).lu.actions = s.lu.actions := by
  unfold State.deliverMiss
  try dsimp only
  (repeat' split) <;> simp

@[simp] theorem State.answerDelivery_keeps (s : State) (t : Turn) (a : Nat) (g : BitVec 16) (cs : List RxChar) (q : Bool) :
    (s.answerDelivery t a g cs q).oe.mask = s.oe.mask ∧ (s.answerDelivery t a g cs q).lu.actions = s.lu.actions := by
  unfold State.answerDelivery
  try dsimp only
  (repeat' split) <;> simp

@[simp] theorem State.beginFetch_keeps (s : State) (b : Nat) :
    (s.beginFetch b).oe.mask = s.oe.mask ∧ (s.beginFetch b).lu.actions = s.lu.actions := by
  simp [State.beginFetch]

@[simp] theorem State.fetched_keeps (s : State) (got : List Word) :
    (s.fetched got).oe.mask = s.oe.mask ∧ (s.fetched got).lu.actions = s.lu.actions := by
  unfold State.fetched
  try dsimp only
  (repeat' split) <;> simp

@[simp] theorem State.terminated_keeps (s : State) (ws : List (Nat × Word)) (r : Result) :
    (s.terminated ws r).oe.mask = s.oe.mask ∧ (s.terminated ws r).lu.actions = s.lu.actions := by
  unfold State.terminated
  try dsimp only
  (repeat' split) <;> simp

@[simp] theorem State.linked_keeps (s : State) (r : Result) :
    (s.linked r).oe.mask = s.oe.mask ∧ (s.linked r).lu.actions = s.lu.actions := by
  unfold State.linked
  try dsimp only
  (repeat' split) <;> simp

@[simp] theorem passOrder_keeps (o : Order) (s : State) :
    (passOrder o s).oe.mask = s.oe.mask ∧ (passOrder o s).lu.actions = s.lu.actions := by
  unfold passOrder
  simp

@[simp] theorem snapshotOrder_keeps (o : Order) (s : State) :
    (snapshotOrder o s).oe.mask = s.oe.mask ∧ (snapshotOrder o s).lu.actions = s.lu.actions := by
  unfold snapshotOrder
  try dsimp only
  (repeat' split) <;> simp

@[simp] theorem State.imageWritten_keeps (s : State) (a : Nat) (ws : List Word) :
    (s.imageWritten a ws).oe.mask = s.oe.mask ∧ (s.imageWritten a ws).lu.actions = s.lu.actions := by
  simp [State.imageWritten]

@[simp] theorem State.setStopAfter_keeps (s : State)  :
    (s.setStopAfter).oe.mask = s.oe.mask ∧ (s.setStopAfter).lu.actions = s.lu.actions := by
  simp [State.setStopAfter]

@[simp] theorem State.abortJam_keeps (s : State) (i : Fin 48) :
    (s.abortJam i).oe.mask = s.oe.mask ∧ (s.abortJam i).lu.actions = s.lu.actions := by
  simp [State.abortJam]

@[simp] theorem State.abortFlush_keeps (s : State)  :
    (s.abortFlush).oe.mask = s.oe.mask ∧ (s.abortFlush).lu.actions = s.lu.actions := by
  unfold State.abortFlush
  try dsimp only
  (repeat' split) <;> simp

@[simp] theorem State.abortExchange_keeps (s : State)  :
    (s.abortExchange).oe.mask = s.oe.mask ∧ (s.abortExchange).lu.actions = s.lu.actions := by
  unfold State.abortExchange
  try dsimp only
  (repeat' split) <;> simp

@[simp] theorem State.abortKept_keeps (s : State) (k : Kept) :
    (s.abortKept k).oe.mask = s.oe.mask ∧ (s.abortKept k).lu.actions = s.lu.actions := by
  unfold State.abortKept
  try dsimp only
  (repeat' split) <;> simp

@[simp] theorem State.abortChain_keeps (s : State)  :
    (s.abortChain).oe.mask = s.oe.mask ∧ (s.abortChain).lu.actions = s.lu.actions := by
  unfold State.abortChain
  try dsimp only
  (repeat' split) <;> simp

@[simp] theorem State.cutRecord_keeps (s : State) (p : OpenPage) (r : TakeRecord) (made : Nat) :
    (s.cutRecord p r made).oe.mask = s.oe.mask ∧ (s.cutRecord p r made).lu.actions = s.lu.actions := by
  unfold State.cutRecord
  split <;> simp

@[simp] theorem State.pageWriterClear_keeps (s : State)  :
    (s.pageWriterClear).oe.mask = s.oe.mask ∧ (s.pageWriterClear).lu.actions = s.lu.actions := by
  unfold State.pageWriterClear
  try dsimp only
  (repeat' split) <;> simp

@[simp] theorem State.cutEngine_keeps (s : State)  :
    (s.cutEngine).oe.mask = s.oe.mask ∧ (s.cutEngine).lu.actions = s.lu.actions := by
  unfold State.cutEngine
  try dsimp only
  (repeat' split) <;> simp

@[simp] theorem State.dropKept_keeps (s : State)  :
    (s.dropKept).oe.mask = s.oe.mask ∧ (s.dropKept).lu.actions = s.lu.actions := by
  unfold State.dropKept
  try dsimp only
  (repeat' split) <;> simp

@[simp] theorem State.clearEngine_keeps (s : State) :
    (s.clearEngine).oe.mask = s.oe.mask ∧ (s.clearEngine).lu.actions = s.lu.actions := by
  unfold State.clearEngine
  try dsimp only
  simp

@[simp] theorem State.refuseHead_keeps (s : State)  :
    (s.refuseHead).oe.mask = s.oe.mask ∧ (s.refuseHead).lu.actions = s.lu.actions := by
  simp [State.refuseHead]

@[simp] theorem State.claimEmpty_keeps (s : State) (p : Nat) (b : Bool) :
    (s.claimEmpty p b).oe.mask = s.oe.mask ∧ (s.claimEmpty p b).lu.actions = s.lu.actions := by
  unfold State.claimEmpty
  try dsimp only
  split <;> simp

@[simp] theorem State.claimRefused_keeps (s : State) (b : Bool) :
    (s.claimRefused b).oe.mask = s.oe.mask ∧ (s.claimRefused b).lu.actions = s.lu.actions := by
  simp [State.claimRefused]

@[simp] theorem State.recordDone_keeps (s : State) (p : OpenPage) (r : TakeRecord) (l : List TakeRecord) (made : Nat) :
    (s.recordDone p r l made).oe.mask = s.oe.mask ∧ (s.recordDone p r l made).lu.actions = s.lu.actions := by
  simp [State.recordDone]

@[simp] theorem State.afterClose_keeps (s : State) (w : CloseWhy) (b : Bool) :
    (s.afterClose w b).oe.mask = s.oe.mask ∧ (s.afterClose w b).lu.actions = s.lu.actions := by
  unfold State.afterClose
  try dsimp only
  (repeat' split) <;> simp

@[simp] theorem State.closeDone_keeps (s : State) (p : OpenPage) (w : CloseWhy) (b : Bool) :
    (s.closeDone p w b).oe.mask = s.oe.mask ∧ (s.closeDone p w b).lu.actions = s.lu.actions := by
  simp [State.closeDone]

end Sys2Proof.Machine
end

