-- ==== Sys2Proof/Laws/Memory.lean ====
section
/-! SUPPORT. The basic laws of the shared window's bytes: a read after a write, the canonical form, and what a list of
word writes leaves alone. -/

namespace Sys2Proof.Machine

@[simp] theorem Memory.read_nil (a : Nat) : Memory.read [] a = Config.unlistedByte := rfl

/-- A byte written is the byte read. -/
@[simp] theorem Memory.read_write_same (m : List Host.Cell) (a : Nat) (v : Byte) (h : Memory.wf m = true) :
    Memory.read (Memory.write m a v) a = v := by
  induction m with
  | nil => by_cases hv : v = Config.unlistedByte <;> simp [Memory.write, Memory.read, hv]
  | cons c r ih =>
    obtain ⟨k, w⟩ := c
    simp only [Memory.wf, Bool.and_eq_true, List.all_eq_true, decide_eq_true_eq] at h
    obtain ⟨⟨_, hlt⟩, hr⟩ := h
    have hout : ∀ b ≤ k, Memory.read r b = Config.unlistedByte := by
      intro b hb
      have : ∀ (l : List Host.Cell), (∀ c ∈ l, k < c.1) → Memory.read l b = Config.unlistedByte := by
        intro l
        induction l with
        | nil => intro _; rfl
        | cons d l ihl =>
          obtain ⟨k', v'⟩ := d
          intro hl
          have h1 : k < k' := hl (k', v') (by simp)
          simp only [Memory.read]
          rw [if_neg (by omega)]
          exact ihl (fun c hc => hl c (by simp [hc]))
      exact this r hlt
    unfold Memory.write
    split
    · split
      · simp only [Memory.read]
        rw [if_neg (by omega), hout a (by omega)]
        simp_all
      · simp [Memory.read]
    · split
      · split
        · rw [hout a (by omega)]; simp_all
        · simp [Memory.read]
      · simp only [Memory.read]
        rw [if_neg (by omega)]
        exact ih hr

/-- Every other byte reads as before. -/
@[simp] theorem Memory.read_write_other (m : List Host.Cell) (a b : Nat) (v : Byte) (hne : b ≠ a) :
    Memory.read (Memory.write m a v) b = Memory.read m b := by
  induction m with
  | nil => by_cases hv : v = Config.unlistedByte <;> simp [Memory.write, Memory.read, hv, Ne.symm hne]
  | cons c r ih =>
    obtain ⟨k, w⟩ := c
    unfold Memory.write
    split
    · split
      · rfl
      · simp [Memory.read, Ne.symm hne]
    · split
      · subst_vars
        split <;> simp [Memory.read, Ne.symm hne]
      · simp only [Memory.read]
        split
        · rfl
        · exact ih

/-- A write adds no address but its own. -/
theorem Memory.write_bound (m : List Host.Cell) (a : Nat) (v : Byte) (k : Nat) (hk : k < a)
    (h : ∀ c ∈ m, k < c.1) : ∀ c ∈ Memory.write m a v, k < c.1 := by
  induction m with
  | nil =>
    intro c hc
    unfold Memory.write at hc
    split at hc
    · simp at hc
    · simp only [List.mem_singleton] at hc; subst hc; exact hk
  | cons d r ih =>
    obtain ⟨k', w⟩ := d
    intro c hc
    unfold Memory.write at hc
    have hr : ∀ c ∈ r, k < c.1 := fun c hc => h c (by simp [hc])
    split at hc
    · split at hc
      · exact h c hc
      · rcases List.mem_cons.mp hc with rfl | hc
        · exact hk
        · exact h c hc
    · split at hc
      · split at hc
        · exact hr c hc
        · rcases List.mem_cons.mp hc with rfl | hc
          · exact hk
          · exact hr c hc
      · rcases List.mem_cons.mp hc with rfl | hc
        · exact h _ (by simp)
        · exact ih hr c hc

/-- A write keeps the canonical form. -/
@[simp] theorem Memory.wf_write (m : List Host.Cell) (a : Nat) (v : Byte) (h : Memory.wf m = true) :
    Memory.wf (Memory.write m a v) = true := by
  induction m with
  | nil => by_cases hv : v = Config.unlistedByte <;> simp [Memory.write, Memory.wf, hv]
  | cons c r ih =>
    obtain ⟨k, w⟩ := c
    have h0 := h
    simp only [Memory.wf, Bool.and_eq_true, List.all_eq_true, decide_eq_true_eq, bne_iff_ne] at h
    obtain ⟨⟨hw, hlt⟩, hr⟩ := h
    unfold Memory.write
    split
    · split
      · exact h0
      · rename_i hak hv
        simp only [Memory.wf, Bool.and_eq_true, List.all_eq_true, decide_eq_true_eq, bne_iff_ne, List.mem_cons]
        refine ⟨⟨hv, ?_⟩, ⟨hw, hlt⟩, hr⟩
        rintro c (rfl | hc)
        · exact hak
        · exact Nat.lt_trans hak (hlt c hc)
    · split
      · split
        · exact hr
        · rename_i hak hv
          simp only [Memory.wf, Bool.and_eq_true, List.all_eq_true, decide_eq_true_eq, bne_iff_ne]
          exact ⟨⟨hv, fun c hc => by have := hlt c hc; omega⟩, hr⟩
      · simp only [Memory.wf, Bool.and_eq_true, List.all_eq_true, decide_eq_true_eq, bne_iff_ne]
        exact ⟨⟨hw, Memory.write_bound r a v k (by omega) hlt⟩, ih hr⟩

@[simp] theorem Memory.wf_writeWord (m : List Host.Cell) (a : Nat) (w : Word) (h : Memory.wf m = true) :
    Memory.wf (Memory.writeWord m a w) = true := by
  exact Memory.wf_write _ _ _ (Memory.wf_write _ _ _ (Memory.wf_write _ _ _ (Memory.wf_write m a _ h)))

@[simp] theorem Memory.wf_writeAll (ws : List (Nat × Word)) (m : List Host.Cell) (h : Memory.wf m = true) :
    Memory.wf (Memory.writeAll m ws) = true := by
  unfold Memory.writeAll
  induction ws generalizing m with
  | nil => exact h
  | cons p ws ih => exact ih _ (Memory.wf_writeWord m p.1 p.2 h)

@[simp] theorem Memory.wf_writeFirst (ws : List (Nat × Word)) (k : Nat) (m : List Host.Cell)
    (h : Memory.wf m = true) : Memory.wf (Memory.writeFirst m ws k) = true := by
  simp [Memory.writeFirst, h]

@[simp] theorem Memory.wf_writeCut (ws : List (Nat × Word)) (k : Nat) (torn : Word) (m : List Host.Cell)
    (h : Memory.wf m = true) : Memory.wf (Memory.writeCut m ws k torn) = true := by
  simp [Memory.writeCut, h]

@[simp] theorem Memory.wf_reset : Memory.wf State.reset.mem = true := rfl

/-- A word written changes the four bytes at its address and no other. -/
theorem Memory.read_writeWord_other (m : List Host.Cell) (a b : Nat) (w : Word)
    (h : ∀ i < 4, b ≠ a + i) : Memory.read (Memory.writeWord m a w) b = Memory.read m b := by
  have h0 := h 0 (by decide)
  have h1 := h 1 (by decide)
  have h2 := h 2 (by decide)
  have h3 := h 3 (by decide)
  simp [Memory.writeWord, h1, h2, h3, show b ≠ a by simpa using h0]

/-- A word written is the word read, little-endian. -/
theorem Memory.readWord_writeWord (m : List Host.Cell) (a : Nat) (w : Word) (h : Memory.wf m = true) :
    Memory.readWord (Memory.writeWord m a w) a = w := by
  have w1 := Memory.wf_write m a (w.extractLsb' 0 8) h
  have w2 := Memory.wf_write _ (a + 1) (w.extractLsb' 8 8) w1
  have w3 := Memory.wf_write _ (a + 2) (w.extractLsb' 16 8) w2
  unfold Memory.readWord Memory.writeWord
  rw [Memory.read_write_same _ (a + 3) _ w3, Memory.read_write_other _ (a + 3) (a + 2) _ (by omega),
    Memory.read_write_same _ (a + 2) _ w2, Memory.read_write_other _ (a + 3) (a + 1) _ (by omega),
    Memory.read_write_other _ (a + 2) (a + 1) _ (by omega), Memory.read_write_same _ (a + 1) _ w1,
    Memory.read_write_other _ (a + 3) a _ (by omega), Memory.read_write_other _ (a + 2) a _ (by omega),
    Memory.read_write_other _ (a + 1) a _ (by omega), Memory.read_write_same _ a _ h]
  ext i hi
  simp only [BitVec.getElem_append, BitVec.getElem_extractLsb']
  split_ifs
  · simp [BitVec.getLsbD_eq_getElem hi]
  · rw [show 8 + (i - 8) = i by omega, BitVec.getLsbD_eq_getElem hi]
  · rw [show 16 + (i - 8 - 8) = i by omega, BitVec.getLsbD_eq_getElem hi]
  · rw [show 24 + (i - 8 - 8 - 8) = i by omega, BitVec.getLsbD_eq_getElem hi]

/-- A list of word writes changes no byte outside the words it writes. -/
theorem Memory.read_writeAll_other (ws : List (Nat × Word)) (m : List Host.Cell) (b : Nat)
    (h : ∀ p ∈ ws, ∀ i < 4, b ≠ p.1 + i) : Memory.read (Memory.writeAll m ws) b = Memory.read m b := by
  unfold Memory.writeAll
  induction ws generalizing m with
  | nil => rfl
  | cons p ws ih =>
    simp only [List.foldl_cons]
    rw [ih _ (fun q hq => h q (by simp [hq])), Memory.read_writeWord_other _ _ _ _ (h p (by simp))]

/-- As many writes as words. -/
@[simp] theorem wordsAt_length (a : Nat) (ws : List Word) : (wordsAt a ws).length = ws.length := by
  induction ws generalizing a with
  | nil => rfl
  | cons w ws ih => simp [wordsAt, ih]

/-- The addresses of consecutive words. -/
theorem wordsAt_addr (a : Nat) (ws : List Word) :
    ∀ p ∈ wordsAt a ws, ∃ j < ws.length, p.1 = a + 4 * j := by
  induction ws generalizing a with
  | nil => simp [wordsAt]
  | cons w ws ih =>
    intro p hp
    rcases List.mem_cons.mp hp with rfl | hp
    · exact ⟨0, by simp, by simp⟩
    · obtain ⟨j, hj, he⟩ := ih (a + 4) p hp
      exact ⟨j + 1, by simp; omega, by omega⟩

/-- The word written n-th, at the n-th word address. -/
theorem wordsAt_getElem? (a i : Nat) (ws : List Word) :
    (wordsAt a ws)[i]? = ws[i]?.map (fun w => (a + 4 * i, w)) := by
  induction ws generalizing a i with
  | nil => simp [wordsAt]
  | cons w ws ih =>
    cases i with
    | zero => simp [wordsAt]
    | succ i =>
      rw [show a + 4 * (i + 1) = a + 4 + 4 * i by omega]
      simp [wordsAt, ih]

/-- A word elsewhere reads as before a list of word writes. -/
theorem Memory.readWord_writeAll_other (ws : List (Nat × Word)) (m : List Host.Cell) (a : Nat)
    (h : ∀ p ∈ ws, p.1 + 4 ≤ a ∨ a + 4 ≤ p.1) : Memory.readWord (Memory.writeAll m ws) a = Memory.readWord m a := by
  have key : ∀ k < 4, Memory.read (Memory.writeAll m ws) (a + k) = Memory.read m (a + k) := by
    intro k hk
    apply Memory.read_writeAll_other
    intro p hp i hi
    have := h p hp
    omega
  simp only [Memory.readWord, key 1 (by omega), key 2 (by omega), key 3 (by omega)]
  rw [show Memory.read (Memory.writeAll m ws) a = Memory.read m a from key 0 (by omega)]

/-- Consecutive words read back after they have been written (R170). -/
theorem Memory.readWord_wordsAt (ws : List Word) (m : List Host.Cell) (a i : Nat) (h : Memory.wf m = true)
    (hi : i < ws.length) : Memory.readWord (Memory.writeAll m (wordsAt a ws)) (a + 4 * i) = ws.getD i 0 := by
  induction ws generalizing m a i with
  | nil => simp at hi
  | cons w t ih =>
    have e : Memory.writeAll m (wordsAt a (w :: t)) =
        Memory.writeAll (Memory.writeWord m a w) (wordsAt (a + 4) t) := rfl
    rw [e]
    cases i with
    | zero =>
      rw [show a + 4 * 0 = a by omega, Memory.readWord_writeAll_other, Memory.readWord_writeWord _ _ _ h]
      · rfl
      · intro p hp
        obtain ⟨j, hj, he⟩ := wordsAt_addr (a + 4) t p hp
        omega
    | succ k =>
      rw [show a + 4 * (k + 1) = a + 4 + 4 * k by omega,
        ih (Memory.writeWord m a w) (a + 4) k (Memory.wf_writeWord m a w h) (by simpa using hi)]
      rfl

end Sys2Proof.Machine
end

