-- ==== Sys2Proof/Laws/Ops.lean ====
section
/-! SUPPORT. For each shared operation, what it can do, said once: the window guard, the handing of an order, the
submission of a record, the page writer's choice, a write to ORDER HEAD. -/

namespace Sys2Proof.Machine

/-! ## The window guard -/

/-- A guarded command goes on when every word it accesses lies in the window. -/
theorem State.guarded_next (s t : State) (as : List Nat) (h : ∀ a ∈ as, s.inWindow a 4 = true) :
    s.guarded as t = .next t := by
  have : as.find? (fun a => !s.inWindow a 4) = none := by
    simp only [List.find?_eq_none]
    intro a ha
    simp [h a ha]
  simp [State.guarded, this]

/-- A guarded command either goes on or faults at a word outside the window. -/
theorem State.guarded_cases (s t : State) (as : List Nat) :
    ((∀ a ∈ as, s.inWindow a 4 = true) ∧ s.guarded as t = .next t) ∨
      ∃ a ∈ as, s.inWindow a 4 = false ∧ s.guarded as t = .fault (.outsideWindow a) := by
  by_cases h : ∀ a ∈ as, s.inWindow a 4 = true
  · exact .inl ⟨h, s.guarded_next t as h⟩
  · right
    unfold State.guarded
    cases hf : as.find? (fun a => !s.inWindow a 4) with
    | none =>
      exfalso
      apply h
      intro a ha
      have := List.find?_eq_none.mp hf a ha
      simpa using this
    | some a =>
      have := List.find?_some hf
      exact ⟨a, List.mem_of_find?_eq_some hf, by simpa using this, rfl⟩

/-- A guarded command that goes on gives the state it was given. -/
theorem State.guarded_eq_next (s t u : State) (as : List Nat) (h : s.guarded as t = .next u) : u = t := by
  rcases s.guarded_cases t as with ⟨_, he⟩ | ⟨a, _, _, he⟩ <;> rw [he] at h
  · exact (Host.Outcome.next.inj h).symm
  · cases h

/-- A guarded command that goes on answers the state told, and every word it accesses lies in the window (R170). -/
theorem State.guarded_inWindow (s t u : State) (as : List Nat) (h : s.guarded as t = .next u) :
    u = t ∧ ∀ a ∈ as, a + 4 ≤ s.windowSize := by
  refine ⟨State.guarded_eq_next _ _ _ _ h, ?_⟩
  rcases s.guarded_cases t as with ⟨hw, _⟩ | ⟨a, _, _, hf⟩
  · intro a ha
    simpa [State.inWindow] using hw a ha
  · rw [hf] at h
    cases h

/-- A command that always answers a next state gives that state. -/
theorem next_inj {t u : State} (h : (Host.Outcome.next t : Host.Outcome State Fault Refusal) = .next u) : u = t :=
  (Host.Outcome.next.inj h).symm

/-! ## Handing an order (R174) -/

theorem State.handOrder_taken (s : State) (k : OrderKind) (take : Order → State → State) (o : Order)
    (h : s.oe.step = .taken o) (hk : o.kind = k) : s.handOrder k take = take o s := by
  simp [State.handOrder, h, hk]

/-- Handing an order either gives it to its owner or changes nothing. -/
theorem State.handOrder_cases (s : State) (k : OrderKind) (take : Order → State → State) :
    (∃ o, s.oe.step = .taken o ∧ o.kind = k ∧ s.handOrder k take = take o s) ∨ s.handOrder k take = s := by
  unfold State.handOrder
  split
  · rename_i o h
    split
    · exact .inl ⟨o, h, by assumption, rfl⟩
    · exact .inr rfl
  · exact .inr rfl

theorem State.handRosterOrder_taken (s : State) (k : OrderKind) (take : Order → State → State) (o : Order)
    (h : s.oe.step = .taken o) (hk : o.kind = k) (he : s.exch = none) : s.handRosterOrder k take = take o s := by
  simp [State.handRosterOrder, h, hk, he]

/-- Handing a roster order gives it to the roster, makes it wait for a dropped EXCHANGE, or changes nothing. -/
theorem State.handRosterOrder_cases (s : State) (k : OrderKind) (take : Order → State → State) :
    (∃ o, s.oe.step = .taken o ∧ o.kind = k ∧ s.exch = none ∧ s.handRosterOrder k take = take o s) ∨
    (∃ o, s.oe.step = .taken o ∧ o.kind = k ∧ s.exch.isSome = true ∧
      s.handRosterOrder k take = { s with oe := { s.oe with step := .held o } }) ∨
    s.handRosterOrder k take = s := by
  unfold State.handRosterOrder
  split
  · rename_i o h
    split
    · rename_i hk
      split
      · rename_i he
        exact .inr (.inl ⟨o, h, hk, he, rfl⟩)
      · rename_i he
        exact .inl ⟨o, h, hk, by simpa using he, rfl⟩
    · exact .inr (.inr rfl)
  · exact .inr (.inr rfl)

/-! ## The page writer's choice (R158) -/

/-- What the choice from its second row on does, row by row. -/
theorem State.chooseWork_cases (s : State) (b : Bool) :
    (s.lu.queue = [] ∧ s.chooseWork b = s.setActivity .idle) ∨
    (∃ r rest p, s.lu.queue = r :: rest ∧ s.pw.page = some p ∧
      s.chooseWork b = s.setActivity (if p.fits r then .writing 0 else .closing .full false)) ∨
    (∃ r rest a stock, s.lu.queue = r :: rest ∧ s.pw.page = none ∧ s.pw.stock = a :: stock ∧
      s.chooseWork b = s.beginClaim a stock) ∨
    (∃ r rest, s.lu.queue = r :: rest ∧ s.pw.page = none ∧ s.pw.stock = [] ∧
      s.chooseWork b = s.enterStarved b) := by
  unfold State.chooseWork
  split
  · exact .inl ⟨by assumption, rfl⟩
  · rename_i r rest hq
    split
    · rename_i p hp
      refine .inr (.inl ⟨r, rest, p, hq, hp, ?_⟩)
      split <;> rfl
    · rename_i hp
      split
      · exact .inr (.inr (.inl ⟨r, rest, _, _, hq, hp, by assumption, rfl⟩))
      · exact .inr (.inr (.inr ⟨r, rest, hq, hp, by assumption, rfl⟩))

/-- What the choice does: end a written flush set, close for it, or go on. -/
theorem State.choose_cases (s : State) (b : Bool) :
    (s.flushLeft = some 0 ∧ (s.pw.page.map OpenPage.records).getD 0 = 0 ∧
      s.choose b = (s.endFlush .done 0).chooseWork b) ∨
    (s.flushLeft = some 0 ∧ (s.pw.page.map OpenPage.records).getD 0 ≠ 0 ∧
      s.choose b = s.setActivity (.closing .flush false)) ∨
    (s.flushLeft ≠ some 0 ∧ s.choose b = s.chooseWork b) := by
  unfold State.choose
  split
  · rename_i h
    split
    · exact .inl ⟨h, by assumption, rfl⟩
    · exact .inr (.inl ⟨h, by assumption, rfl⟩)
  · exact .inr (.inr ⟨by assumption, rfl⟩)

/-! ## Submitting a record (R149, R150) -/

/-- A record joins a queue that has room, with the sequence counter's value and the lost run before it. -/
theorem State.submit_lu_room (s : State) (r : TakeRecord) (h : s.lu.queue.length < 64) :
    (s.submit r).lu =
      { s.lu with
        queue := s.lu.queue ++ [{ r with seq := s.lu.seq, lostBefore := s.lu.lostRun }]
        lostRun := 0
        seq := s.lu.seq + 1 } := by
  unfold State.submit
  simp only [h, if_true]
  split <;> simp

/-- A record that finds the queue full is lost and counted. -/
theorem State.submit_full (s : State) (r : TakeRecord) (h : ¬ s.lu.queue.length < 64) :
    s.submit r =
      { s with
        lu := { s.lu with seq := s.lu.seq + 1, lostRun := s.lu.lostRun + 1,
                          lostTotal := s.lu.lostTotal + 1 } } := by
  simp [State.submit, h]

/-- Submitting changes no action, take counter or discard count, and keeps the queue's bound. -/
theorem State.submit_lu_keeps (s : State) (r : TakeRecord) :
    (s.submit r).lu.actions = s.lu.actions ∧ (s.submit r).lu.slate = s.lu.slate ∧
      (s.submit r).lu.take = s.lu.take ∧ (s.submit r).lu.discarded = s.lu.discarded ∧
      (s.lu.queue.length ≤ 64 → (s.submit r).lu.queue.length ≤ 64) := by
  by_cases h : s.lu.queue.length < 64
  · rw [State.submit_lu_room s r h]
    refine ⟨rfl, rfl, rfl, rfl, fun _ => ?_⟩
    simp only [List.length_append, List.length_cons, List.length_nil]
    omega
  · rw [State.submit_full s r h]
    exact ⟨rfl, rfl, rfl, rfl, fun h => h⟩

/-! ## A write to ORDER HEAD (R172) -/

/-- What a write to ORDER HEAD can do, by the value and the chain state. -/
theorem State.orderHeadWrite_cases (s : State) (v : Word) :
    (v = 2 ∧ s.orderHeadWrite v = s.guarded s.clearAreas s.clearEngine) ∨
    (v ≠ 2 ∧ startsChain v = true ∧ s.oe.chain = .idle ∧
      s.orderHeadWrite v =
        .next (State.beginFetch { s with oe := { s.oe with chain := .running, head := v.toNat } } v.toNat)) ∨
    (v = 0 ∧ (s.oe.chain = .done ∨ s.oe.chain = .stopped) ∧
      s.orderHeadWrite v = .next { s with oe := { s.oe with chain := .idle, head := 0 } }) ∨
    (v = 1 ∧ s.oe.chain = .running ∧ s.orderHeadWrite v = .next s.abortChain) ∨
    (v ≠ 2 ∧ ¬(startsChain v = true ∧ s.oe.chain = .idle) ∧
      ¬(v = 0 ∧ (s.oe.chain = .done ∨ s.oe.chain = .stopped)) ∧ ¬(v = 1 ∧ s.oe.chain = .running) ∧
      s.orderHeadWrite v = .next s.refuseHead) := by
  unfold State.orderHeadWrite
  split
  · exact .inl ⟨by assumption, rfl⟩
  · rename_i h2
    split
    · rename_i h
      exact .inr (.inl ⟨h2, h.1, h.2, rfl⟩)
    · rename_i h
      split
      · rename_i h0
        exact .inr (.inr (.inl ⟨h0.1, h0.2, rfl⟩))
      · rename_i h0
        split
        · rename_i h1
          exact .inr (.inr (.inr (.inl ⟨h1.1, h1.2, rfl⟩)))
        · rename_i h1
          exact .inr (.inr (.inr (.inr ⟨h2, h, h0, h1, rfl⟩)))

end Sys2Proof.Machine
end

