-- ==== Sys2Proof/Laws/WordAccess.lean ====
section
/-! SUPPORT. Word by word (R170): what one word access of each agent can do, said once, and what it leaves unchanged. -/

namespace Sys2Proof.Machine

@[simp] theorem State.setEngineStep_oe (s : State) (e : EngineStep) :
    (s.setEngineStep e).oe = { s.oe with step := e } := rfl

@[simp] theorem State.setEngineStep_mem (s : State) (e : EngineStep) : (s.setEngineStep e).mem = s.mem := rfl

/-- A word write that is made stores its word, which lies in the window, and goes on as told. -/
theorem State.wordWritten_some (s t u : State) (p : Nat × Word) (h : s.wordWritten p t = some u) :
    s.inWindow p.1 4 = true ∧ u = { t with mem := Memory.writeWord s.mem p.1 p.2 } := by
  unfold State.wordWritten at h
  split at h
  · exact ⟨‹_›, (Option.some.inj h).symm⟩
  · cases h

/-- A word access of the order engine reads a word of a fetch, writes a word of an image that is not its last, or writes a
result word. -/
theorem State.engineWord_some (s t : State) (h : s.engineWord = some t) :
    (∃ got a, s.oe.step = .fetching got ∧ s.nextFetchAddress s.oe.block got = some a ∧
      t = s.setEngineStep (.fetching (got ++ [Memory.readWord s.mem a]))) ∨
    (∃ area w next rest, s.oe.step = .imaging area (w :: next :: rest) ∧ s.inWindow area 4 = true ∧
      t = { s.setEngineStep (.imaging (area + 4) (next :: rest)) with mem := Memory.writeWord s.mem area w }) ∨
    (∃ p rest code detail, s.oe.step = .terminating (p :: rest) code detail ∧ s.inWindow p.1 4 = true ∧
      t = { s.setEngineStep (.terminating rest code detail) with mem := Memory.writeWord s.mem p.1 p.2 }) := by
  unfold State.engineWord at h
  split at h
  · rename_i got hs
    obtain ⟨a, ha, rfl⟩ := Option.map_eq_some_iff.mp h
    exact .inl ⟨got, a, hs, ha, rfl⟩
  · rename_i area w next rest hs
    obtain ⟨hw, rfl⟩ := State.wordWritten_some _ _ _ _ h
    exact .inr (.inl ⟨area, w, next, rest, hs, hw, rfl⟩)
  · rename_i p rest code detail hs
    obtain ⟨hw, rfl⟩ := State.wordWritten_some _ _ _ _ h
    exact .inr (.inr ⟨p, rest, code, detail, hs, hw, rfl⟩)
  all_goals cases h

/-- A word access of the EXCHANGE reads a word of the package or writes a word of the outgoing image, never the last. -/
theorem State.exchangeWord_some (s t : State) (h : s.exchangeWord = some t) :
    (∃ e got, s.exch = some e ∧ e.phase = .reading got ∧ got.length < 15 ∧
      t = s.setExchange
        (some { e with phase := .reading (got ++ [Memory.readWord s.mem (e.package + 4 * got.length)]) })) ∨
    (∃ e area w next rest, s.exch = some e ∧ e.phase = .writing area (w :: next :: rest) ∧ s.inWindow area 4 = true ∧
      t = { s.setExchange (some { e with phase := .writing (area + 4) (next :: rest) }) with
            mem := Memory.writeWord s.mem area w }) := by
  unfold State.exchangeWord at h
  split at h
  · cases h
  · rename_i e he
    split at h
    · rename_i got hp
      split at h
      · rename_i hw
        simp only [Bool.and_eq_true, decide_eq_true_eq] at hw
        exact .inl ⟨e, got, he, hp, hw.2, (Option.some.inj h).symm⟩
      · cases h
    · rename_i area w next rest hp
      obtain ⟨hw, rfl⟩ := State.wordWritten_some _ _ _ _ h
      exact .inr ⟨e, area, w, next, rest, he, hp, hw, rfl⟩
    all_goals cases h

/-- A word access of the page writer writes the next word of the head record, never the record count. -/
theorem State.recordWord_some (s t : State) (h : s.recordWord = some t) :
    ∃ made p r rest w next left, s.pw.activity = .writing made ∧ s.pw.page = some p ∧ s.lu.queue = r :: rest ∧
      recordLeft p r made = w :: next :: left ∧ s.inWindow w.1 4 = true ∧
      t = { s.setActivity (.writing (made + 1)) with mem := Memory.writeWord s.mem w.1 w.2 } := by
  unfold State.recordWord at h
  split at h
  · rename_i made p r rest ha hp hq
    split at h
    · rename_i w next left hl
      obtain ⟨hw, rfl⟩ := State.wordWritten_some _ _ _ _ h
      exact ⟨made, p, r, rest, w, next, left, ha, hp, hq, hl, hw, rfl⟩
    · cases h
  · cases h

/-- The word accesses to choose from are those of the three agents. -/
theorem State.mem_wordAccesses (s t : State) :
    t ∈ s.wordAccesses ↔ s.engineWord = some t ∨ s.exchangeWord = some t ∨ s.recordWord = some t := by
  simp [State.wordAccesses]

/-- One word access is one of those to choose from, but for the free value taken by a choice; with none the state stays. -/
theorem State.wordAccess_cases (s : State) :
    (s.wordAccesses = [] ∧ s.wordAccess = s) ∨
    ∃ t ∈ s.wordAccesses, s.wordAccess = t ∨ s.wordAccess = { t with free := s.free + 1 } := by
  unfold State.wordAccess
  split
  · exact .inl ⟨‹_›, rfl⟩
  · rename_i t ht
    exact .inr ⟨t, by simp [ht], .inl rfl⟩
  · rename_i t others _ ht
    refine .inr ⟨(t :: others).getD (Config.freePick s.free % (others.length + 1)) t, ?_, .inr rfl⟩
    have hlt : Config.freePick s.free % (others.length + 1) < (t :: others).length := Nat.mod_lt _ (Nat.succ_pos _)
    rw [ht, List.getD_eq_getElem _ _ hlt]
    exact List.getElem_mem hlt

/-- Of the state, a word access changes only the memory and the progress of the operation it belongs to. -/
theorem State.wordAccesses_frame (s t : State) (h : t ∈ s.wordAccesses) :
    t.tb = s.tb ∧ t.chans = s.chans ∧ t.lc = s.lc ∧ t.slots = s.slots ∧ t.lu = s.lu ∧ t.straps = s.straps ∧
      t.readData = s.readData ∧ t.pending = s.pending ∧ t.oe = { s.oe with step := t.oe.step } ∧
      t.pw = { s.pw with activity := t.pw.activity } := by
  rcases (s.mem_wordAccesses t).mp h with h | h | h
  · rcases s.engineWord_some t h with ⟨_, _, _, _, rfl⟩ | ⟨_, _, _, _, _, _, rfl⟩ | ⟨_, _, _, _, _, _, rfl⟩ <;>
      exact ⟨rfl, rfl, rfl, rfl, rfl, rfl, rfl, rfl, rfl, rfl⟩
  · rcases s.exchangeWord_some t h with ⟨_, _, _, _, _, rfl⟩ | ⟨_, _, _, _, _, _, _, _, rfl⟩ <;>
      exact ⟨rfl, rfl, rfl, rfl, rfl, rfl, rfl, rfl, rfl, rfl⟩
  · obtain ⟨_, _, _, _, _, _, _, _, _, _, _, _, rfl⟩ := s.recordWord_some t h
    exact ⟨rfl, rfl, rfl, rfl, rfl, rfl, rfl, rfl, rfl, rfl⟩

/-- What one word access leaves unchanged. -/
@[simp] theorem State.wordAccess_frame (s : State) :
    s.wordAccess.tb = s.tb ∧ s.wordAccess.chans = s.chans ∧ s.wordAccess.lc = s.lc ∧ s.wordAccess.slots = s.slots ∧
      s.wordAccess.lu = s.lu ∧ s.wordAccess.straps = s.straps ∧ s.wordAccess.readData = s.readData ∧
      s.wordAccess.pending = s.pending := by
  rcases s.wordAccess_cases with ⟨_, h⟩ | ⟨t, ht, h | h⟩
  · simp [h]
  all_goals
    obtain ⟨h1, h2, h3, h4, h5, h6, h7, h8, _⟩ := s.wordAccesses_frame t ht
    rw [h]
    exact ⟨h1, h2, h3, h4, h5, h6, h7, h8⟩

/-- A record's words are as many as its length says. -/
@[simp] theorem TakeRecord.words_length (r : TakeRecord) : r.words.length = r.length := by
  have hw (ws : List Watch) : (ws.flatMap Watch.words).length = 2 * ws.length := by
    induction ws with
    | nil => rfl
    | cons w ws ih => simp [ih, Watch.words]; omega
  have hm : r.middle.length = 4 := by unfold TakeRecord.middle; split <;> rfl
  simp only [TakeRecord.words, TakeRecord.length, List.length_append, List.length_cons, List.length_nil, hw, hm]

/-- The words of a record write still to be made: those of the record and the record count, but for those made. -/
@[simp] theorem recordLeft_length (p : OpenPage) (r : TakeRecord) (made : Nat) :
    (recordLeft p r made).length = r.length + 1 - made := by
  simp [recordLeft, recordWrites]

/-- Of the page writer, a word access changes only how many words of the record write have been made. -/
theorem State.wordAccess_pw (s : State) :
    s.wordAccess.pw = s.pw ∨
      ∃ made p r rest, s.pw.activity = .writing made ∧ s.pw.page = some p ∧ s.lu.queue = r :: rest ∧
        made < r.length ∧ s.wordAccess.pw = { s.pw with activity := .writing (made + 1) } := by
  have one (t : State) (ht : t ∈ s.wordAccesses) :
      t.pw = s.pw ∨
        ∃ made p r rest, s.pw.activity = .writing made ∧ s.pw.page = some p ∧ s.lu.queue = r :: rest ∧
          made < r.length ∧ t.pw = { s.pw with activity := .writing (made + 1) } := by
    rcases (s.mem_wordAccesses t).mp ht with h | h | h
    · rcases s.engineWord_some t h with ⟨_, _, _, _, rfl⟩ | ⟨_, _, _, _, _, _, rfl⟩ | ⟨_, _, _, _, _, _, rfl⟩ <;>
        exact .inl rfl
    · rcases s.exchangeWord_some t h with ⟨_, _, _, _, _, rfl⟩ | ⟨_, _, _, _, _, _, _, _, rfl⟩ <;> exact .inl rfl
    · obtain ⟨made, p, r, rest, w, next, left, ha, hp, hq, hl, _, rfl⟩ := s.recordWord_some t h
      refine .inr ⟨made, p, r, rest, ha, hp, hq, ?_, rfl⟩
      have := congrArg List.length hl
      rw [recordLeft_length] at this
      simp only [List.length_cons] at this
      omega
  rcases s.wordAccess_cases with ⟨_, h⟩ | ⟨t, ht, h | h⟩
  · exact .inl (by rw [h])
  · rw [h]; exact one t ht
  · rw [h]; exact one t ht

/-- What is left of a record after its first words: words of the record itself, in its place in the page, and so neither
a word of the page's header nor the record count (R162, R168). -/
theorem mem_recordWordsLeft (p : OpenPage) (r : TakeRecord) (made : Nat) (q : Nat × Word)
    (h : q ∈ recordWordsLeft p r made) : ∃ k < r.length, made ≤ k ∧ q.1 = p.addr + 16 + 4 * (p.used + k) := by
  obtain ⟨k, hk⟩ := List.getElem?_of_mem h
  rw [recordWordsLeft, List.getElem?_drop, wordsAt_getElem?, Option.map_eq_some_iff] at hk
  obtain ⟨w, hw, rfl⟩ := hk
  have := (List.getElem?_eq_some_iff.mp hw).1
  rw [TakeRecord.words_length] at this
  exact ⟨made + k, this, by omega, by dsimp only; omega⟩

end Sys2Proof.Machine
end

