-- ==== Sys2Proof/WellFormed.lean ====
section
/-! DEFINITION. Which commands are well formed: the conditions that a row's own words put on its operands, whatever
the state. -/

namespace Sys2Proof

/-- The operand conditions of the rows: CHAIN_START writes a non-zero multiple of 4 (R172), ANSWER_END brings an
answer of the legal length it declares, QUIET_LINE one that is not complete (R73). -/
def wellFormed (i : Instr) : Bool :=
  match i with
  | .chainStart v => startsChain v
  | .answerEnd chars => answerComplete chars
  | .quietLine chars => answerCutShort chars
  | .reset _ _ | .referenceEdge | .referenceMiss | .timeLowRead | .ignoredRegisterWrite _ _
  | .returnToIdle | .abort | .engineClear | .refusedOrderHeadWrite _ | .attentionWrite _
  | .attentionMaskWrite _ | .orderFetch | .terminationWritten | .linkRead | .pass | .snapshot
  | .snapshotWritten | .setReference | .setChannel | .startChannel | .stopChannel
  | .channelEdge _ | .channelArmedStart _ | .pulseEnd _ | .nextTurn | .setTurnEnd
  | .answerWindowOpen | .answerStart | .answerWindowClose | .enrol | .setDevice | .release
  | .adopt | .exchange | .exchangeReadDone | .exchangeWriteDone | .jam | .setAction | .setTake
  | .injectMark | .translate | .givePages | .flushLog | .pageClaim | .recordWritten
  | .pageCloseDone | .oscillatorTick => true

end Sys2Proof
end

