-- ==== Sys2Proof/Tests/Slice0.lean ====
section
/-! SUPPORT. Tests: the smoke test of WellFormed, worked examples of spec/ run for one step each, and for every statement
with hypotheses a concrete state and operands that meet them. Expected values come from spec/, as each comment says. -/

namespace Sys2Proof.Tests

-- one thread at a time: each test's kernel check would else start a thread of its own
set_option Elab.async false

open Sys2Proof Sys2Proof.Machine

/-! ## Helpers -/

/-- What a command's next state shows; none when the command does not answer one. -/
def seen {α : Type} (c : Instr) (s : State) (f : State → α) : Option α :=
  match exec c s with
  | .next t => some (f t)
  | .fault _ | .refused _ => none

/-- A state with an order in hand, its TAKEN written, in the block at 0x1000 of a running chain. -/
def inHand (o : Order) (s : State := State.reset) : State :=
  { s with oe := { s.oe with chain := .running, head := 0x1000, block := 0x1000, step := .taken o } }

/-- An order of a kind with its parameter words and no flag. -/
def order (k : OrderKind) (ps : List Word) : Order := ⟨k, false, false, false, ps⟩

/-- The engine's step of a state with an order in hand, after the command. -/
def after (c : Instr) (s : State) : Option EngineStep := seen c s (fun t => t.oe.step)

/-- The engine at a step in the block at 0x1000 of a running chain. -/
def engineAt (step : EngineStep) : State :=
  { State.reset with oe := { Engine.reset with chain := .running, head := 0x1000, block := 0x1000, step := step } }

/-- Characters received without framing error. -/
def rx (vs : List Byte) : List RxChar := vs.map (fun v => { value := v })

/-- A REPORT's characters, its check computed. -/
def reportOf (covered : List Byte) : List RxChar := rx (0xC5 :: covered ++ [crc8 covered])

/-- A device record of the worked examples: the slate of slot 12. -/
def slate : Device :=
  { Device.emptyRecord with
    state := .enrolled, linkAddr := 21, cls := .slate, rate := ⟨1126125, 1⟩, fmt := ⟨.b24, false⟩, pathDelay := 540
    recovery := .adopt }

/-- The jam's slate of the chapter Jam and Verify, its rate 1,080,000/1 and its format 25 non-drop. -/
def jamSlate : Device :=
  { slate with state := .locked, rate := ⟨1080000, 1⟩, fmt := ⟨.b25, false⟩, recovery := .noRecovery, drift := -10000
               anchor := some ⟨100, 1000000⟩, good := 3 }

/-- The jam context of that chapter after its SET turn. -/
def jamSent : JamContext :=
  ⟨3, .order, true, .locked, false, true, 1, some 136297, some 50000000000, some 136297, 0, 5, none⟩

/-- A jam context whose SET is pending. -/
def jamPending : JamContext := JamContext.start 3 .order .locked 0 true

/-- Channel 3 of the worked examples: RUNNING at 25 frames per second, start label 01:00:00:00, its frame index `k`. -/
def channel3 (k : Nat) : Channel :=
  { Channel.reset with
    state := .running, cfg := { Channel.reset.cfg with start := 90000 }, cur := some ⟨0, 0, ⟨1080000, 1⟩⟩
    frame := k, lastEdge := some (k * 1080000) }

/-- A state with one slot, one channel and an ST. -/
def stage (i : Fin 48) (d : Device) (c : Fin 16) (ch : Channel) (st : Nat) : State :=
  { (State.reset.setSlot i d).setChan c ch with tb := { TimeBase.reset with st := st } }

/-- A record with 8 words. -/
def sysRecord (seq : Word) : TakeRecord := ⟨seq, 0, .system (.timeStep 5), some 7, 0, 1, 2⟩

/-- A page writer on the page at 0x8000. -/
def writer (a : Activity) (p : Option OpenPage) (stock : List Nat) : PageWriter := ⟨a, p, stock, none, 8, 2⟩

/-- A link in a phase, serving slot 12 at address 21 in a rotation turn. -/
def serving (phase : LinkPhase) (timer : Nat) (urgent : Bool := false) : Link :=
  { Link.reset with turn := some ⟨12, 21, urgent⟩, rotation := 12, phase := phase, timer := timer }

/-! ## WellFormed smoke: an ill-formed term for each check -/

theorem test_wellFormed_refuses_chain_start_zero : wellFormed (.chainStart 0) = false := by decide

theorem test_wellFormed_refuses_chain_start_misaligned : wellFormed (.chainStart 6) = false := by decide

theorem test_wellFormed_refuses_short_answer : wellFormed (.answerEnd (rx [0xC5, 0x15, 0x6A, 10])) = false := by decide

theorem test_wellFormed_refuses_quiet_line_of_nothing : wellFormed (.quietLine []) = false := by decide

theorem test_wellFormed_refuses_quiet_line_of_whole_answer :
    wellFormed (.quietLine (rx [0xC5, 0x15, 0x6A, 0, 0, 0, 0, 0, 0, 0])) = false := by decide

theorem test_wellFormed_accepts :
    wellFormed (.chainStart 0x1000) = true ∧ wellFormed (.answerEnd (rx [0xC5, 0x15, 0x6A, 0, 0, 0, 0, 0, 0, 0])) = true ∧
      wellFormed (.quietLine (rx [0xC5])) = true := by decide

/-! ## One step of each command -/

/-- R187 and the strap table: straps 1 and 0 sampled give a window of 2 MiB; ST and the mask are 0 again. -/
theorem test_reset_samples_straps :
    seen (.reset true false) { engineAt .none with tb := { TimeBase.reset with st := 99 }, mem := [(7, 1)] }
      (fun t => (t.windowSize, t.tb.st, t.oe.chain, t.mem)) = some (2 * 1024 * 1024, 0, .idle, [(7, 1)]) := by
  decide +kernel

/-- R11, worked example Trim and Slew After One Edge: e = +27, and then e = -2. -/
theorem test_reference_edge_trims :
    seen .referenceEdge
        { State.reset with tb := { TimeBase.reset with st := 1080027, ref := .locked, expected := some 1080000 } }
        (fun t => (t.tb.trim, t.tb.slew, t.tb.expected)) = some (-1562, -25000, some 2160000) ∧
      seen .referenceEdge
        { State.reset with
          tb := { TimeBase.reset with st := 2159998, ref := .locked, expected := some 2160000, trim := -1562, slew := -25000 } }
        (fun t => (t.tb.trim, t.tb.slew)) = some (-1447, 1851) := by decide +kernel

/-- R8, R9, worked example A Reference Return, begun 5,000 ticks off the grid. -/
theorem test_reference_edge_steps :
    seen .referenceEdge
        { State.reset with
          tb :=
            { TimeBase.reset with
              st := 43227005000, ref := .acquiring, qual := 24, prevEdge := some (43227005000 - 1080000)
              trim := -1447, gen := 3 } }
        (fun t => (t.tb.st, t.tb.gen, t.tb.expected, t.tb.ref, t.lu.queue.map (fun r => r.body))) =
      some (43228080000, 4, some 43229160000, .locked,
        [.system (.timeStep 1075000), .system (.referenceState .locked .acquiring)]) := by decide +kernel

/-- R15: the third miss in a row puts a LOCKED time base in HOLDOVER with slew 0, trim and G held. -/
theorem test_reference_miss_third :
    seen .referenceMiss
        { State.reset with
          tb :=
            { TimeBase.reset with
              st := 1620001, ref := .locked, expected := some 1080000, missed := 2, trim := -1447, slew := 9, gen := 3 } }
        (fun t => (t.tb.ref, t.tb.slew, t.tb.trim, t.tb.gen)) = some (.holdover, 0, -1447, 3) := by decide +kernel

/-- R19: the low half is returned and the high half latched. -/
theorem test_time_low_read :
    seen .timeLowRead { State.reset with tb := { TimeBase.reset with st := 3 * 2 ^ 32 + 5 } }
        (fun t => (t.readData, t.timeHighRead, t.tb.st)) = some (5, 3, 3 * 2 ^ 32 + 5) := by decide +kernel

/-- R20: writes to TIME LOW and TIME HIGH are ignored. -/
theorem test_ignored_register_write :
    seen (.ignoredRegisterWrite .timeHigh 9) State.reset id = some State.reset := by decide +kernel

/-- R172, R189, worked example A Chain With a Fault: ORDER HEAD then reads RUNNING with head address 0x1000. -/
theorem test_chain_start :
    seen (.chainStart 0x1000) State.reset (fun t => (t.orderHeadRead, t.oe.step)) = some (0x1001, .fetching []) := by
  decide +kernel

/-- R172: a 0 in DONE gives IDLE and head address 0. -/
theorem test_return_to_idle :
    seen .returnToIdle { State.reset with oe := { Engine.reset with chain := .done, head := 0x1000 } }
        (fun t => t.orderHeadRead) = some 0 := by decide +kernel

/-- R177: with an image being written the write runs on, and the chain then ends STOPPED. -/
theorem test_abort_while_imaging :
    seen .abort (engineAt (.imaging 0x20000 [])) (fun t => (t.oe.step, t.oe.stopAfter)) =
      some (.imaging 0x20000 [], true) := by decide +kernel

/-- R177: a fetch aborted before the header test has been passed ends the chain STOPPED with no word written; after the read
of the kind word the block is to be terminated ABORTED. -/
theorem test_abort_while_fetching :
    seen .abort (engineAt (.fetching [])) (fun t => (t.oe.chain, t.oe.step, t.mem)) = some (.stopped, .none, []) ∧
      seen .abort (engineAt (.fetching [1])) (fun t => (t.oe.chain, t.oe.step)) =
        some (.running, .terminating [] .aborted 0) := by decide +kernel

/-- R179: the engine is IDLE, the stock empty, and CLEARED is the only cause; the mask is kept. -/
theorem test_engine_clear :
    seen .engineClear
        { State.reset with
          oe := { Engine.reset with chain := .done, head := 4, causes := 0x3F, mask := 1 }
          pw := writer .idle none [0x8400] }
        (fun t => (t.attentionRead, t.attentionMaskRead, t.orderHeadRead, t.pw.stock)) = some (0x80, 1, 0, []) := by
  decide +kernel

/-- R172: a write of 3 is ignored and raises REFUSED. -/
theorem test_refused_order_head_write :
    seen (.refusedOrderHeadWrite 3) State.reset (fun t => (t.attentionRead, t.orderHeadRead)) = some (0x40, 0) := by
  decide +kernel

/-- R185, R189: a 1 in CHAIN's bit clears CHAIN alone, which releases the line. -/
theorem test_attention_write :
    seen (.attentionWrite 1) { State.reset with oe := { Engine.reset with causes := 0x05, mask := 1 } }
        (fun t => (t.attentionRead, t.interruptLine)) = some (4, false) := by decide +kernel

/-- R186: the mask is replaced, and an enabled cause asserts the line. -/
theorem test_attention_mask_write :
    seen (.attentionMaskWrite 0xFFFFFF04) { State.reset with oe := { Engine.reset with causes := 0x04, mask := 1 } }
        (fun t => (t.attentionMaskRead, t.interruptLine)) = some (4, true) := by decide +kernel

/-- R173, R174, R189: a PASS block is fetched and TAKEN, 0x00FF0000, stands in its termination word. -/
theorem test_order_fetch_pass :
    seen .orderFetch { engineAt (.fetching []) with mem := [(0x1000, 1)] }
        (fun t => (t.oe.step, Memory.readWord t.mem 0x100C)) =
      some (.taken ⟨.pass, false, false, false, []⟩, 0x00FF0000) := by decide +kernel

/-- R173, R189, R190: kind 0x03 is unknown; parameter words past the window's end are WINDOW FAULT. -/
theorem test_order_fetch_refuses :
    after .orderFetch { engineAt (.fetching []) with mem := [(0x1000, 3)] } = some (.terminating [] .refusedKind 0) ∧
      after .orderFetch
          { State.reset with
            oe := { Engine.reset with chain := .running, block := 0xFFFF0, step := .fetching [] }, mem := [(0xFFFF0, 0x22)] } =
        some (.terminating [] .windowFault 0) := by decide +kernel

/-- R175, R188, R189: GIVE PAGES took 3 addresses, so the termination word is DONE with detail 3. -/
theorem test_termination_written :
    seen .terminationWritten (engineAt (.terminating [] .done 3))
        (fun t => (Memory.readWord t.mem 0x100C, t.oe.step)) = some (0x00010003, .linking .done) := by decide +kernel

/-- R176, worked example A Chain With a Fault: REFUSED STATE follows the fault link, to 0x10C0. -/
theorem test_link_read_faults :
    seen .linkRead { engineAt (.linking .refusedState) with mem := [(0x1005, 0x10), (0x1008, 0xC0), (0x1009, 0x10)] }
        (fun t => (t.oe.block, t.oe.step)) = some (0x10C0, .fetching []) := by decide +kernel

/-- R176: DONE with next link 0 ends the chain DONE, and CHAIN is raised. -/
theorem test_link_read_ends :
    seen .linkRead (engineAt (.linking .done)) (fun t => (t.orderHeadRead, t.attentionRead)) = some (0x1002, 1) := by
  decide +kernel

/-- R181. -/
theorem test_pass :
    after .pass (inHand (order .pass [])) = some (.terminating [] .done 0) := by decide +kernel

/-- R182: 1,088 bytes must lie in the window of 1 MiB. -/
theorem test_snapshot_window :
    after .snapshot (inHand (order .snapshot [0xFFBC4, 0])) = some (.terminating [] .windowFault 0) ∧
      (seen .snapshot (inHand (order .snapshot [0xFFBC0, 0]))
        (fun t => match t.oe.step with | .imaging a image => (a, image.length) | _ => (0, 0))) = some (0xFFBC0, 272) := by
  decide +kernel

/-- R183, R190: p1 is to hold the number of image words, 272, before DONE. -/
theorem test_snapshot_written :
    after .snapshotWritten (engineAt (.imaging 0x20000 (List.replicate 272 0))) =
      some (.terminating [(0x1014, 272)] .done 0) := by decide +kernel

/-- R17: Nr = 100 with Dr = 1 is refused; R18: a legal one with the enable on enters ACQUIRING. -/
theorem test_set_reference :
    after .setReference (inHand (order .setReference [1, 100, 1, 0])) = some (.terminating [] .refusedRange 0) ∧
      seen .setReference (inHand (order .setReference [1, 1126125, 1, 540]))
        (fun t => (t.tb.ref, t.tb.period, t.tb.phi)) = some (.acquiring, ⟨1126125, 1⟩, 540) := by decide +kernel

/-- Worked example A Late Start of Two Cameras: 10:00:00;00 in 30 drop is index 1,078,920. -/
theorem test_set_channel_start_label :
    seen .setChannel (inHand (order .setChannel [7, 0xA2, 900900, 1, 2000, 0x0A000000, 0]))
        (fun t => ((t.chan 7).cfg.start, (t.chan 7).cfg.fmt, (t.chan 7).cfg.rate, (t.chan 7).cfg.labelOut)) =
      some (1078920, ⟨.b30, true⟩, ⟨900900, 1⟩, true) := by decide +kernel

/-- R56, worked example A Late Start of Two Cameras: channel 7 taken at ST 1,003,000,000. -/
theorem test_start_channel_late :
    seen .startChannel
        { State.setChan (inHand (order .startChannel [7, 1000000000, 0])) 7
            { Channel.reset with cfg := { Channel.reset.cfg with rate := ⟨900900, 1⟩ } } with
          tb := { TimeBase.reset with st := 1003000000 } }
        (fun t => ((t.chan 7).state, (t.chan 7).frame, (t.chan 7).lastEdge, (t.chan 7).nextEdge)) =
      some (.running, 3, some 1002702700, some 1003603600) := by decide +kernel

/-- R57: STOP CHANNEL on a RUNNING channel waits for its next edge. -/
theorem test_stop_channel_pending :
    seen .stopChannel (State.setChan (inHand (order .stopChannel [3])) 3 (channel3 5))
        (fun t => ((t.chan 3).state, (t.chan 3).stopPending, t.oe.step)) =
      some (.running, true, .terminating [] .done 0) := by decide +kernel

/-- R46, R48, R63: the next edge is counted and a staged user word latched. -/
theorem test_channel_edge_latches_user_word :
    seen (.channelEdge 3) (stage 12 slate 3 { channel3 45970 with staged := some (.user 42004) } (45971 * 1080000))
        (fun t => ((t.chan 3).frame, (t.chan 3).lastEdge, (t.chan 3).cfg.userWord, (t.chan 3).staged)) =
      some (45971, some 49648680000, 42004, none) := by decide +kernel

/-- R47: a full staged set opens a new segment at the edge, and RETIME carries its origin and base. -/
theorem test_channel_edge_retimes :
    seen (.channelEdge 3)
        (stage 12 slate 3 { channel3 9 with staged := some (.full { Channel.reset.cfg with rate := ⟨900900, 1⟩ }) } 10800000)
        (fun t => ((t.chan 3).cur, (t.chan 3).prior, t.lu.queue.map (fun r => r.body))) =
      some (some ⟨10800000, 10, ⟨900900, 1⟩⟩, some ⟨⟨0, 0, ⟨1080000, 1⟩⟩, 9⟩,
        [.system (.channelEvent 3 .retime (some (10800000, 10)))]) := by decide +kernel

/-- R49, R55: at the start ST the channel runs and its pulse of 2,000 ticks begins. -/
theorem test_armed_start_pulse :
    seen (.channelArmedStart 3)
        (stage 12 slate 3
          { Channel.reset with state := .armed, startSt := some 5000, cfg := { Channel.reset.cfg with width := 2000 } } 5000)
        (fun t => ((t.chan 3).state, (t.chan 3).frame, (t.chan 3).pulse, t.pulseLine 3)) =
      some (.running, 0, some 7000, true) := by decide +kernel

/-- R49: the line falls when the pulse ends. -/
theorem test_pulse_end :
    seen (.pulseEnd 3) (stage 12 slate 3 { channel3 0 with pulse := some 2000 } 2000) (fun t => t.pulseLine 3) = some false := by
  decide +kernel

/-- R82, R84, worked example A CALL on the Wire: 0xC5, 0x15, 0x24, 0xEA. -/
theorem test_next_turn_call :
    seen .nextTurn (State.reset.setSlot 12 slate) (fun t => (t.lc.tx, t.lc.rotation, t.lc.lastUrgent)) =
      some ([0xC5, 0x15, 0x24, 0xEA], 12, false) := by decide +kernel

/-- R71, R123, worked example A Jam That Passes: the SET at ST 50,000,000,000 carries 01:30:51:22, J 136,297. -/
theorem test_next_turn_set :
    seen .nextTurn
        { stage 12 { jamSlate with state := .jamming, jam := some jamPending } 3 (channel3 46296) 50000000000 with
          lc := { Link.reset with urgent := [12] } }
        (fun t => (t.lc.tx.take 8, (t.slot 12).jam, t.lc.urgent)) =
      some ([0xC5, 0x15, 0x49, 1, 30, 51, 22, 0], some jamSent, []) := by decide +kernel

/-- R83, worked example Alternation Around a Jam, turn 1: the JAMMING slot is put back. -/
theorem test_set_turn_end :
    seen .setTurnEnd
        { stage 12 { jamSlate with state := .jamming, jam := some jamSent } 3 (channel3 46296) 50000002430 with
          lc := serving .sendingSet 2430 true }
        (fun t => (t.lc.urgent, t.lc.phase)) = some ([12], .gap) := by decide +kernel

/-- R73: the CALL's four characters take 1,080 ticks. -/
theorem test_answer_window_open :
    seen .answerWindowOpen { State.reset with lc := serving .sendingCall 1080 } (fun t => t.lc.phase) = some .window ∧
      seen .answerWindowOpen { State.reset with lc := serving .sendingCall 1079 } (fun t => t.lc.phase) = some .sendingCall := by
  decide +kernel

/-- R73, R75: a start bit 8,100 ticks after the CALL is in time, and is stamped with ST and G. -/
theorem test_answer_start :
    seen .answerStart { State.reset with lc := serving .window 8100, tb := { TimeBase.reset with st := 5400, gen := 4 } }
        (fun t => t.lc.phase) = some (.answering 5400 4) := by decide +kernel

/-- R92, worked example A Slate Locks, REPORT 1: the anchor is 864,000 at 4,999,717,929. -/
theorem test_answer_end_adopts :
    seen (.answerEnd (reportOf [0x15, 0x6A, 10, 0, 0, 0, 64, 0]))
        { stage 12 slate 3 (channel3 0) 5000002700 with lc := serving (.answering 5000000000 0) 2700 }
        (fun t => ((t.slot 12).state, (t.slot 12).anchor, (t.slot 12).good, t.lc.garbled)) =
      some (.settling, some ⟨864000, 4999717929⟩, 1, 0) := by decide +kernel

/-- R94, the same example, REPORT 2: within 525 ticks, so the good count reaches 2 and the record is LOCKED. -/
theorem test_answer_end_locks :
    seen (.answerEnd (reportOf [0x15, 0x6A, 10, 0, 0, 1, 64, 0]))
        { stage 12 { slate with state := .settling, anchor := some ⟨864000, 4999717929⟩, good := 1 } 3 (channel3 0) 5001128300 with
          lc := serving (.answering 5001125600 0) 2700 }
        (fun t => ((t.slot 12).state, (t.slot 12).verify, t.lu.queue.map (fun r => r.body))) =
      some (.locked, some ⟨864001, 5000843529⟩, [.system (.deviceState 12 21 .locked)]) := by decide +kernel

/-- R98, R101, R102, the same example, REPORT 3: an hour later the slate returns inconsistent and is ADOPTED. -/
theorem test_answer_end_returns :
    seen (.answerEnd (reportOf [0x15, 0x6A, 11, 0, 0, 0, 0, 0]))
        { stage 12
            { slate with state := .absent, before := some .locked, anchor := some ⟨864000, 4999717929⟩, good := 2, miss := 8 }
            3 (channel3 0) 102295948197 with
          lc := serving (.answering 102295945497 0) 2700 }
        (fun t => ((t.slot 12).state, (t.slot 12).anchor, t.attentionRead, t.lu.queue.map (fun r => r.body))) =
      some (.enrolled, none, 0x14,
        [.system (.deviceState 12 21 .returned), .system (.deviceState 12 21 (.drifting .inconsistent .adopted))]) := by
  decide +kernel

/-- R124, R125, R128, worked example A Jam That Passes, second REPORT. -/
theorem test_answer_end_jam_passes :
    seen (.answerEnd (reportOf [0x15, 0x6A, 1, 30, 51, 22, 71, 0]))
        { stage 12 { jamSlate with state := .jamming, jam := some jamSent } 3 (channel3 46296) 50000603240 with
          lc := serving (.answering 50000600540 0) 2700 true
          oe := { Engine.reset with chain := .running, block := 0x1000, step := .waiting (.jam 12) } }
        (fun t => ((t.slot 12).state, (t.slot 12).anchor, (t.slot 12).drift, t.oe.step, t.lu.queue.map (fun r => r.body))) =
      some (.settling, some ⟨136297, 50000300469⟩, -10000, .terminating [] .done 0,
        [.system (.jamOutcome 12 21 .done .order 1 (some 136297) .settling)]) := by decide +kernel

/-- R74, R99: an answer cut short is garbled and is a miss. -/
theorem test_quiet_line :
    seen (.quietLine (rx [0xC5, 0x15, 0x6A])) { stage 12 slate 3 (channel3 0) 9000 with lc := serving (.answering 5400 0) 1350 }
        (fun t => (t.lc.garbled, (t.slot 12).miss, t.lc.phase)) = some (1, 1, .gap) := by decide +kernel

/-- R99, R100, worked example A Slate Locks: the eighth miss makes the record ABSENT. -/
theorem test_window_close_eighth_miss :
    seen .answerWindowClose { stage 12 { slate with state := .locked, miss := 7, anchor := some ⟨0, 0⟩ } 3 (channel3 0) 9000 with
            lc := serving .window 8100 }
        (fun t => ((t.slot 12).state, (t.slot 12).before, (t.slot 12).miss, t.attentionRead &&& 0x10)) =
      some (.absent, some .locked, 8, 0x10) := by decide +kernel

/-- R106, R107, R190: a camera bound to channel 3 by device word 0x00030110, window 0 selecting 13,500. -/
theorem test_enrol :
    seen .enrol (inHand (order .enrol [5, 9, 0x00030110, 1080000, 1, 540, 0]))
        (fun t => ((t.slot 5).state, (t.slot 5).boundTo, (t.slot 5).fmt, (t.slot 5).window, (t.chan 3).bound)) =
      some (.enrolled, some 3, ⟨.b25, false⟩, 13500, 1) := by decide +kernel

/-- R109: a new path delay of a LOCKED record makes it ENROLLED without an anchor. -/
theorem test_set_device :
    seen .setDevice (State.setSlot (inHand (order .setDevice [12, 541, 0, 0])) 12 jamSlate)
        (fun t => ((t.slot 12).state, (t.slot 12).anchor, (t.slot 12).pathDelay)) = some (.enrolled, none, 541) := by
  decide +kernel

/-- R110, R131: a JAMMING slot's jam is ABANDONED and the slot is EMPTY. -/
theorem test_release :
    seen .release
        { State.setSlot (inHand (order .release [12])) 12 { jamSlate with state := .jamming, jam := some jamSent } with
          lc := { Link.reset with urgent := [12] } }
        (fun t => ((t.slot 12).state, t.lc.urgent, t.lu.queue.map (fun r => r.body))) =
      some (.empty, [], [.system (.jamOutcome 12 21 .abandoned .order 1 (some 136297) .empty)]) := by decide +kernel

/-- R111. -/
theorem test_adopt :
    seen .adopt (State.setSlot (inHand (order .adopt [12])) 12 jamSlate)
        (fun t => ((t.slot 12).state, (t.slot 12).anchor, (t.slot 12).drift)) = some (.enrolled, none, -10000) := by
  decide +kernel

/-- R113: the slot is held and, not being in service, its read begins. -/
theorem test_exchange :
    seen .exchange (State.setSlot (inHand (order .exchange [12, 0x3000])) 12 slate)
        (fun t => ((t.slot 12).held, t.exch, t.oe.step)) =
      some (true, some ⟨12, 0x3000, .reading [], false⟩, .waiting .exchange) := by decide +kernel

/-- R115, R193: words of zeros do not hold the tag, so the package is PACKAGE INVALID. -/
theorem test_exchange_read_done :
    seen .exchangeReadDone
        { State.setSlot (engineAt (.waiting .exchange)) 12 { slate with held := true } with
          exch := some ⟨12, 0x3000, .reading [], false⟩ }
        (fun t => ((t.slot 12).held, (t.slot 12).state, t.oe.step, t.exch)) =
      some (false, .enrolled, .terminating [] .packageInvalid 0, none) := by decide +kernel

/-- R116: a bound image's drift is taken as 0 and its verify point as absent, whatever it holds; an unbound one's are loaded. -/
theorem test_exchange_load :
    ([0x20140001, 0x60140001, 0x60000001] : List Word).map
        (fun w3 =>
          match State.validateImage (State.reset.setChan 4 (channel3 9)) 12
              [0xA5C30016, 0x00021503, 1126125, w3, 0x00110540, 13500, 9, 250, 864000, 7, 1, 864001, 8, 1, 0, 0] with
          | .ok d => some (d.drift, d.verify, d.offset, d.boundTo)
          | .error _ => none) =
      [some (0, none, some 250, some 4), some (0, none, some 250, some 4),
        some (9, some ⟨864001, 4294967304⟩, none, none)] := by decide +kernel

/-- R117, R193: the tag word stands first in the package, 0xA5C30016. -/
theorem test_exchange_write_done :
    seen .exchangeWriteDone
        { State.setSlot (engineAt (.waiting .exchange)) 12 { slate with held := true } with
          exch := some ⟨12, 0x3000, .writing 0x3000 jamSlate.package, false⟩ }
        (fun t => (Memory.readWord t.mem 0x3000, Memory.readWord t.mem 0x3018, (t.slot 12).held, t.oe.step)) =
      some (0xA5C30016, BitVec.ofInt 32 (-10000), false, .terminating [] .done 0) := by decide +kernel

/-- R121, worked example A Jam That Passes: the context has remembered state LOCKED and 5 reports left. -/
theorem test_jam_accepted :
    seen .jam
        (State.setChan (State.setSlot (inHand ⟨.jam, false, true, false, [12, 0x0301, 0]⟩) 12 jamSlate) 3 (channel3 46296))
        (fun t => ((t.slot 12).state, (t.slot 12).jam, t.lc.urgent, t.oe.step)) =
      some (.jamming, some jamPending, [12], .waiting (.jam 12)) := by decide +kernel

/-- R120: a source of another label format is REFUSED MISMATCH. -/
theorem test_jam_refused_mismatch :
    after .jam (State.setChan (State.setSlot (inHand (order .jam [12, 0x0301, 0])) 12 { slate with state := .locked }) 3
        (channel3 46296)) = some (.terminating [] .refusedMismatch 0) := by decide +kernel

/-- R136, worked example A Clap Logged: entry 1, SLATE, NEXT TAKE, watching channels 3 and 7, attention on. -/
theorem test_set_action :
    seen .setAction (inHand (order .setAction [1, 0x413, 2, 0x0703])) (fun t => t.lu.actions.get 1) =
      some ⟨true, 4, .nextTake, [3, 7], true⟩ := by decide +kernel

/-- R138: take 1,000 is refused. -/
theorem test_set_take :
    after .setTake (inHand (order .setTake [42, 1000])) = some (.terminating [] .refusedRange 0) ∧
      seen .setTake (inHand (order .setTake [42, 3])) (fun t => (t.lu.slate, t.lu.take)) = some (42, 3) := by
  decide +kernel

/-- R141 to R146, worked example A Clap Logged: take 4, user word 42,004, ST 49,648,676,571, record 1,206. -/
theorem test_inject_mark_clap :
    seen .injectMark
        { State.setChan (State.setSlot (inHand (order .injectMark [1, 12, 0x0A1E0000, 128])) 12
            { slate with state := .locked, anchor := some ⟨864000, 1000000000⟩, drift := -10000, marksLogged := 17 }) 3
            { channel3 45970 with cfg := { (channel3 0).cfg with stamping := true } } with
          tb := { TimeBase.reset with st := 49648700000, ref := .locked, gen := 4 }
          lu :=
            { LogUnit.reset with
              actions := LogUnit.reset.actions.set 1 ⟨true, 4, .nextTake, [3, 7], true⟩, slate := 42, take := 3, seq := 1206
              queue := [sysRecord 1204, sysRecord 1205] }
          pw := writer (.writing 0) (some ⟨0x8000, 7, 23, 236⟩) [] }
        (fun t => (t.lu.queue.getLast?, (t.chan 3).staged, (t.slot 12).marksLogged, t.attentionRead)) =
      some (some ⟨1206, 0,
          .mark 1 (some ⟨12, 21, 907200, ⟨.b24, false⟩, 128⟩) ⟨false, false, false, false, false, false, false, false⟩
            [⟨3, false, false, false, ⟨.b25, false⟩, 255, 135970⟩], some 49648676571, 4, 42, 4⟩,
        some (.user 42004), 18, 0x20) := by decide +kernel

/-- R37, R153, R190, worked example A Clap Across Three Timecodes: ST 49,648,676,571 in p5 and p6. -/
theorem test_translate_clap :
    (match after .translate
          { State.setSlot (inHand (order .translate [12, 0x0A1E0000, 128, 0, 0])) 12
              { slate with state := .locked, anchor := some ⟨864000, 1000000000⟩, drift := -10000 } with
            tb := { TimeBase.reset with ref := .locked, gen := 4 } } with
        | some (.terminating ws .done 0) => ws.take 3
        | _ => []) =
      [(0x1024, BitVec.ofNat 32 49648676571), (0x1028, 11), (0x102C, 4)] := by decide +kernel

/-- R159: of 0x8400 twice, 0 and 0x8401, one address is taken, and the STARVED writer claims it. -/
theorem test_give_pages :
    seen .givePages
        { inHand (order .givePages [4, 0x8400, 0x8400, 0, 0x8401]) with
          pw := writer .starved none [], lu := { LogUnit.reset with queue := [sysRecord 1206] } }
        (fun t => (t.oe.step, t.pw.activity, t.pw.stock)) =
      some (.terminating [] .done 1, .claiming 0x8400 false, []) := by decide +kernel

/-- R166: a STARVED writer ends FLUSH LOG with the number of unwritten records. -/
theorem test_flush_log :
    seen .flushLog
        { inHand (order .flushLog []) with
          pw := writer .starved none [], lu := { LogUnit.reset with queue := [sysRecord 1206, sysRecord 1207] } }
        (fun t => (t.oe.step, t.pw.flush)) = some (.terminating [] .done 2, none) := by decide +kernel

/-- R160, worked example Pages Filling Around a Clap, step 4: 0x8800 is still FULL and is counted, the next claimed. -/
theorem test_page_claim_refused :
    seen .pageClaim
        { State.reset with
          mem := [(0x8800, 2)], pw := writer (.claiming 0x8800 false) none [0x8400, 0x9000]
          lu := { LogUnit.reset with queue := [sysRecord 1206] } }
        (fun t => (t.pw.refused, t.pw.activity, t.pw.stock, t.attentionRead)) =
      some (3, .claiming 0x8400 false, [0x9000], 4) := by decide +kernel

/-- R160, the same example, step 5: the header holds FILLING, 8, 0 and 1,206, and the counter becomes 9. -/
theorem test_page_claim_empty :
    seen .pageClaim
        { State.reset with
          pw := writer (.claiming 0x8400 false) none [0x9000], lu := { LogUnit.reset with queue := [sysRecord 1206] } }
        (fun t => (Memory.readWords t.mem 0x8400 4, t.pw.page, t.pw.pageSeq, t.pw.activity)) =
      some ([1, 8, 0, 1206], some ⟨0x8400, 8, 0, 0⟩, 9, .writing 0) := by decide +kernel

/-- R162, the same example, steps 1 and 2: 1,205 at words 244 to 251; the 12-word clap record then does not fit. -/
theorem test_record_written :
    seen .recordWritten
        { State.reset with
          pw := writer (.writing 0) (some ⟨0x8000, 7, 24, 244⟩) [0x8800]
          lu :=
            { LogUnit.reset with
              queue := [sysRecord 1205,
                ⟨1206, 0, .mark 1 none (hostMarkFlags .locked) (List.replicate 2 ⟨3, false, false, false, ⟨.b25, false⟩, 0, 0⟩),
                  some 0, 0, 0, 0⟩] } }
        (fun t => (t.pw.page, t.pw.activity, Memory.readWord t.mem (0x8000 + 16 + 4 * 244), Memory.readWord t.mem 0x8008)) =
      some (some ⟨0x8000, 7, 25, 252⟩, .closing .full false, 1205, 25) := by decide +kernel

/-- R163, the same example, steps 3 and 4: FULL, PAGE raised, the next page claimed and STOCK raised. -/
theorem test_page_close_done :
    seen .pageCloseDone
        { State.reset with
          pw := writer (.closing .full false) (some ⟨0x8000, 7, 25, 252⟩) [0x8800, 0x8400, 0x9000]
          lu := { LogUnit.reset with queue := [sysRecord 1206] } }
        (fun t => (Memory.readWord t.mem 0x8000, t.pw.page, t.pw.activity, t.attentionRead)) =
      some (2, none, .claiming 0x8800 false, 6) := by decide +kernel

/-- R68: 0xC5 stands on the pair as a start bit, 1, 0, 1, 0, 0, 0, 1, 1 and a stop bit of 27 ticks each, the next
character's start bit follows at tick 270, and after the telegram the pair is not driven. -/
theorem test_pair_level :
    [0, 26, 27, 54, 81, 108, 135, 162, 189, 216, 243, 269, 270, 539, 540].map
        (fun n => State.pairLevel { State.reset with lc := { serving .sendingCall n with tx := [0xC5, 0x15] } }) =
      [some false, some false, some true, some false, some true, some false, some false, some false, some true, some true,
        some true, some true, some false, some true, none] := by decide +kernel

/-- R170: on an empty queue the engine reads one word of the block, and with two image words left writes one of them. -/
theorem test_word_access :
    (match step { engineAt (.fetching []) with mem := [(0x1000, 0x22)] } with
      | .next t => t.oe.step | _ => .none) = .fetching [0x22] ∧
    (match step (engineAt (.imaging 0x2000 [7, 8])) with
      | .next t => (t.oe.step, Memory.readWord t.mem 0x2000, Memory.readWord t.mem 0x2004) | _ => (.none, 0, 0)) =
      (.imaging 0x2004 [8], 7, 0) := by decide +kernel

/-- R1: with T = -1,447 and S = 0 one tick adds 999,998,553 parts of 10^9. -/
theorem test_oscillator_tick :
    seen .oscillatorTick { State.reset with tb := { TimeBase.reset with st := 10, rem := 5, trim := -1447 } }
        (fun t => (t.tb.st, t.tb.rem)) = some (10, 999998558) := by decide +kernel

/-! ## Arithmetic -/

/-- R31, R32: the examples of the two rules, in 30 drop. -/
theorem test_drop_labels :
    Fmt.labelOf ⟨.b30, true⟩ 1132920 = ⟨10, 30, 1, 24⟩ ∧ Fmt.indexOf ⟨.b30, true⟩ ⟨10, 30, 1, 24⟩ = 1132920 ∧
      Fmt.labelOf ⟨.b25, false⟩ 135970 = ⟨1, 30, 38, 20⟩ := by decide

/-- R39, worked example A Bound Camera: 49,644,630,000, not UNCERTAIN. -/
theorem test_bound_camera : translateBound (channel3 45970) 250 136217 64 = ⟨some 49644630000, false, false, false⟩ := by
  decide +kernel

/-- R40, worked example Measuring a Slate's Drift: -10,000 ppb. -/
theorem test_measured_drift :
    measuredDrift 2073600 ⟨1126125, 1⟩ ⟨864000, 4999717929⟩ ⟨950400, 102295944957⟩ = some (-10000) := by decide +kernel

/-- R41, worked example A Clap Across Three Timecodes: channel 7 at 10:30:01;24, subframe 21. -/
theorem test_watch_entry_channel_7 :
    watchEntry 7
        { Channel.reset with
          state := .running, cfg := { Channel.reset.cfg with fmt := ⟨.b30, true⟩, start := 1078920 }
          cur := some ⟨1000000000, 0, ⟨900900, 1⟩⟩, frame := 54000 } 49648676571 =
      some ⟨7, false, false, false, ⟨.b30, true⟩, 21, 1132920⟩ := by decide +kernel

/-- R196: the cells of a timecode word, 01:30:38:20 in 25 non-drop, user word 0. -/
theorem test_timecode_cells :
    (timecodeCells ⟨1, 30, 38, 20⟩ ⟨.b25, false⟩ 0).extractLsb' 0 32 = 0x905E994D := by decide +kernel

/-! ## Witnesses: a state and operands that meet the hypotheses of each statement, clause by clause -/

/-- The command answers a next state. -/
def runs (c : Instr) (s : State) : Bool := (seen c s (fun _ => ())).isSome

/-- The part after reset but for the time base. -/
def timed (tb : TimeBase) : State := { State.reset with tb := tb }

/-- A time base LOCKED at an expected grid point of 1,080,000. -/
def locked (st : Nat) : TimeBase := { TimeBase.reset with st := st, ref := .locked, qual := 25, expected := some 1080000 }

/-- A time base in ACQUIRING with a previous stamp. -/
def acquiring (st prev qual : Nat) : TimeBase :=
  { TimeBase.reset with st := st, ref := .acquiring, qual := qual, prevEdge := some prev }

/-- Order block at the last place of the window of 1 MiB, its termination to be written. -/
def terminatingAtEnd : State :=
  { State.reset with oe := { Engine.reset with chain := .running, block := 0xFFFF0, step := .terminating [] .done 0 } }

/-- A log unit with so many records queued. -/
def queued (n : Nat) : LogUnit := { LogUnit.reset with queue := List.replicate n (sysRecord 7), seq := 8 }

/-- The last two words of an image at the window's end are still to be written, beside a record write. -/
def clearable : State :=
  { engineAt (.imaging 0xFFFF8 [1, 2]) with
    pw := writer (.writing 0) (some ⟨0x8000, 7, 24, 244⟩) [0x8400], lu := queued 1 }

/-- A fetch in progress in a block, so many words of it read. -/
def fetchAt (b : Nat) (got : List Word) : State :=
  { State.reset with oe := { Engine.reset with chain := .running, block := b, step := .fetching got } }

/-- An EXCHANGE of slot 12 in a phase, its package the last 64 bytes of the window. -/
def exchangeAt (phase : ExchangePhase) : State := { State.reset with exch := some ⟨12, 0xFFFC0, phase, false⟩ }

theorem test_witness_StepRunsFrontCommand :
    (State.reset.pending = [] ∧ State.reset.wordAccesses = [] ∧ (fetchAt 0x1000 []).wordAccesses.length = 1 ∧
      clearable.pending = [] ∧ clearable.wordAccesses.length = 2) ∧
    (∀ b ∈ [0, 0x1002, 0xFFFF4], b = 0 ∨ b % 4 ≠ 0 ∨ (fetchAt b []).windowSize < b + 16) ∧
    ((fetchAt 0xFFFF0 [3]).oe.step = .fetching [3] ∧ orderKindOfCode ((3 : Word).toNat % 256) = none) ∧
    (∀ p ∈ ([(0xFFFEC, 0x22, .stopChannel, [], 1), (0xFFFF0, 0x22, .stopChannel, [], 1), (0xFFFEC, 0x22, .stopChannel, [15], 1),
        (0xFFF6C, 0x50, .givePages, [32], 33), (0xFFF70, 0x50, .givePages, [32], 33), (0xFFFEC, 0x50, .givePages, [], 1),
        (0xFFFEC, 0x50, .givePages, [33], 1)] : List (Nat × Word × OrderKind × List Word × Nat)),
      let params := p.2.2.2.1
      let n := p.2.2.2.2
      let s := fetchAt p.1 (p.2.1 :: params)
      let count := (params.getD 0 0).toNat
      s.oe.step = .fetching (p.2.1 :: params) ∧ p.1 ≠ 0 ∧ p.1 % 4 = 0 ∧ p.1 + 16 ≤ s.windowSize ∧
        orderKindOfCode (p.2.1.toNat % 256) = some p.2.2.1 ∧
        n = (if p.2.2.1 = .givePages ∧ params ≠ [] ∧ 1 ≤ count ∧ count ≤ 32 then 1 + count else p.2.2.1.paramWords) ∧
        ((p.1 + 16 + 4 * n ≤ s.windowSize ∧ params.length < n) ∨ s.windowSize < p.1 + 16 + 4 * n ∨ n ≤ params.length)) ∧
    (0xFFFFC + 4 ≤ State.reset.windowSize ∧
      ∀ step ∈ [EngineStep.imaging 0xFFFFC [1, 2], .imaging 0xFFFFC [2], .terminating [(0xFFFFC, 272)] .done 0],
        (engineAt step).oe.step = step) ∧
    (∀ phase ∈ [ExchangePhase.writing 0xFFFFC [1, 2], .writing 0xFFFFC [2], .reading (List.replicate 14 0),
        .reading (List.replicate 15 0)],
      (exchangeAt phase).exch = some ⟨12, 0xFFFC0, phase, false⟩ ∧ 0xFFFC0 + 64 ≤ (exchangeAt phase).windowSize) ∧
    (∀ made ∈ [7, 8],
      let s : State :=
        { State.reset with pw := writer (.writing made) (some ⟨0xFFC00, 7, 24, 244⟩) [], lu := queued 1 }
      s.pw.activity = .writing made ∧ s.pw.page = some ⟨0xFFC00, 7, 24, 244⟩ ∧ s.lu.queue = [sysRecord 7] ∧
        0xFFC00 + 16 + 4 * (244 + (sysRecord 7).length) ≤ s.windowSize ∧ (sysRecord 7).length = 8) ∧
    (Memory.wf [(0x1000, 1), (0x1003, 2)] = true ∧ (3 < 4) ∧ (0xFFF < 0x1000 ∨ 0x1000 + 4 ≤ 0xFFF) ∧
      (0x1004 < 0x1000 ∨ 0x1000 + 4 ≤ 0x1004)) :=
  ⟨by decide +kernel, by decide +kernel, by decide +kernel, by decide +kernel, by decide +kernel, by decide +kernel,
    by decide +kernel, by decide +kernel⟩

theorem test_witness_ResetCommand :
    ((∀ p ∈ terminatingAtEnd.resetEngineWrites ++ terminatingAtEnd.resetExchangeWrites ++ terminatingAtEnd.resetPageWrites,
        p.1 + 4 ≤ terminatingAtEnd.windowSize) ∧ terminatingAtEnd.resetEngineWrites ≠ []) ∧
      (∀ p ∈ terminatingAtEnd.resetEngineWrites ++ terminatingAtEnd.resetExchangeWrites ++
        terminatingAtEnd.resetPageWrites, ∀ i < 4, 0xFFFFB ≠ p.1 + i) ∧
      (State.reset.oe.step = .none ∧ State.reset.exch = none ∧ State.reset.pw.activity = .idle) ∧
      (∀ a ∈ [false, true], ∀ b ∈ [false, true], ({ State.reset with straps := (a, b) } : State).straps = (a, b)) := by
  decide +kernel

theorem test_witness_OscillatorTick :
    (let tb : TimeBase := { TimeBase.reset with trim := -20000, slew := -50000 }
     let sum : Int := (tb.st : Int) * 1000000000 + tb.rem + (1000000000 + tb.trim + tb.slew)
     0 ≤ sum ∧ sum / 1000000000 < 2 ^ 64) ∧
    (let tb : TimeBase := { TimeBase.reset with st := 2 ^ 64 - 2, rem := 999999999 }
     let sum : Int := (tb.st : Int) * 1000000000 + tb.rem + (1000000000 + tb.trim + tb.slew)
     0 ≤ sum ∧ sum / 1000000000 < 2 ^ 64 ∧ tb.trim = 0 ∧ tb.slew = 0 ∧ tb.rem < 1000000000 ∧ tb.st + 1 < 2 ^ 64 ∧
       runs .oscillatorTick (timed tb) = true) := by decide +kernel

theorem test_witness_StudioTimeNeverDecreases :
    (TimeBase.WF { TimeBase.reset with st := 2 ^ 63 - 1, trim := 20000, slew := 50000 } ∧
      runs .oscillatorTick (timed { TimeBase.reset with st := 2 ^ 63 - 1, trim := 20000, slew := 50000 }) = true) ∧
    (TimeBase.WF (acquiring 43227005000 43225925000 24) ∧
      runs .referenceEdge (timed (acquiring 43227005000 43225925000 24)) = true) ∧
    (TimeBase.WF (locked 1080000) ∧ runs .timeLowRead (timed (locked 1080000)) = true) := by
  unfold TimeBase.WF; decide +kernel

theorem test_witness_TimeRegisters :
    runs (.reset true true) State.reset = true ∧ runs .engineClear State.reset = true ∧
      runs .referenceEdge (timed (acquiring 43227005000 43225925000 24)) = true := by decide +kernel

theorem test_witness_ReferenceEdgesAndMisses :
    TimeBase.reset.ref = .free ∧
    ({ TimeBase.reset with ref := .holdover, missed := 3 } : TimeBase).ref = .holdover ∧
    (let tb : TimeBase := { TimeBase.reset with ref := .acquiring }
     tb.ref = .acquiring ∧ tb.prevEdge = none) ∧
    (let tb := acquiring 1082700 0 23
     tb.qual < 24 ∧ tb.prevEdge = some 0 ∧
       (((tb.st : Int) - 0) * tb.period.d - tb.period.n).natAbs ≤ 2700 * tb.period.d) ∧
    (let tb := acquiring 1082701 0 24
     tb.prevEdge = some 0 ∧ 2700 * tb.period.d < (((tb.st : Int) - 0) * tb.period.d - tb.period.n).natAbs) ∧
    (let tb := locked 539999
     tb.ref = .locked ∧ tb.expected = some 1080000 ∧ (tb.st : Int) < (1080000 : Int) - tb.half) ∧
    (let tb : TimeBase := { locked 1620001 with missed := 1 }
     tb.ref = .locked ∧ tb.expected = some 1080000 ∧ 1080000 + tb.half < tb.st ∧ tb.missed < 2) ∧
    (let tb : TimeBase := { locked 1620001 with missed := 2 }
     tb.ref = .locked ∧ tb.expected = some 1080000 ∧ 1080000 + tb.half < tb.st ∧ tb.missed = 2) ∧
    (TimeBase.reset.ref ≠ .locked ∧ (locked 1620000).expected = some 1080000 ∧
      (locked 1620000).st ≤ 1080000 + (locked 1620000).half) := by decide +kernel

theorem test_witness_MatchedReferenceEdge :
    (∀ st ∈ [1078650, 1081350],
      (locked st).ref = .locked ∧ (locked st).expected = some 1080000 ∧ (1080000 : Int) - (locked st).half ≤ st ∧
        st ≤ 1080000 + (locked st).half ∧ ((st : Int) - 1080000).natAbs ≤ 1350) ∧
    (∀ st ∈ [540000, 1081351, 1620000], ∀ wide ∈ [1, 2],
      let tb : TimeBase := { locked st with wide := wide }
      tb.ref = .locked ∧ tb.expected = some 1080000 ∧ (1080000 : Int) - tb.half ≤ st ∧ st ≤ 1080000 + tb.half ∧
        1350 < ((st : Int) - 1080000).natAbs ∧ (tb.wide < 2 ∨ tb.wide = 2)) := by decide +kernel

theorem test_witness_Alignment :
    (∀ st ∈ [2158650, 2161350],
      let tb := acquiring st (st - 1080000) 24
      tb.ref = .acquiring ∧ tb.prevEdge = some (st - 1080000) ∧ tb.qual = 24 ∧
        (((tb.st : Int) - (st - 1080000 : Nat)) * tb.period.d - tb.period.n).natAbs ≤ 2700 * tb.period.d ∧
        tb.phi ≤ tb.st ∧ (tb.gridFrom tb.st - tb.st ≤ 1350 ∨ tb.st - tb.gridAt tb.st ≤ 1350)) ∧
    (let tb : TimeBase := { acquiring 1078649 0 24 with phi := 1079999 }
     tb.ref = .acquiring ∧ tb.prevEdge = some 0 ∧ tb.qual = 24 ∧
       (((tb.st : Int) - 0) * tb.period.d - tb.period.n).natAbs ≤ 2700 * tb.period.d ∧
       tb.st < tb.phi ∧ tb.phi - tb.st ≤ 1350) ∧
    (∀ st ∈ [2158649, 2161351],
      let s := timed (acquiring st (st - 1080000) 24)
      s.tb.ref = .acquiring ∧ s.tb.prevEdge = some (st - 1080000) ∧ s.tb.qual = 24 ∧
        (((s.tb.st : Int) - (st - 1080000 : Nat)) * s.tb.period.d - s.tb.period.n).natAbs ≤ 2700 * s.tb.period.d ∧
        1350 < s.tb.gridFrom s.tb.st - s.tb.st ∧ (s.tb.phi ≤ s.tb.st → 1350 < s.tb.st - s.tb.gridAt s.tb.st) ∧
        (∀ c : Fin 16, (s.chan c).due s.tb.st = false) ∧ s.tb.gridFrom s.tb.st < 2 ^ 64) := by decide +kernel

theorem test_witness_SetReference :
    (∀ ps ∈ ([[1, 0, 1, 0], [1, 16777216, 1, 0], [0, 100, 1, 0], [0, 1080000, 1, 1080000], [1, 127, 1, 0], [1, 128, 0, 0]] :
        List (List Word)),
      let o := order .setReference ps
      o.kind = .setReference ∧ (inHand o).oe.step = .taken o ∧
        ¬(1 ≤ (o.p 1).toNat ∧ (o.p 1).toNat ≤ 16777215 ∧ 1 ≤ (o.p 2).toNat ∧ (o.p 2).toNat ≤ 65535 ∧
          128 * (o.p 2).toNat ≤ (o.p 1).toNat ∧ (o.p 3).toNat < (o.p 1).toNat / (o.p 2).toNat)) ∧
    (∀ ps ∈ ([[0, 128, 1, 127], [1, 16777215, 65535, 255], [1, 1080000, 1, 0]] : List (List Word)),
      let o := order .setReference ps
      o.kind = .setReference ∧ (inHand o).oe.step = .taken o ∧ (o.p 0).toNat % 2 < 2 ∧
        (1 ≤ (o.p 1).toNat ∧ (o.p 1).toNat ≤ 16777215 ∧ 1 ≤ (o.p 2).toNat ∧ (o.p 2).toNat ≤ 65535 ∧
          128 * (o.p 2).toNat ≤ (o.p 1).toNat ∧ (o.p 3).toNat < (o.p 1).toNat / (o.p 2).toNat)) ∧
    (TimeBase.reset.ref = .free ∧ (locked 0).ref ≠ .free ∧ (locked 0).ref = .locked ∧
      (locked 0).period = ⟨1080000, 1⟩ ∧ (locked 0).phi = 0 ∧
      ¬(TimeBase.reset.ref = .locked ∧ TimeBase.reset.period = ⟨1080000, 1⟩ ∧ TimeBase.reset.phi = 0)) := by
  decide +kernel

theorem test_witness_TimeBaseInvariant :
    TimeBase.WF (locked 1081350) ∧
      (match step { timed (locked 1081350) with pending := [.referenceEdge] } with | .next _ => true | _ => false) = true := by
  unfold TimeBase.WF; decide +kernel

theorem test_witness_OnlyTheirCommandsChange :
    runs .pass State.reset = true ∧ runs .setReference State.reset = true ∧ runs .setAction State.reset = true ∧
      runs .timeLowRead State.reset = true ∧ runs (.attentionMaskWrite 1) State.reset = true := by decide +kernel

theorem test_witness_NextGridPoint :
    Rate.legal ⟨1125, 2⟩ = true ∧
      (let tb : TimeBase := { TimeBase.reset with period := ⟨1125, 2⟩, phi := 561 }
       let point (k : Nat) : Nat := tb.phi + k * tb.period.n / tb.period.d
       (560 < tb.phi ∧ tb.phi ≤ 561 ∧ 561 = point 0 ∧ 1123 = point 1 ∧ 1686 = point 2) ∧
         560 < point 0 ∧ 561 < point 1 ∧ 1122 < point 1 ∧ point 0 ≤ 1122 ∧ point 1 ≤ 1123 ∧ 561 ≤ point 0 ∧
         562 ≤ point 1) := by decide +kernel

theorem test_witness_EdgeAtOrBefore :
    (let g : Segment := ⟨1000, 5, ⟨128, 1⟩⟩
     g.rate.legal = true ∧ (1064 - g.instant (g.edgeAt 1064) ≤ g.instant (g.edgeAt 1064 + 1) - 1064) ∧
       (g.instant (g.edgeAt 1065 + 1) - 1065 < 1065 - g.instant (g.edgeAt 1065)) ∧
       g.instant 5 ≤ 1064 ∧ 1064 < g.instant 6 ∧ 1000 = g.instant (g.edgeAt 1000)) ∧
    (Channel.reset.cur = none ∧
      (let ch : Channel := { channel3 9 with cur := some ⟨1000, 5, ⟨128, 1⟩⟩, prior := some ⟨⟨100, 2, ⟨256, 1⟩⟩, 4⟩ }
       ch.cur = some ⟨1000, 5, ⟨128, 1⟩⟩ ∧ (channel3 9).prior = none ∧ ch.prior = some ⟨⟨100, 2, ⟨256, 1⟩⟩, 4⟩ ∧
         (∀ t ∈ ([1000, 999, 100, 99] : List Int), 1000 ≤ t ∨ (t < 1000 ∧ 100 ≤ t) ∨ (t < 1000 ∧ t < 100)) ∧
         ∀ k ∈ ([5, 4, 2, 1] : List Int), 5 ≤ k ∨ (k < 5 ∧ 2 ≤ k) ∨ (k < 5 ∧ k < 2))) := by decide +kernel

theorem test_witness_NonDropLabels :
    ∀ b ∈ [Base.b24, .b25, .b30, .b48, .b50, .b60],
      Fmt.fday ⟨b, false⟩ - 1 < Fmt.fday ⟨b, false⟩ ∧ Fmt.valid ⟨b, false⟩ ⟨23, 59, 59, b.fps - 1⟩ = true := by
  decide +kernel

theorem test_witness_DropLabels :
    (2 ≤ 17981 % 17982 ∧ 4 ≤ 35963 % 35964) ∧
    (∀ p ∈ [(Base.b30, 2), (Base.b60, 4)],
      (Fmt.fday ⟨p.1, true⟩ - 1 < Fmt.fday ⟨p.1, true⟩) ∧
        Fmt.valid ⟨p.1, true⟩ ⟨23, 59, 0, p.2⟩ = true ∧ ¬((59 : Nat) % 10 ≠ 0 ∧ (0 : Nat) = 0 ∧ p.2 < p.2) ∧
        Fmt.skipped ⟨p.1, true⟩ ⟨23, 59, 0, p.2 - 1⟩ = true ∧ Fmt.skipped ⟨p.1, true⟩ ⟨23, 59, 0, p.2⟩ = false ∧
        Fmt.skipped ⟨p.1, true⟩ ⟨23, 50, 0, 0⟩ = false) := by
  decide +kernel

theorem test_witness_SignedDifference :
    0 < 1 ∧ labelDiff (2 * 1) 1 0 = 1 ∧ labelDiff (2 * 1080000) 25 2159975 ≠ 1080000 := by decide +kernel

/-! ### Channels -/

/-- Channel 3 with settings of its own, its next edge due. -/
def edgeState (staged : Option Staged) (stop : Bool) : State :=
  stage 12 slate 3 { channel3 9 with staged := staged, stopPending := stop } 10800000

theorem test_witness_ChannelEdge :
    (∀ staged ∈ [none, some (Staged.user 42004), some (.full { Channel.reset.cfg with rate := ⟨128, 1⟩, width := 127 })],
      let s := edgeState staged false
      let ch := s.chan 3
      ch.state = .running ∧ ch.stopPending = false ∧ ch.cur = some ⟨0, 0, ⟨1080000, 1⟩⟩ ∧ ch.staged = staged ∧
        (Segment.instant ⟨0, 0, ⟨1080000, 1⟩⟩ ((ch.frame : Int) + 1)).toNat ≤ s.tb.st) ∧
    (let w : TimecodeWord := ⟨1000, 1130, timecodeCells ⟨1, 30, 38, 20⟩ ⟨.b25, false⟩ 0⟩
     let start (i : Nat) : Nat := w.edge + i * (w.next - w.edge) / 64
     (∀ p ∈ [(0, 1000), (0, 1001), (1, 1002), (31, 1063), (32, 1065), (63, 1127), (63, 1129)],
       p.1 < 64 ∧ start p.1 ≤ p.2 ∧ p.2 < start (p.1 + 1)) ∧
     (999 < w.edge ∧ w.next ≤ 1130) ∧
     ((stage 12 slate 3 { channel3 9 with tcWord := some w } 1000).chan 3).tcWord = some w ∧
     (State.reset.chan 3).tcWord = none) ∧
    (0 : Fin 16) ≠ 15 := by decide +kernel

theorem test_witness_ChannelStops :
    (let s := edgeState none true
     let ch := s.chan 3
     ch.state = .running ∧ ch.stopPending = true ∧ ch.cur = some ⟨0, 0, ⟨1080000, 1⟩⟩ ∧
       (Segment.instant ⟨0, 0, ⟨1080000, 1⟩⟩ ((ch.frame : Int) + 1)).toNat ≤ s.tb.st) ∧
    (let o := order .stopChannel [16]
     (inHand o).oe.step = .taken o ∧ o.kind = .stopChannel ∧ 16 ≤ (o.p 0).toNat) ∧
    (∀ ch ∈ [Channel.reset, { Channel.reset with state := .armed, startSt := some 9 }, channel3 9],
      let o := order .stopChannel [15]
      let s := State.setChan (inHand o) 15 ch
      s.oe.step = .taken o ∧ o.kind = .stopChannel ∧ (o.p 0).toNat = (15 : Fin 16).val ∧
        (s.chan 15).state = ch.state) := by decide +kernel

theorem test_witness_ChannelStopNotice :
    ((State.reset.slot 0).boundTo ≠ some 3 ∧ (State.reset.slot 0).state = .empty ∧
      ((stage 12 { slate with boundTo := some 3, state := .drifting } 3 (channel3 9) 5).slot 12).state = .drifting) ∧
    (∀ st ∈ [DevState.enrolled, .settling, .locked],
      let s := stage 12 { slate with boundTo := some 3, state := st, recovery := .noRecovery } 3 (channel3 9) 5
      (s.slot 12).boundTo = some 3 ∧ (s.slot 12).state = st ∧ (s.slot 12).recovery = .noRecovery) ∧
    (let s := stage 47 { slate with boundTo := some 3, state := .absent, before := some .locked } 3 (channel3 9) 5
     (s.slot 47).boundTo = some 3 ∧ (s.slot 47).state = .absent ∧ (s.slot 47).before = some .locked) ∧
    (let s := stage 0 { jamSlate with boundTo := some 3, state := .jamming, jam := some jamSent } 3 (channel3 9) 5
     (s.slot 0).boundTo = some 3 ∧ (s.slot 0).state = .jamming ∧ (s.slot 0).jam = some jamSent) := by decide +kernel

theorem test_witness_ArmedStartAndPulseEnd :
    (let s := stage 12 slate 3 { Channel.reset with state := .armed, startSt := some 5000 } 5000
     (s.chan 3).state = .armed ∧ (s.chan 3).startSt = some 5000 ∧ 5000 ≤ s.tb.st) ∧
    (let s := stage 12 slate 3 { channel3 0 with pulse := some 2000 } 2000
     (s.chan 3).pulse = some 2000) := by decide +kernel

theorem test_witness_SetChannel :
    (∀ ps ∈ ([[16, 0x10, 1080000, 1, 0, 0, 0], [3, 0x10, 127, 1, 0, 0, 0], [3, 0x90, 1080000, 1, 0, 0, 0],
        [3, 0x10, 1080000, 1, 0, 25, 0]] : List (List Word)),
      let o := order .setChannel ps
      (inHand o).oe.step = .taken o ∧ o.kind = .setChannel ∧
        (16 ≤ (o.p 0).toNat ∨ Rate.legal ⟨(o.p 2).toNat, (o.p 3).toNat⟩ = false ∨
          fmtOfCode (bits (o.p 1) 7 4) = none ∨ Fmt.valid ⟨.b25, false⟩ (labelOfWord (o.p 5)) = false)) ∧
    (∀ p ∈ ([(0x10, Channel.reset), (0x10, { Channel.reset with state := .armed, startSt := some 9 }),
        (0x10, channel3 9), (0x11, Channel.reset), (0x11, channel3 9), (0x11, { Channel.reset with bound := 1 }),
        (0x10, { channel3 9 with stopPending := true })] : List (Word × Channel)),
      let o := order .setChannel [15, p.1, 128, 1, 65535, 0x173B3B18, 7]
      let s := State.setChan (inHand o) 15 p.2
      let kind : ChanKind := if (o.p 1).toNat % 2 = 1 then .sample else .picture
      s.oe.step = .taken o ∧ o.kind = .setChannel ∧ (o.p 0).toNat = (15 : Fin 16).val ∧
        Rate.legal ⟨(o.p 2).toNat, (o.p 3).toNat⟩ = true ∧ fmtOfCode (bits (o.p 1) 7 4) = some ⟨.b25, false⟩ ∧
        Fmt.valid ⟨.b25, false⟩ (labelOfWord (o.p 5)) = true ∧ (s.chan 15).state = p.2.state ∧
        (s.chan 15).stopPending = p.2.stopPending ∧ (s.chan 15).bound = p.2.bound ∧
        (kind = .sample ↔ p.1 = 0x11)) := by decide +kernel

theorem test_witness_StartChannel :
    (let o := order .startChannel [16, 0, 0]
     (inHand o).oe.step = .taken o ∧ o.kind = .startChannel ∧ 16 ≤ (o.p 0).toNat) ∧
    (let o := order .startChannel [3, 0, 0]
     let s := State.setChan (inHand o) 3 (channel3 9)
     s.oe.step = .taken o ∧ (o.p 0).toNat = (3 : Fin 16).val ∧ (s.chan 3).state ≠ .stopped) ∧
    (∀ st ∈ [999999999, 1000000000],
      let o := order .startChannel [15, 1000000000, 0]
      let s : State := { inHand o with tb := { TimeBase.reset with st := st } }
      s.oe.step = .taken o ∧ (o.p 0).toNat = (15 : Fin 16).val ∧ (s.chan 15).state = .stopped ∧ o.grid = false ∧
        1000000000 = (o.p 1).toNat + 2 ^ 32 * (o.p 2).toNat ∧ (s.tb.st < 1000000000 ∨ 1000000000 ≤ s.tb.st)) ∧
    (let o : Order := ⟨.startChannel, false, false, true, [15, 0, 0]⟩
     let s : State := { inHand o with tb := { TimeBase.reset with st := 1080000 } }
     s.oe.step = .taken o ∧ (s.chan 15).state = .stopped ∧ o.grid = true ∧ 2160000 = s.tb.gridAfter s.tb.st ∧
       2160000 < 2 ^ 64 ∧ s.tb.period.legal = true) ∧
    (watchEntry 3 { channel3 9 with state := .armed } 10000000).isSome = true := by decide +kernel

theorem test_witness_StepAtChannelsAndRoster :
    (State.reset.chan 3).state = .stopped ∧
    (let s := edgeState none false
     let edge := (Segment.instant ⟨0, 0, ⟨1080000, 1⟩⟩ (((s.chan 3).frame : Int) + 1)).toNat
     (s.chan 3).state = .running ∧ (s.chan 3).cur = some ⟨0, 0, ⟨1080000, 1⟩⟩ ∧ (s.chan 3).stopPending = false ∧
       (s.chan 3).staged = none ∧ Rate.legal ⟨1080000, 1⟩ = true ∧ ¬(10000000 < edge ∧ edge < 10800000) ∧
       10799999 < edge ∧ edge < 10800001) ∧
    ((edgeState none true).chan 3).stopPending = true ∧
    (∀ staged ∈ [Staged.user 42004, .full { Channel.reset.cfg with rate := ⟨128, 1⟩ }],
      ((edgeState (some staged) false).chan 3).staged = some staged ∧ Rate.legal ⟨128, 1⟩ = true) ∧
    (let s := stage 12 slate 3 { Channel.reset with state := .armed, startSt := some 5000 } 4000
     (s.chan 3).state = .armed ∧ (s.chan 3).startSt = some 5000 ∧ ¬(4000 < 5000 ∧ 5000 < 5000) ∧ 5000 < 5001 ∧
       (s.chan 3).cfg.rate.legal = true) ∧
    (jamSlate.boundTo = none ∧ jamSlate.anchor = some ⟨100, 1000000⟩ ∧ jamSlate.verify = none ∧ jamSlate.jam = none ∧
      1000000 + (2 ^ 64 - 1 - 1000000) < 2 ^ 64) ∧
    (let d : Device := { jamSlate with state := .jamming, jam := some jamSent }
     d.boundTo = none ∧ d.jam = some jamSent ∧ jamSent.setInstant = some 50000000000) ∧
    (let d : Device := { jamSlate with boundTo := some 3 }
     d.jam = none ∧ d.boundTo ≠ none) ∧
    (let d : Device := { jamSlate with verify := some ⟨101, 2080000⟩ }
     d.jam = none ∧ d.boundTo = none ∧ d.anchor = some ⟨100, 1000000⟩ ∧ d.verify = some ⟨101, 2080000⟩ ∧
       1000000 + 1075000 < 2 ^ 64 ∧ 2080000 + 1075000 < 2 ^ 64) ∧
    (let d : Device := { jamSlate with boundTo := some 3, state := .jamming, jam := some jamSent }
     d.jam = some jamSent ∧ d.boundTo ≠ none ∧ jamSent.setInstant = some 50000000000 ∧ 50000000000 + 1075000 < 2 ^ 64) := by
  decide +kernel

/-- Slot 12 is the only occupied one, bound to channel 3. -/
def boundState : State :=
  stage 12
    { jamSlate with boundTo := some 3, offset := some 250, drift := 0, recovery := .jam } 3
    { channel3 9 with bound := 1, staged := some (.full Channel.reset.cfg), stopPending := true, pulse := some 9 } 10800000

theorem rosterWF_of_one (s : State) (i : Fin 48) (h : ∀ k, k ≠ i → s.slot k = Device.emptyRecord)
    (he : Device.emptyRecord.PartsWF ∧ Device.emptyRecord.ValuesWF) (hi : (s.slot i).PartsWF ∧ (s.slot i).ValuesWF) :
    s.RosterWF := by
  refine ⟨fun k => ?_, fun j k hj hk _ => ?_⟩
  · by_cases hk : k = i
    · exact hk ▸ hi
    · rw [h k hk]; exact he
  · by_cases hji : j = i
    · by_cases hki : k = i
      · rw [hji, hki]
      · rw [h k hki] at hk; exact absurd hk (by decide)
    · rw [h j hji] at hj; exact absurd hj (by decide)

theorem empty_record_wf : Device.emptyRecord.PartsWF ∧ Device.emptyRecord.ValuesWF := by
  simp [Device.PartsWF, Device.ValuesWF, Device.translationState, Device.emptyRecord, Device.occupied]

theorem bound_state_roster : boundState.RosterWF := by
  refine rosterWF_of_one _ 12 (by decide +kernel) empty_record_wf ?_
  have : boundState.slot 12 =
      { jamSlate with boundTo := some 3, offset := some 250, drift := 0, recovery := .jam } := by decide +kernel
  rw [this]
  simp [Device.PartsWF, Device.ValuesWF, Device.translationState, jamSlate, slate, Device.emptyRecord, Device.occupied,
    Rate.legal, Fmt.legal]

theorem bound_state_channels : (∀ c : Fin 16, (boundState.chan c).WF) ∧ boundState.BoundWF := by
  have h0 : Channel.reset.WF := by
    simp [Channel.WF, Channel.PartsWF, Settings.WF, Channel.reset, Rate.legal, Fmt.legal, Fmt.fday, Base.fps]
  have h3 : boundState.chan 3 =
      { channel3 9 with bound := 1, staged := some (.full Channel.reset.cfg), stopPending := true, pulse := some 9 } := by
    decide +kernel
  have hk : ∀ c, c ≠ 3 → boundState.chan c = Channel.reset := by decide +kernel
  refine ⟨fun c => ?_, ?_⟩
  · by_cases hc : c = 3
    · rw [hc, h3]
      simp [Channel.WF, Channel.PartsWF, Settings.WF, channel3, Channel.reset, Rate.legal, Fmt.legal, Fmt.fday, Base.fps]
    · rw [hk c hc]; exact h0
  · unfold State.BoundWF; decide +kernel

theorem test_witness_ChannelInvariant :
    (boundState.RosterWF ∧ (∀ c : Fin 16, (boundState.chan c).WF) ∧ boundState.BoundWF) ∧
      (match step { boundState with pending := [.channelEdge 3] } with | .next _ => true | _ => false) = true :=
  ⟨⟨bound_state_roster, bound_state_channels⟩, by decide +kernel⟩

/-! ### Link and roster -/

theorem test_witness_TelegramCheck :
    (∀ p ∈ [(LinkPhase.sendingSet, 9), (.sendingCall, 4)], ∀ timer ∈ [0, 270 * p.2 - 1, 270 * p.2],
      let lc : Link := { serving p.1 timer with tx := List.replicate p.2 0xC5 }
      (lc.phase = .sendingSet ∨ lc.phase = .sendingCall) ∧
        (lc.timer < 270 * lc.tx.length ∨ 270 * lc.tx.length ≤ lc.timer)) ∧
      (Link.reset.phase ≠ .sendingSet ∧ Link.reset.phase ≠ .sendingCall) := by decide +kernel

/-- A link state with slot 12 at address 21. -/
def linked (d : Device) (lc : Link) : State := { stage 12 d 3 (channel3 46296) 50000000000 with lc := lc }

theorem test_witness_RotationSearch :
    (linked slate { Link.reset with rotation := 12 }).rotationCandidate = some 12 ∧
      State.reset.rotationCandidate = none ∧
      (linked slate { Link.reset with urgent := [12] }).urgentCandidate = some 12 ∧ Link.reset.lastUrgent = false ∧
      (linked { slate with held := true } { Link.reset with urgent := [12] }).rotationCandidate = none ∧
      (linked { slate with held := true } { Link.reset with urgent := [12] }).urgentCandidate = none ∧
      (12 ∈ ({ Link.reset with urgent := [12] } : Link).urgent ∧ 12 ∉ Link.reset.urgent ∧ Link.reset.turn = none ∧
        (serving .window 0 true).turn = some ⟨12, 21, true⟩ ∧ 12 ∉ (serving .window 0 true).urgent ∧
        (serving .window 0).turn = some ⟨12, 21, false⟩) := by
  decide +kernel

theorem test_witness_NextTurn :
    (State.reset.lc.phase = .idle ∧ State.reset.nextTurnChoice = none) ∧
    (let s := linked slate (serving .gap 540)
     s.lc.phase = .gap ∧ 540 ≤ s.lc.timer ∧ s.nextTurnChoice = some (false, 12)) ∧
    (let s := linked { jamSlate with state := .jamming, jam := some jamSent } { Link.reset with urgent := [12] }
     s.lc.phase = .idle ∧ s.nextTurnChoice = some (true, 12) ∧ (s.slot 12).jam = some jamSent ∧ jamSent.setPending = false) ∧
    (let s := linked slate (serving .gap 539)
     s.lc.phase ≠ .idle ∧ s.lc.timer < 540) := by decide +kernel

theorem test_witness_SetTurn :
    ∀ ch ∈ [channel3 46296, { channel3 46296 with state := .stopped }, { channel3 46296 with kind := .sample },
        { channel3 46296 with cfg := { Channel.reset.cfg with fmt := ⟨.b24, false⟩ } }],
      let s := (linked { jamSlate with state := .jamming, jam := some jamPending } { Link.reset with urgent := [12] }).setChan 3 ch
      s.lc.phase = .idle ∧ s.nextTurnChoice = some (true, 12) ∧ (s.slot 12).jam = some jamPending ∧
        jamPending.setPending = true ∧ jamPending.source = 3 ∧
        ((ch = channel3 46296 ∧ ch.state = .running ∧ ch.kind = .picture ∧ ch.cfg.fmt = (s.slot 12).fmt ∧
            ch.segmentAt ((s.tb.st : Int) + 2430) = some (⟨0, 0, ⟨1080000, 1⟩⟩, false)) ∨
          ch.state ≠ .running ∨ ch.kind ≠ .picture ∨ ch.cfg.fmt ≠ (s.slot 12).fmt) := by decide +kernel

theorem test_witness_TurnEvents :
    (let lc := serving .sendingSet 2430 true
     lc.phase = .sendingSet ∧ lc.turn = some ⟨12, 21, true⟩ ∧ 2430 ≤ lc.timer) ∧
    ((serving .sendingCall 1080).phase = .sendingCall ∧ 1080 ≤ (serving .sendingCall 1080).timer) ∧
    ((serving .window 8100).phase = .window ∧ (serving .window 8100).timer ≤ 8100) ∧
    (State.reset.exch = none ∧
      ∀ d ∈ [slate, { jamSlate with state := .jamming, jam := some jamSent }],
        let s : State := { linked d (serving .window 8100 true) with exch := some ⟨12, 4096, .waitService, false⟩ }
        s.exch = some ⟨12, 4096, .waitService, false⟩ ∧ (s.slot 12).state = d.state) := by decide +kernel

theorem test_witness_AnswerWindowClose :
    (∀ d ∈ [slate, { slate with linkAddr := 22 }, Device.emptyRecord],
      let s := linked d (serving .window 8100)
      s.lc.phase = .window ∧ s.lc.turn = some ⟨12, 21, false⟩ ∧ 8100 ≤ s.lc.timer ∧
        (((s.slot 12).state ≠ .empty ∧ (s.slot 12).linkAddr = 21) ∨ (s.slot 12).state = .empty ∨ (s.slot 12).linkAddr ≠ 21)) ∧
    (∀ st ∈ [DevState.enrolled, .settling, .locked, .drifting, .jamming], ∀ miss ∈ [6, 7],
      let s := linked { slate with state := st, miss := miss } Link.reset
      (s.slot 12).state = st ∧ (s.slot 12).state ≠ .empty ∧ (s.slot 12).state ≠ .absent ∧
        ((s.slot 12).miss < 7 ∨ (s.slot 12).miss = 7)) ∧
    ((linked { slate with state := .absent, before := some .enrolled } Link.reset).slot 12).state = .absent := by
  decide +kernel

theorem test_witness_AnswerEnd :
    (∀ p ∈ [(slate, reportOf [0x15, 0x6A, 10, 0, 0, 0, 64, 0], false), (slate, reportOf [0x15, 0x6A, 24, 0, 0, 0, 64, 0], true),
        ({ slate with linkAddr := 22 }, reportOf [0x15, 0x6A, 10, 0, 0, 0, 64, 0], false),
        ({ slate with linkAddr := 22 }, reportOf [0x15, 0x6A, 24, 0, 0, 0, 64, 0], true)],
      let s := linked p.1 (serving (.answering 5400 0) 2700)
      s.lc.phase = .answering 5400 0 ∧ s.lc.turn = some ⟨12, 21, false⟩ ∧ answerComplete p.2.1 = true ∧
        p.2.1.length * 270 ≤ s.lc.timer ∧ garbledAnswer p.2.1 false 21 (s.slot 12) = p.2.2 ∧
        (s.slot 12).state ≠ .empty ∧ ((s.slot 12).linkAddr = 21 ∨ (s.slot 12).linkAddr ≠ 21)) ∧
    (TimeBase.reset.gen = 0 ∧ ({ TimeBase.reset with gen := 1 } : TimeBase).gen ≠ 0) ∧
    (∀ d ∈ [slate, { slate with linkAddr := 22 }],
      let s := linked d (serving (.answering 5400 0) 3240)
      s.lc.phase = .answering 5400 0 ∧ s.lc.turn = some ⟨12, 21, false⟩ ∧
        (let chars := (reportOf [0x15, 0x70, 10, 0, 0, 0, 64, 4, 1]).take 10
         answerCutShort chars = true ∧ chars.length * 270 + 540 ≤ s.lc.timer)) ∧
    (slate.state ≠ .empty ∧
      ∀ p ∈ ([([0x15, 0x4A, 10, 0, 0, 0, 64, 0], 21, true), ([0x15, 0x6A, 10, 0, 0, 0, 64, 4], 21, true),
          ([0x15, 0x70, 10, 0, 0, 0, 64, 0, 0, 0, 10, 0, 0, 0], 21, true), ([0x15, 0x6A, 10, 0, 0, 0, 64, 0], 22, true),
          ([0x15, 0x6A, 10, 0, 0, 24, 64, 0], 21, false), ([0x15, 0x6A, 23, 59, 59, 23, 64, 0], 21, false)] :
          List (List Byte × Nat × Bool)),
        let chars := reportOf p.1
        let vs := chars.map RxChar.value
        let declared := (vs.getD 2 0).toNat % 32
        answerComplete chars = true ∧ crc8 ((vs.drop 1).dropLast) = vs.getLastD 0 ∧ chars.length = declared ∧
          ((vs.getD 0 0 ≠ 0xC5 ∨ (∃ c ∈ chars, c.framingError = true) ∨ (vs.getD 2 0).toNat / 32 ≠ 3 ∨
            declared ∉ [10, 16, 22, 28] ∨ (vs.getD 8 0).toNat / 4 % 4 ≠ (declared - 10) / 6 ∨
            (vs.getD 1 0).toNat ≠ p.2.1) ↔ p.2.2 = true)) := by decide +kernel

theorem test_witness_ReportReadsBack :
    (1 ≤ 63 ∧ slate.state ≠ .empty ∧ slate.fmt.valid ⟨23, 59, 59, 23⟩ = true ∧ 255 ≤ 255 ∧ 15 ≤ 15) ∧
      (let marks : List MarkEntry := List.replicate 3 ⟨255, 255, ⟨255, 255, 255, 255⟩⟩
       marks.length ≤ 3 ∧
         ∀ m ∈ marks, m.kind ≤ 255 ∧ m.sub ≤ 255 ∧ m.label.hh ≤ 255 ∧ m.label.mm ≤ 255 ∧ m.label.ss ≤ 255 ∧
           m.label.ff ≤ 255) ∧
      (let received := reportOf [0x15, 0x70, 10, 0, 0, 0, 64, 4, 1, 0, 10, 0, 0, 0]
       (∀ p ∈ ([(0, ⟨0xC4, false⟩), (1, ⟨0x16, false⟩), (2, ⟨0x6A, false⟩), (8, ⟨0, false⟩), (14, ⟨1, false⟩),
            (15, ⟨0, true⟩)] : List (Nat × RxChar)),
         p.1 < received.length ∧ received[p.1]? ≠ some p.2) ∧
       answerComplete ((received.set 2 ⟨0x6A, false⟩).take 10) = true) := by decide +kernel

theorem test_witness_AdoptingReport :
    (((linked { slate with state := .drifting } Link.reset).slot 12).state = .drifting) ∧
    (let d := (linked slate Link.reset).slot 12
     d.state = .enrolled ∧ d.boundTo = none) ∧
    (let s := (linked { slate with boundTo := some 3 } Link.reset).setChan 3 { channel3 9 with state := .stopped }
     (s.slot 12).state = .enrolled ∧ (s.slot 12).boundTo = some 3 ∧ (s.chan 3).state ≠ .running) ∧
    (let s := linked { slate with boundTo := some 3 } Link.reset
     (s.slot 12).boundTo = some 3 ∧ (s.chan 3).state = .running ∧
       (s.chan 3).segmentAt 0 = some (⟨0, 0, ⟨1080000, 1⟩⟩, false)) := by decide +kernel

/-- REPORTs for a SETTLING or LOCKED slate with anchor 864,000 at 5,000,000,000 and path delay 540. -/
def tested (st : DevState) (bad : Nat) (ref : RefState) (boundTo : Option (Fin 16)) : State :=
  { stage 12
      { slate with state := st, bad := bad, good := 1, anchor := some ⟨864000, 5000000000⟩, boundTo := boundTo
                   offset := boundTo.map (fun _ => 864000) } 3 (channel3 4630) 5000000540 with
    tb := { TimeBase.reset with ref := ref } }

/-- The anchored slate with the widest window, 1,000 frames after its anchor: a REPORT of label 865,000 and edge instant
`edge` is consistent, and gives the drift `m`. -/
def spans (st : DevState) (before : Option DevState) (edge : Nat) (m : Int) : Bool :=
  let d : Device :=
    { slate with state := st, before := before, anchor := some ⟨864000, 5000000000⟩, window := 1000000 }
  let s := stage 12 d 3 (channel3 9) 6126125540
  let df := labelDiff d.fmt.fday 865000 864000
  decide ((s.slot 12).state = st) && decide ((s.slot 12).before = before) && decide (s.tb.ref = .free) &&
    decide ((s.translateSlot { d with state := .settling, before := none } 865000 0).st = some 6126125000) &&
    decide (reportEdge (edge + 540) d.pathDelay d.rate 0 = edge) &&
    decide (((edge : Int) - 6126125000).natAbs ≤ d.window) && decide (1000 ≤ df) &&
    decide ((2 * ((edge : Int) - 5000000000) * d.rate.d * 1000000000 + df * d.rate.n) / (2 * df * d.rate.n) - 1000000000 = m)

theorem test_witness_TestedReport :
    (∀ stamp ∈ [5000000540, 5000014040, 5000014041], ∀ st ∈ [DevState.settling, .locked], ∀ bad ∈ [0, 1],
      let s := tested st bad .locked none
      let d := s.slot 12
      (d.state = .settling ∨ d.state = .locked) ∧ (s.translateSlot d 864000 0).st = some 5000000000 ∧ d.boundTo = none ∧
        d.bad = bad ∧ d.anchor = some ⟨864000, 5000000000⟩ ∧
        ((((reportEdge stamp d.pathDelay d.rate 0 : Nat) : Int) - 5000000000).natAbs ≤ d.window ↔ stamp ≠ 5000014041)) ∧
    (let s := tested .settling 0 .holdover none
     (s.translateSlot (s.slot 12) 864000 0).st = some 5000000000 ∧ s.tb.ref = .holdover) ∧
    ((tested .locked 0 .free (some 3)).slot 12).boundTo ≠ none ∧
    ((tested .locked 0 .free (some 3)).translateSlot ((tested .locked 0 .free (some 3)).slot 12) 864000 0).st.isSome = true ∧
    (∀ ch ∈ [channel3 4630, { channel3 4630 with state := .stopped }],
      let s := (tested .settling 0 .locked (some 3)).setChan 3 ch
      let d := s.slot 12
      d.state = .settling ∧ d.boundTo = some 3 ∧ (s.translateSlot d 864000 0).st = some 0 ∧
        ¬(((reportEdge 5000000540 d.pathDelay d.rate 0 : Nat) : Int) - 0).natAbs ≤ d.window ∧
        ((s.chan 3).state ≠ .running ∨
          (s.chan 3).segmentAt (reportEdge 5000000540 d.pathDelay d.rate 0) = some (⟨0, 0, ⟨1080000, 1⟩⟩, false))) ∧
    ((if (tested .settling 0 .locked none).slot 12 |>.dualTrack then 3 else 2) ≤ min 3 (1 + 1) ∧
      ¬((if true then 3 else 2) ≤ min 3 (1 + 1))) ∧
    (labelDiff 2073600 864999 864000 < 1000 ∧
      ∀ st ∈ [DevState.settling, .locked],
        ∀ p ∈ ([(6126125112, 99), (6126237612, 100000), (6126237614, 100001), (6126012388, -100000), (6126012386, -100001)] : List (Nat × Int)),
          spans st none p.1 p.2 = true) := by
  decide +kernel

theorem test_witness_DriftingAndReturn :
    (slate.recovery = .adopt ∧ jamSlate.recovery = .noRecovery ∧
      ∀ d ∈ [{ jamSlate with recovery := .jam }, { jamSlate with recovery := .jam, protectedFlag := true },
          { jamSlate with recovery := .jam, jamSource := some 3 }, { jamSlate with recovery := .jam, boundTo := some 4 }],
        let s := linked d Link.reset
        (s.slot 12).recovery = .jam ∧
          (d.recoverySource = none ∨ (d.recoverySource = some 3 ∧ usableSource (s.chan 3) d = true) ∨
            (d.recoverySource = some 4 ∧ usableSource (s.chan 4) d = false))) ∧
    (∀ b ∈ [DevState.enrolled, .settling, .locked, .drifting],
      let anchor : Option Tie := if b = .enrolled then none else some ⟨864000, 5000000000⟩
      let s := stage 12 { slate with state := .absent, before := some b, anchor := anchor } 3 (channel3 9) 5000000540
      (s.slot 12).state = .absent ∧ (s.slot 12).before = some b ∧ (s.slot 12).boundTo = none ∧
        (b = .enrolled ∨
          (s.slot 12).anchor ≠ none ∧ (s.translateSlot { s.slot 12 with state := .settling, before := none } 864000 0).st =
            some 5000000000)) ∧
    (((reportEdge 5000014040 540 ⟨1126125, 1⟩ 0 : Nat) : Int) - 5000000000).natAbs ≤ 13500 ∧
    13500 < (((reportEdge 5000014041 540 ⟨1126125, 1⟩ 0 : Nat) : Int) - 5000000000).natAbs ∧
    (timed { TimeBase.reset with ref := .holdover }).tb.ref = .holdover ∧
    (∀ ch ∈ [channel3 46296, { channel3 46296 with state := .stopped }],
      let s := (linked { slate with state := .absent, before := some .enrolled, boundTo := some 3 } Link.reset).setChan 3 ch
      (s.slot 12).state = .absent ∧ (s.slot 12).before = some .enrolled ∧ (s.slot 12).boundTo = some 3 ∧
        ((s.chan 3).state ≠ .running ∨ (s.chan 3).segmentAt 0 = some (⟨0, 0, ⟨1080000, 1⟩⟩, false))) ∧
    (∀ b ∈ [DevState.settling, .locked],
      ∀ p ∈ ([(6126125112, 99), (6126237612, 100000), (6126237614, 100001), (6126012388, -100000), (6126012386, -100001)] : List (Nat × Int)),
        spans .absent (some b) p.1 p.2 = true) := by decide +kernel

theorem test_witness_VerifyReport :
    (∀ j ∈ [jamPending, jamSent, { jamSent with reports := 1 }, { jamSent with reports := 1, retries := 1 },
        { jamSent with reports := 1, retries := 1, source := 4 }],
      let s := linked { jamSlate with state := .jamming, jam := some j } Link.reset
      (s.slot 12).state = .jamming ∧ (s.slot 12).jam = some j ∧
        (j.setPending = true ∨ (j.setPending = false ∧ j.setInstant = some 50000000000 ∧ j.label = some 136297)) ∧
        (usableSource (s.chan j.source) (s.slot 12) = true ↔ j.source = 3) ∧ (1 < j.reports ∨ j.reports ≤ 1)) ∧
    (let e := (136297 + (50000002431 - (50000000000 + 2430)) * 1 / 1080000) % 2160000
     reportEdge (50000002430 + 540) 540 ⟨1080000, 1⟩ 0 ≤ 50000000000 + 2430 ∧
       50000000000 + 2430 < reportEdge (50000002431 + 540) 540 ⟨1080000, 1⟩ 0 ∧ e = 136297 ∧
       (136296 = e ∨ 136296 = (e + 2160000 - 1) % 2160000) ∧
       ¬(136298 = e ∨ 136298 = (e + 2160000 - 1) % 2160000)) ∧
    (∀ ch ∈ [channel3 46296, { channel3 46296 with state := .stopped }],
      let s := (linked { jamSlate with state := .jamming, jam := some jamSent, boundTo := some 3 } Link.reset).setChan 3 ch
      (s.slot 12).state = .jamming ∧ (s.slot 12).jam = some jamSent ∧ (s.slot 12).boundTo = some 3 ∧
        ((s.chan 3).state ≠ .running ∨ (s.chan 3).segmentAt 50000002431 = some (⟨0, 0, ⟨1080000, 1⟩⟩, false))) := by
  decide +kernel

theorem test_witness_JamEnd :
    (∀ j ∈ [jamSent, { jamPending with pendingDelay := some 9, waiting := false }],
      (linked { jamSlate with state := .jamming, jam := some j } Link.reset |>.slot 12).jam = some j) ∧
      jamPending.setSent = false ∧ jamSent.setSent = true := by decide +kernel

/-- Slot 12 is JAMMING, waited for, and in the urgent queue; the SET turn is next. -/
def jamState : State :=
  { linked { jamSlate with state := .jamming, jam := some jamPending } { Link.reset with urgent := [12] } with
    pending := [.nextTurn] }

theorem jam_state_roster : jamState.RosterWF := by
  refine rosterWF_of_one _ 12 (by decide +kernel) empty_record_wf ?_
  have : jamState.slot 12 = { jamSlate with state := .jamming, jam := some jamPending } := by decide +kernel
  rw [this]
  simp [Device.PartsWF, Device.ValuesWF, Device.translationState, jamSlate, slate, Device.emptyRecord, Device.occupied,
    Rate.legal, Fmt.legal, jamPending, JamContext.start, DevState.rememberable]

theorem test_witness_UrgentInvariant :
    (jamState.RosterWF ∧ jamState.UrgentWF) ∧ (match step jamState with | .next _ => true | _ => false) = true :=
  ⟨⟨jam_state_roster, by unfold State.UrgentWF; decide +kernel⟩, by decide +kernel⟩

theorem test_witness_RosterInvariant :
    jamState.RosterWF ∧ (match step jamState with | .next _ => true | _ => false) = true :=
  ⟨jam_state_roster, by decide +kernel⟩

theorem test_witness_Enrol :
    (let o := order .enrol [48, 9, 0x00030110, 1080000, 1, 540, 0]
     (inHand o).oe.step = .taken o ∧ o.kind = .enrol ∧ (inHand o).exch = none ∧ 48 ≤ (o.p 0).toNat) ∧
    (∀ ps ∈ ([[47, 0, 0x110, 1080000, 1, 540, 0], [47, 64, 0x110, 1080000, 1, 540, 0], [47, 9, 0x110, 127, 1, 540, 0],
        [47, 9, 0x160, 1080000, 1, 540, 0], [47, 9, 0x00100110, 1080000, 1, 540, 0], [47, 9, 0x110, 1080000, 1, 540, 1000001],
        [47, 9, 0x11C, 1080000, 1, 540, 0], [47, 9, 0x10000210, 1080000, 1, 540, 0]] : List (List Word)),
      let o := order .enrol ps
      let w := o.p 2
      (inHand o).oe.step = .taken o ∧ (o.p 0).toNat = (47 : Fin 48).val ∧
        ((o.p 1).toNat = 0 ∨ 63 < (o.p 1).toNat ∨ Rate.legal ⟨(o.p 3).toNat, (o.p 4).toNat⟩ = false ∨
          fmtOfCode (bits w 7 4) = none ∨ (bit w 8 = true ∧ 16 ≤ bits w 23 16) ∨ 1000000 < (o.p 6).toNat ∨
          bits w 3 2 = 3 ∨ (bit w 9 = true ∧ 16 ≤ bits w 31 24))) ∧
    (∀ ps ∈ ([[47, 63, 0x010F0112, 128, 1, 65535, 1000000], [47, 9, 0x0010, 1080000, 1, 540, 0], [47, 9, 0x17, 1080000, 1, 540, 1],
        [12, 9, 0x10, 1080000, 1, 540, 0], [47, 21, 0x10, 1080000, 1, 540, 0]] : List (List Word)),
      let o := order .enrol ps
      let w := o.p 2
      ¬((o.p 1).toNat = 0 ∨ 63 < (o.p 1).toNat ∨ Rate.legal ⟨(o.p 3).toNat, (o.p 4).toNat⟩ = false ∨
          fmtOfCode (bits w 7 4) = none ∨ (bit w 8 = true ∧ 16 ≤ bits w 23 16) ∨ 1000000 < (o.p 6).toNat ∨
          bits w 3 2 = 3 ∨ (bit w 9 = true ∧ 16 ≤ bits w 31 24)) ∧
        ((classOfCode (bits w 1 0) = .suite ∧ bits w 3 2 = 1) ↔ o.p 2 = 0x17)) ∧
    (let s := linked slate Link.reset
     (s.slot 12).state ≠ .empty ∧ (s.slot 47).state = .empty ∧ (12 : Fin 48) ≠ 47 ∧ (s.slot 12).linkAddr = 21 ∧
       (∀ j : Fin 48, ¬(j ≠ 47 ∧ (s.slot j).state ≠ .empty ∧ (s.slot j).linkAddr = 9)) ∧
       ((s.setChan 15 { Channel.reset with kind := .sample }).chan 15).kind ≠ .picture ∧ (s.chan 15).kind = .picture) ∧
    ((15 < 16 ∧ (15 : Fin 16).val = 15 ∧ 16 ≤ 16) ∧ ∀ c ∈ [0, 5, 10, 13], c < 16 ∧ (fmtOfCode c).isSome = true) := by
  decide +kernel

theorem test_witness_SetDevice :
    (let o := order .setDevice [48, 0, 0, 0]
     (inHand o).oe.step = .taken o ∧ o.kind = .setDevice ∧ (inHand o).exch = none ∧ 48 ≤ (o.p 0).toNat) ∧
    (∀ ps ∈ ([[12, 0, 1000001, 0], [12, 0, 0, 0xC], [12, 0, 0, 0x10000200]] : List (List Word)),
      let o := order .setDevice ps
      (inHand o).oe.step = .taken o ∧ (o.p 0).toNat = (12 : Fin 48).val ∧
        (1000000 < (o.p 2).toNat ∨ bits (o.p 3) 3 2 = 3 ∨ (bit (o.p 3) 9 = true ∧ 16 ≤ bits (o.p 3) 31 24))) ∧
    (∀ p ∈ ([(540, Device.emptyRecord), (540, slate), (541, slate), (65535, { slate with state := .settling }), (0, jamSlate),
        (541, { slate with state := .drifting }), (541, { slate with state := .absent, before := some .enrolled }),
        (541, { jamSlate with state := .jamming, jam := some jamSent }),
        (540, { jamSlate with state := .jamming, jam := some jamSent })] : List (Word × Device)),
      let o := order .setDevice [12, p.1, 1000000, 0x0F000208]
      let s := State.setSlot (inHand o) 12 p.2
      s.oe.step = .taken o ∧ (o.p 0).toNat = (12 : Fin 48).val ∧ s.exch = none ∧ (s.slot 12).state = p.2.state ∧
        (s.slot 12).jam = p.2.jam ∧
        ¬(1000000 < (o.p 2).toNat ∨ bits (o.p 3) 3 2 = 3 ∨ (bit (o.p 3) 9 = true ∧ 16 ≤ bits (o.p 3) 31 24)) ∧
        recoveryOfCode (bits (o.p 3) 3 2) = some .adopt ∧ optChan (bit (o.p 3) 9) (bits (o.p 3) 31 24) = some (some 15)) ∧
    (bits (4 : Word) 3 2 = 1 ∧ ({ slate with cls := .suite } : Device).cls = .suite) ∧
    ({ jamSent with pendingDelay := some 9 } : JamContext).pendingDelay = some 9 := by decide +kernel

theorem test_witness_ReleaseAndAdopt :
    (∀ k ∈ [OrderKind.release, .adopt],
      let o := order k [48]
      (inHand o).oe.step = .taken o ∧ o.kind = k ∧ (inHand o).exch = none ∧ 48 ≤ (o.p 0).toNat) ∧
    (∀ k ∈ [OrderKind.release, .adopt],
      ∀ d ∈ [Device.emptyRecord, slate, { slate with state := .settling }, jamSlate, { slate with state := .drifting },
          { slate with state := .absent, before := some .enrolled }, { jamSlate with state := .jamming, jam := some jamSent },
          { jamSlate with boundTo := some 15, drift := 0 }],
        let o := order k [47]
        let s := State.setSlot (inHand o) 47 d
        s.oe.step = .taken o ∧ o.kind = k ∧ s.exch = none ∧ (o.p 0).toNat = (47 : Fin 48).val ∧
          (s.slot 47).state = d.state) := by decide +kernel

theorem test_witness_JamOrder :
    (let o := order .jam [48, 0, 0]
     (inHand o).oe.step = .taken o ∧ o.kind = .jam ∧ (inHand o).exch = none ∧ 48 ≤ (o.p 0).toNat) ∧
    (3 < ((order .jam [12, 0x0301, 4]).p 2).toNat ∧
      (bit ((order .jam [12, 0x1001, 3]).p 1) 0 = true ∧ 16 ≤ bits ((order .jam [12, 0x1001, 3]).p 1) 15 8)) ∧
    (∀ d ∈ [Device.emptyRecord, jamSlate, { jamSlate with state := .jamming, jam := some jamSent },
        { jamSlate with state := .absent, before := some .locked }, { jamSlate with protectedFlag := true },
        { jamSlate with cls := .suite }, { jamSlate with boundTo := some 3, drift := 0 }, slate],
      let o : Order := ⟨.jam, false, true, false, [12, 0x0300, 3]⟩
      let s := State.setChan (State.setSlot (inHand o) 12 d) 3 (channel3 46296)
      s.oe.step = .taken o ∧ s.exch = none ∧ (o.p 0).toNat = (12 : Fin 48).val ∧ ¬ 3 < (o.p 2).toNat ∧
        bit (o.p 1) 0 = false ∧ (s.slot 12).state = d.state ∧ (s.slot 12).boundTo = d.boundTo) ∧
    (∀ p ∈ ([(0x0301, 3), (0x0F01, 15)] : List (Word × Nat)),
      let o : Order := ⟨.jam, false, false, false, [12, p.1, 0]⟩
      ¬(3 < (o.p 2).toNat ∨ (bit (o.p 1) 0 = true ∧ 16 ≤ bits (o.p 1) 15 8)) ∧ bit (o.p 1) 0 = true ∧
        bits (o.p 1) 15 8 = p.2) ∧
    (let s := State.setChan State.reset 3 (channel3 46296)
     ((s.chan 3).state = .running ∧ (s.chan 3).kind = .picture ∧ (s.chan 3).cfg.fmt = jamSlate.fmt) ∧
       (s.chan 3).cfg.fmt ≠ slate.fmt ∧ (s.chan 15).state ≠ .running) :=
  ⟨by decide +kernel, by decide +kernel, by decide +kernel, by decide +kernel, by decide +kernel⟩

theorem test_witness_ExchangeOrder :
    (let o := order .exchange [48, 4096]
     (inHand o).oe.step = .taken o ∧ o.kind = .exchange ∧ (inHand o).exch = none ∧ 48 ≤ (o.p 0).toNat) ∧
    (∀ p ∈ ([(0, true), (4098, true), (0xFFFC4, true), (0xFFFC0, false), (4, false)] : List (Nat × Bool)),
      (p.2 = true → p.1 = 0 ∨ p.1 % 4 ≠ 0 ∨ State.reset.windowSize < p.1 + 64) ∧
        (p.2 = false → ¬(p.1 = 0 ∨ p.1 % 4 ≠ 0 ∨ State.reset.windowSize < p.1 + 64))) ∧
    (∀ d ∈ [Device.emptyRecord, slate, { jamSlate with state := .jamming, jam := some jamSent }],
      let o := order .exchange [12, 0xFFFC0]
      let s : State := { State.setSlot (inHand o) 12 d with lc := serving .window 0 }
      s.oe.step = .taken o ∧ s.exch = none ∧ (o.p 0).toNat = (12 : Fin 48).val ∧ (s.slot 12).state = d.state ∧
        s.lc.turn = some ⟨12, 21, false⟩) ∧
    Link.reset.turn = none ∧
    (∀ k ∈ [OrderKind.enrol, .setDevice, .release, .adopt, .jam, .exchange],
      let o := order k []
      let s : State := { inHand o with exch := some ⟨5, 4096, .reading [], true⟩ }
      s.oe.step = .taken o ∧ s.exch = some ⟨5, 4096, .reading [], true⟩ ∧ o.kind = k) :=
  ⟨by decide +kernel, by decide +kernel, by decide +kernel, by decide +kernel, by decide +kernel⟩

/-- A package of a LOCKED unbound slate, written as its 16 words. -/
def lockedImage : List Word := { slate with state := .locked, anchor := some ⟨864000, 5000000000⟩ }.package

/-- A LOCKED slate's package image with its words 1, 2, 3, 5, 6 and 7. -/
def imageOf (w1 w2 w3 w5 w6 w7 : Word) : List Word := [0xA5C30016, w1, w2, w3, 540, w5, w6, w7, 864000, 0, 0, 0, 0, 0, 0, 0]

/-- Channel 3 is a SAMPLE channel, channel 4 a RUNNING one at 25 frames per second, channel 5 as after reset. -/
def loading : State := (State.reset.setChan 3 { Channel.reset with kind := .sample }).setChan 4 (channel3 9)

/-- Which of the last six rows of R115's table an image fails: legality, bound channel, anchor, verify point, offset, drift. -/
def lastRows (s : State) (image : List Word) : List Bool :=
  let st := bits (image.getD 1 0) 2 0
  let before := bits (image.getD 1 0) 6 4
  let w1 := image.getD 1 0
  let w3 := image.getD 3 0
  let w5 := bits (image.getD 5 0) 19 0
  let offset : Int := (image.getD 7 0).toInt
  let drift : Int := (image.getD 6 0).toInt
  [decide (Rate.legal ⟨bits (image.getD 2 0) 23 0, bits w3 15 0⟩ = false ∨ fmtOfCode (bits w1 27 24) = none ∨ w5 = 0 ∨
      1000000 < w5 ∨ bits w1 19 18 = 3 ∨ (bits w1 17 16 = 3 ∧ bits w1 19 18 = 1)),
    decide (bit w3 20 = true ∧ ∃ c : Fin 16, c.val = bits w3 19 16 ∧ (s.chan c).kind ≠ .picture),
    decide (((st = 2 ∨ st = 3 ∨ (st = 6 ∧ (before = 2 ∨ before = 3))) ∧ ¬bit w3 29 = true) ∨ (st = 1 ∧ bit w3 29 = true)),
    decide (¬bit w3 20 = true ∧ bit w3 30 = true ∧ ¬bit w3 29 = true),
    decide (bit w3 20 = true ∧ bit w3 29 = true ∧ ∃ c : Fin 16, c.val = bits w3 19 16 ∧
      (offset < 1 - ((s.chan c).cfg.fmt.fday : Int) / 2 ∨ ((s.chan c).cfg.fmt.fday : Int) / 2 < offset ∨
        (s.chan c).cur = none)),
    decide (¬bit w3 20 = true ∧ (drift < -100000 ∨ 100000 < drift))]

/-- Each of the last six rows of R115's table is failed by an image that passes every row before them, and an unbound and
a bound image at the ends of their ranges fail none. -/
theorem test_witness_ExchangeEvents_last_rows :
    (∀ p ∈ ([(imageOf 0x00021503 1126125 0x20000001 13500 100000 0, none),
        (imageOf 0x00021503 128 0x20140001 1000000 100001 1080000, none),
        (imageOf 0x00021503 127 0x20000001 13500 0 0, some 0), (imageOf 0x06021503 128 0x20000001 13500 0 0, some 0),
        (imageOf 0x00021503 128 0x20000001 0 0 0, some 0), (imageOf 0x00021503 128 0x20000001 1000001 0 0, some 0),
        (imageOf 0x000E1503 128 0x20000001 13500 0 0, some 0), (imageOf 0x00071503 128 0x20000001 13500 0 0, some 0),
        (imageOf 0x00021505 128 0x00130001 13500 0 0, some 1), (imageOf 0x00021503 128 1 13500 0 0, some 2),
        (imageOf 0x00021501 128 0x20000001 13500 0 0, some 2), (imageOf 0x00021536 128 1 13500 0 0, some 2),
        (imageOf 0x00021505 128 0x40000001 13500 0 0, some 3),
        (imageOf 0x00021503 128 0x20140001 13500 0 (BitVec.ofInt 32 (-1080000)), some 4),
        (imageOf 0x00021503 128 0x20140001 13500 0 1080001, some 4), (imageOf 0x00021503 128 0x20150001 13500 0 0, some 4),
        (imageOf 0x00021503 128 0x20000001 13500 100001 0, some 5),
        (imageOf 0x00021503 128 0x20000001 13500 (BitVec.ofInt 32 (-100001)) 0, some 5)] :
        List (List Word × Option Nat)),
      p.1.getD 0 0 = 0xA5C30016 ∧ bits (p.1.getD 1 0) 2 0 ∈ [1, 2, 3, 5, 6] ∧
        (bits (p.1.getD 1 0) 2 0 = 6 → bits (p.1.getD 1 0) 6 4 = 3) ∧ bits (p.1.getD 1 0) 13 8 = 21 ∧
        lastRows loading p.1 = (List.range 6).map (fun n => decide (some n = p.2))) ∧
    (∀ j : Fin 48, (loading.slot j).state = .empty) := by decide +kernel

theorem test_witness_ExchangeEvents :
    (∀ got ∈ [[], List.replicate 16 (0 : Word)],
      (exchangeAt (.reading got)).exch = some ⟨12, 0xFFFC0, .reading got, false⟩ ∧
        0xFFFC0 + 64 ≤ (exchangeAt (.reading got)).windowSize) ∧
    (let s := exchangeAt (.writing 0xFFFFC [7])
     s.exch = some ⟨12, 0xFFFC0, .writing 0xFFFFC [7], false⟩ ∧ 0xFFFFC + 4 * 1 ≤ s.windowSize) ∧
    (∀ d ∈ [slate, { jamSlate with state := .jamming, jam := some jamSent }],
      let s : State := { State.setSlot State.reset 12 d with exch := some ⟨12, 0xFFFC0, .reading [], false⟩ }
      s.exch = some ⟨12, 0xFFFC0, .reading [], false⟩ ∧ 0xFFFC0 + 64 ≤ s.windowSize ∧ (s.slot 12).state = d.state ∧
        s.validateImage 12 (Memory.readWords s.mem 0xFFFC0 16) = .error .packageInvalid) ∧
    (let s : State :=
      { State.setSlot State.reset 12 slate with
        exch := some ⟨12, 0x3000, .reading [], false⟩, mem := Memory.writeAll [] (wordsAt 0x3000 lockedImage) }
     s.exch = some ⟨12, 0x3000, .reading [], false⟩ ∧ Memory.wf s.mem = true ∧
       (match s.validateImage 12 (Memory.readWords s.mem 0x3000 16) with | .ok d => d.state == .locked | .error _ => false) =
         true) ∧
    (let s : State := { State.reset with exch := some ⟨12, 0xFFFC0, .writing 0xFFFC0 lockedImage, false⟩ }
     s.exch = some ⟨12, 0xFFFC0, .writing 0xFFFC0 lockedImage, false⟩ ∧ lockedImage.length = 16 ∧ 0xFFFC0 + 64 ≤ s.windowSize ∧
       Memory.wf s.mem = true) ∧
    ((⟨12, 0x3000, .reading [], true⟩ : Exchange).dropped = true ∧
      (engineAt (.held (order .adopt [12]))).oe.step = .held (order .adopt [12])) ∧
    (∀ c ∈ [0, 1, 2, 3, 4, 5, 6, 7], ∀ b ∈ [0, 1, 2, 3, 4, 5, 6, 7], ∀ a ∈ [0, 21, 63],
      let image : List Word := [0xA5C30016, BitVec.ofNat 32 (c + 16 * b + 256 * a)]
      image.getD 0 0 = 0xA5C30016 ∧ bits (image.getD 1 0) 2 0 = c ∧ bits (image.getD 1 0) 6 4 = b ∧
        bits (image.getD 1 0) 13 8 = a) ∧
    (([0] : List Word).getD 0 0 ≠ 0xA5C30016 ∧ ((linked slate Link.reset).slot 12).linkAddr = 21) ∧
    (State.reset.exch = none ∧
      ∀ k ∈ [OrderKind.enrol, .setDevice, .release, .adopt, .exchange, .jam], (order k [12]).kind = k) := by decide +kernel

theorem test_witness_PackageRoundTrip :
    let d : Device := { jamSlate with boundTo := some 3, offset := some (-1079999), drift := 0 }
    let s := linked Device.emptyRecord Link.reset
    (d.PartsWF ∧ d.ValuesWF ∧ d.state ≠ .jamming) ∧
      (d.anchor = some ⟨100, 1000000⟩ ∧ 100 < 2 ^ 32 ∧ 1000000 < 2 ^ 64 ∧ d.verify = none) ∧
      (∀ j : Fin 48, j ≠ 12 → (s.slot j).state ≠ .empty → (s.slot j).linkAddr ≠ d.linkAddr) ∧
      ((s.chan 3).kind = .picture ∧ 1 - ((s.chan 3).cfg.fmt.fday : Int) / 2 ≤ -1079999 ∧
        (-1079999 : Int) ≤ ((s.chan 3).cfg.fmt.fday : Int) / 2 ∧ (s.chan 3).cur ≠ none) ∧
      Device.emptyRecord.state = .empty := by
  refine ⟨?_, by decide +kernel, by decide +kernel, by decide +kernel, by decide +kernel⟩
  simp [Device.PartsWF, Device.ValuesWF, Device.translationState, jamSlate, slate, Device.emptyRecord, Device.occupied,
    Rate.legal, Fmt.legal]

/-! ### Log unit, page writer and order engine -/

theorem test_witness_ActionAndTake :
    (∀ ps ∈ ([[16, 1, 0, 0], [1, 0x31, 0, 0], [1, 1, 5, 0], [1, 1, 1, 16], [1, 1, 2, 0x0303]] : List (List Word)),
      let o := order .setAction ps
      let listed := channelBytes (o.p 3) (o.p 2).toNat
      (inHand o).oe.step = .taken o ∧ o.kind = .setAction ∧
        (15 < (o.p 0).toNat ∨ bits (o.p 1) 5 4 = 3 ∨ 4 < (o.p 2).toNat ∨ (∃ n ∈ listed, 15 < n) ∨ ¬listed.Nodup)) ∧
    (∀ ps ∈ ([[15, 0xF23, 4, 0x0F0E0D0C], [0, 0, 0, 0xFFFFFFFF], [1, 0x413, 2, 0xFFFF0703]] : List (List Word)),
      let o := order .setAction ps
      let listed := channelBytes (o.p 3) (o.p 2).toNat
      ¬(15 < (o.p 0).toNat ∨ bits (o.p 1) 5 4 = 3 ∨ 4 < (o.p 2).toNat ∨ (∃ n ∈ listed, 15 < n) ∨ ¬listed.Nodup)) ∧
    (∀ ps ∈ ([[9999, 999], [10000, 0], [0, 1000]] : List (List Word)),
      let o := order .setTake ps
      (inHand o).oe.step = .taken o ∧ o.kind = .setTake ∧
        (((o.p 0).toNat ≤ 9999 ∧ (o.p 1).toNat ≤ 999) ∨ 9999 < (o.p 0).toNat ∨ 999 < (o.p 1).toNat)) ∧
    (LogUnit.reset.take = 0 ∧ ((LogUnit.reset.actions.set 15 ⟨true, 0, .none, [], false⟩).get 15).enabled = true ∧
      ((LogUnit.reset.actions.set 15 ⟨true, 0, .none, [], false⟩).get 15).classMask = 0) ∧
    (∀ take ∈ [998, 999], ∀ slate ∈ [9998, 9999],
      let lu : LogUnit := { LogUnit.reset with slate := slate, take := take }
      (lu.take < 999 ∨ lu.take = 999) ∧ (lu.slate < 9999 ∨ lu.slate = 9999)) :=
  ⟨by decide +kernel, by decide +kernel, by decide +kernel, by decide +kernel, by decide +kernel⟩


theorem test_witness_RecordSubmission :
    ((queued 63).queue.length < 64 ∧ PageWriter.reset.activity = .idle ∧
      (writer .starved none []).activity ≠ .idle) ∧ 64 ≤ (queued 64).queue.length := by decide +kernel

/-- Slot 47 holds a slate, and mark kind 15 has the class mask given. -/
def marked (o : Order) (enabled : Bool) (mask : BitVec 4) (n : Nat) : State :=
  { State.setSlot (inHand o) 47 slate with
    lu := { queued n with actions := LogUnit.reset.actions.set 15 ⟨enabled, mask, .nextSlate, [3, 7], true⟩ } }

theorem test_witness_InjectMark :
    (∀ ps ∈ ([[16, 47, 0, 0], [15, 48, 0, 0], [15, 47, 0, 256]] : List (List Word)),
      let o := order .injectMark ps
      (inHand o).oe.step = .taken o ∧ o.kind = .injectMark ∧ o.stForm = false ∧
        (15 < (o.p 0).toNat ∨ 47 < (o.p 1).toNat ∨ 255 < (o.p 3).toNat)) ∧
    (let o := order .injectMark [15, 47, 0x18000000, 255]
     (o.p 0).toNat ≤ 15 ∧ o.stForm = false ∧ (o.p 1).toNat = (47 : Fin 48).val ∧ (o.p 3).toNat ≤ 255 ∧
       ((inHand o).slot 47).state = .empty ∧ ((marked o true 4 0).slot 47).state ≠ .empty ∧
       ((marked o true 4 0).slot 47).fmt.valid (labelOfWord (o.p 2)) = false) ∧
    (let o := order .injectMark [15, 47, 0x173B3B17, 255]
     (o.p 0).toNat = (15 : Fin 16).val ∧ o.stForm = false ∧ (o.p 1).toNat = (47 : Fin 48).val ∧ (o.p 3).toNat ≤ 255 ∧
       ((marked o true 4 0).slot 47).state ≠ .empty ∧
       ((marked o true 4 0).slot 47).fmt.valid (labelOfWord (o.p 2)) = true ∧
       (marked o true 4 64).markPasses 15 (.slot 47 2073599 255 false) = true ∧
       (marked o true 8 0).markPasses 15 (.slot 47 2073599 255 false) = false ∧
       (marked o false 4 0).markPasses 15 (.slot 47 2073599 255 false) = false) ∧
    (let o : Order := ⟨.injectMark, true, false, false, [15, 0xFFFFFFFF, 0xFFFFFFFF, 300]⟩
     (inHand o).oe.step = .taken o ∧ o.stForm = true ∧ (o.p 0).toNat = (15 : Fin 16).val ∧
       (o.p 1).toNat + 2 ^ 32 * (o.p 2).toNat = 2 ^ 64 - 1 ∧ (marked o true 0 63).markPasses 15 (.host 5) = true) ∧
    (∀ p ∈ ([(16, ⟨23, 59, 0, 1⟩), (15, ⟨24, 0, 0, 0⟩), (15, ⟨23, 59, 0, 1⟩), (15, ⟨23, 59, 0, 2⟩), (15, ⟨23, 50, 0, 1⟩)] :
        List (Nat × Label)),
      ∀ enabled ∈ [true, false],
        let s := State.setSlot (marked (order .pass []) enabled 4 0) 47 { slate with fmt := ⟨.b30, true⟩ }
        let f := (s.slot 47).fmt
        (15 < p.1 ∨ f.valid p.2 = false ∨ (p.1 = (15 : Fin 16).val ∧ f.valid p.2 = true)) ∧
          s.markPasses 15 (.slot 47 0 255 true) = enabled ∧
          ((f.drop = true ∧ p.2.ss = 0 ∧ p.2.mm % 10 ≠ 0 ∧ p.2.ff < f.base.dropCount) ↔ p.2 = ⟨23, 59, 0, 1⟩)) ∧
    (Channel.reset.state = .stopped ∧ ({ Channel.reset with state := .armed } : Channel).state = .armed ∧
      ∀ staged ∈ [none, some (Staged.user 7), some (.full Channel.reset.cfg)],
        let ch : Channel := { channel3 9 with staged := staged }
        ch.state = .running ∧ ch.staged = staged) :=
  ⟨by decide +kernel, by decide +kernel, by decide +kernel, by decide +kernel, by decide +kernel, by decide +kernel⟩

theorem test_witness_Translate :
    (∀ p ∈ ([(⟨.translate, false, false, false, [48, 0, 0, 0, 0]⟩, false), (⟨.translate, false, false, false, [47, 0, 256, 0, 0]⟩, false),
        (⟨.translate, true, false, false, [48, 0, 256, 5, 0]⟩, false), (⟨.translate, true, false, false, [0, 0, 0, 1, 16]⟩, false),
        (⟨.translate, true, false, false, [0, 0, 0, 2, 0x0303]⟩, false),
        (⟨.translate, false, false, false, [47, 0x173B3B17, 255, 4, 0x0F0E0D0C]⟩, true),
        (⟨.translate, true, false, false, [5, 1, 300, 0, 0xFFFFFFFF]⟩, true)] : List (Order × Bool)),
      let o := p.1
      let listed := channelBytes (o.p 4) (o.p 3).toNat
      (inHand o).oe.step = .taken o ∧ o.kind = .translate ∧
        (((o.stForm = false ∧ (47 < (o.p 0).toNat ∨ 255 < (o.p 2).toNat)) ∨ 4 < (o.p 3).toNat ∨ (∃ n ∈ listed, 15 < n) ∨
          ¬listed.Nodup) ↔ p.2 = false)) ∧
    (let o := order .translate [47, 0x173B3B17, 255, 4, 0x0F0E0D0C]
     (o.p 0).toNat = (47 : Fin 48).val ∧ o.stForm = false ∧ ((inHand o).slot 47).state = .empty ∧
       ((State.setSlot (inHand o) 47 slate).slot 47).state ≠ .empty ∧
       slate.fmt.valid (labelOfWord (o.p 1)) = true ∧ slate.fmt.valid (labelOfWord 0x18000000) = false) ∧
    (slate.boundTo = none ∧ slate.anchor = none ∧ slate.offset = none ∧
      ({ slate with boundTo := some 3, offset := some 250 } : Device).offset = some 250) ∧
    (∀ p ∈ ([(⟨100, 1000000⟩, 100, 1), (⟨100, 0⟩, 99, 0), (⟨100, 2 ^ 64 - 1⟩, 100, 1), (⟨100, 2 ^ 64 - 1⟩, 101, 2)] :
        List (Tie × Nat × Nat)),
      let d : Device := { jamSlate with anchor := some p.1, drift := 0 }
      let instant := anchorInstant d.fmt.fday d.rate p.1 d.drift p.2.1 0
      d.anchor = some p.1 ∧ d.rate.legal = true ∧ p.1.st < 2 ^ 64 ∧
        (if instant < 0 then 0 else if instant < 2 ^ 64 then 1 else 2) = p.2.2) ∧
    Rate.legal ⟨16777215, 65535⟩ = true ∧
    (Channel.reset.segmentForIndex (boundIndex Channel.reset 250 0) = none ∧
      ∀ p ∈ ([(channel3 45970, 136217, true), (channel3 0, 250, false)] : List (Channel × Nat × Bool)),
        let g : Segment := ⟨0, 0, ⟨1080000, 1⟩⟩
        (p.1.segmentForIndex (boundIndex p.1 250 p.2.1)).map Prod.fst = some g ∧
          decide (0 ≤ g.instant (boundIndex p.1 250 p.2.1)) = p.2.2) ∧
    (Channel.reset.segmentAt 0 = none ∧
      ∀ kind ∈ [ChanKind.picture, .sample], ∀ t ∈ [999, 1000],
        let ch : Channel := { channel3 9 with kind := kind, cur := some ⟨1000, 0, ⟨128, 1⟩⟩ }
        ch.kind = kind ∧ (ch.segmentAt (t : Nat)).isSome = true ∧
          (Segment.edgeAt ⟨1000, 0, ⟨128, 1⟩⟩ (t : Nat) < 0 ∨ 0 ≤ Segment.edgeAt ⟨1000, 0, ⟨128, 1⟩⟩ (t : Nat))) :=
  ⟨by decide +kernel, by decide +kernel, by decide +kernel, by decide +kernel, by decide +kernel, by decide +kernel,
    by decide +kernel⟩

/-- A page writer with records queued. -/
def paged (a : Activity) (p : Option OpenPage) (stock : List Nat) (n : Nat) : State :=
  { State.reset with pw := writer a p stock, lu := queued n }

theorem test_witness_PageOrders :
    (∀ ps ∈ ([[0], [33], [1, 0x400], [32, 0x400]] : List (List Word)),
      let o := order .givePages ps
      (inHand o).oe.step = .taken o ∧ o.kind = .givePages ∧
        ((o.p 0).toNat = 0 ∨ 32 < (o.p 0).toNat ∨ (0 < (o.p 0).toNat ∧ (o.p 0).toNat ≤ 32))) ∧
    ((paged .starved none [] 2).pw.activity = .starved ∧
      ([] : List Nat).length < ((paged .starved none [] 2).stockWith [] [0x400]).length ∧
      (paged .starved none [] 2).stockWith [] [0] = [] ∧ (paged .idle none [] 0).pw.activity ≠ .starved) ∧
    (let s := paged (.claiming 0x2000 false) none [0x400] 1
     (0 = 0 ∧ 1 % 1024 ≠ 0 ∧ s.windowSize < 0x100000 + 1024 ∧ 0x400 ∈ s.pw.stock ∧
       s.pw.activity = .claiming 0x2000 false ∧ 32 ≤ (List.replicate 32 0x400).length) ∧
       ¬s.windowSize < 0xFFC00 + 1024 ∧ 0xFFC00 % 1024 = 0 ∧ 0xFFC00 ∉ List.replicate 31 0x400 ∧ s.pw.page = none ∧
       ¬32 ≤ (List.replicate 31 0x400).length) ∧
    ((paged (.writing 0) (some ⟨0x8000, 7, 1, 8⟩) [] 1).pw.page = some ⟨0x8000, 7, 1, 8⟩) ∧
    (∀ s ∈ [paged (.writing 0) (some ⟨0x8000, 7, 1, 8⟩) [] 1, paged .idle none [] 0, paged .idle (some ⟨0x8000, 7, 0, 0⟩) [] 0,
        paged .idle (some ⟨0x8000, 7, 1, 8⟩) [] 0, paged .starved none [] 1],
      let t := inHand (order .flushLog []) s
      t.oe.step = .taken (order .flushLog []) ∧ t.pw.activity = s.pw.activity ∧
        (t.pw.activity ≠ .idle ∨ t.lu.queue = []) ∧ (t.lu.queue.map TakeRecord.seq).Nodup) ∧
    ((∀ r ∈ [sysRecord 1, sysRecord 2], r.seq ≠ 3) ∧ ([sysRecord 1, sysRecord 2].map TakeRecord.seq).Nodup ∧
      [sysRecord 1, sysRecord 2][1]? = some (sysRecord 2)) :=
  ⟨by decide +kernel, by decide +kernel, by decide +kernel, by decide +kernel, by decide +kernel, by decide +kernel⟩

theorem test_witness_PageWriterChoice :
    (∀ s ∈ [paged .idle none [] 0, paged (.writing 0) (some ⟨0x8000, 7, 24, 244⟩) [] 1,
        paged (.writing 0) (some ⟨0x8000, 7, 24, 245⟩) [] 1, paged .idle none [0x400, 0x800, 0xC00, 0x1000] 1,
        paged .idle none [0x400, 0x800, 0xC00, 0x1000, 0x1400] 1, paged .idle none [] 1],
      s.pw.flush = none ∧
        (s.lu.queue = [] ∨ s.lu.queue = [sysRecord 7] ∧
          (s.pw.page = some ⟨0x8000, 7, 24, 244⟩ ∧ 244 + (sysRecord 7).length ≤ 252 ∨
            s.pw.page = some ⟨0x8000, 7, 24, 245⟩ ∧ 252 < 245 + (sysRecord 7).length ∨ s.pw.page = none))) ∧
    (3 < 4 ∧ 4 ≤ 4) ∧
    (∀ p ∈ ([(none, 0), (some 7, 1), (some 9, 0)] : List (Option Word × Nat)),
      unwrittenUpTo p.1 (queued 1).queue = p.2 ∧
        (⟨p.1, false⟩ : FlushSet).tail = p.1 ∧ (p.2 = 0 ∨ 0 < p.2)) ∧
    ((0 < (⟨0x8000, 7, 1, 8⟩ : OpenPage).records) ∧ (⟨0x8000, 7, 0, 0⟩ : OpenPage).records = 0) :=
  ⟨by decide +kernel, by decide +kernel, by decide +kernel, by decide +kernel⟩

theorem test_witness_PageWriterEvents :
    (let s : State := { paged (.claiming 0xFFC00 false) none [] 1 with mem := [(0xFFC00, 2)] }
     s.pw.activity = .claiming 0xFFC00 false ∧ s.isPage 0xFFC00 = true ∧ Memory.readWord s.mem 0xFFC00 ≠ 0) ∧
    (∀ cleared ∈ [false, true],
      let s := paged (.claiming 0xFFC00 cleared) none [] 1
      s.pw.activity = .claiming 0xFFC00 cleared ∧ s.isPage 0xFFC00 = true ∧ Memory.readWord s.mem 0xFFC00 = 0 ∧
        s.lu.queue = [sysRecord 7] ∧ Memory.wf s.mem = true) ∧
    (∀ made ∈ [0, 8],
     let s := paged (.writing made) (some ⟨0xFFC00, 7, 24, 244⟩) [] 1
     s.pw.activity = .writing made ∧ made ≤ (sysRecord 7).length ∧ s.pw.page = some ⟨0xFFC00, 7, 24, 244⟩ ∧ s.lu.queue = [sysRecord 7] ∧
       s.isPage 0xFFC00 = true ∧ 244 + (sysRecord 7).length ≤ 252 ∧ Memory.wf s.mem = true) ∧
    (∀ why ∈ [CloseWhy.full, .flush, .clear], ∀ flush ∈ [none, some (⟨none, false⟩ : FlushSet), some ⟨none, true⟩],
      let s : State :=
        { State.reset with pw := { writer (.closing why false) (some ⟨0xFFC00, 7, 24, 244⟩) [] with flush := flush } }
      s.pw.activity = .closing why false ∧ s.pw.page = some ⟨0xFFC00, 7, 24, 244⟩ ∧ s.isPage 0xFFC00 = true ∧
        s.pw.flush = flush ∧ Memory.wf s.mem = true) ∧
    (∀ body ∈ [RecordBody.mark 15 none (hostMarkFlags .free) [],
        .mark 15 (some ⟨47, 63, 2 ^ 23 - 1, ⟨.b60, true⟩, 255⟩) (hostMarkFlags .free)
          (List.replicate 4 ⟨15, false, true, true, ⟨.b60, true⟩, 255, 2 ^ 23 - 1⟩),
        .system (.timeStep (2 ^ 32 - 1)), .system (.referenceState .holdover .locked), .system (.deviceState 47 63 .absent),
        .system (.deviceState 47 63 .returned), .system (.deviceState 47 63 .locked),
        .system (.deviceState 47 63 (.drifting .verifyError .sourceUnusable)),
        .system (.jamOutcome 47 63 .abandoned .recovery 4 (some (2 ^ 23 - 1)) .absent),
        .system (.jamOutcome 0 1 .done .order 0 none .settling), .system (.channelEvent 15 .stop none),
        .system (.channelEvent 15 .retime (some (2 ^ 41 - 1, 2 ^ 32 - 1)))],
      let r : TakeRecord := ⟨0, 0, body, some 9, 65535, 9999, 999⟩
      r.body = body ∧ r.slate ≤ 9999 ∧ r.take ≤ 999 ∧ r.body.watch.length ≤ 4 ∧ 2 ^ 23 - 1 < 2 ^ 23 ∧ 63 ≤ 63 ∧ 255 ≤ 255 ∧
        2 ^ 32 - 1 < 2 ^ 32 ∧ 4 ≤ 4) ∧
    ((⟨15, true, true, true, ⟨.b60, true⟩, 255, 2 ^ 40⟩ : Watch).sub ≤ 255 ∧
      (⟨15, true, true, true, ⟨.b60, true⟩, 255, 2 ^ 40⟩ : Watch).sample ≠ false) :=
  ⟨by decide +kernel, by decide +kernel, by decide +kernel, by decide +kernel, by decide +kernel, by decide +kernel⟩

/-- Two records, one lost before the second and one after it, and a stock beside the open page. -/
def logState : State :=
  { State.reset with
    pw := writer (.writing 0) (some ⟨0x8000, 7, 1, 8⟩) [0x8400, 0x8800]
    lu := { LogUnit.reset with queue := [sysRecord 7, { sysRecord 9 with lostBefore := 1 }], seq := 11, lostRun := 1 }
    pending := [.recordWritten] }

theorem test_witness_LogInvariant :
    (logState.lu.WF ∧ logState.StockWF) ∧ (match step logState with | .next _ => true | _ => false) = true := by
  refine ⟨⟨⟨by decide +kernel, by decide +kernel, by decide +kernel, by decide +kernel, by decide +kernel, ?_, ?_⟩, ?_⟩,
    by decide +kernel⟩
  · intro n r next h h'
    have hq : logState.lu.queue = [sysRecord 7, { sysRecord 9 with lostBefore := 1 }] := rfl
    rw [hq] at h h'
    match n with
    | 0 => cases h; cases h'; decide +kernel
    | 1 => simp at h'
    | n + 2 => simp at h'
  · intro r h
    have hq : logState.lu.queue.getLast? = some { sysRecord 9 with lostBefore := 1 } := rfl
    rw [hq] at h; cases h; decide +kernel
  · unfold State.StockWF; decide +kernel

theorem test_witness_OrderHeadWrites :
    ((4 : Word) ≠ 0 ∧ (4 : Word).toNat % 4 = 0 ∧ State.reset.oe.chain = .idle) ∧
    (∀ c ∈ [ChainState.done, .stopped, .idle, .running],
      ({ Engine.reset with chain := c } : Engine).chain = c ∧ (c = .running ∨ c ≠ .running)) ∧
    (∀ step ∈ [EngineStep.fetching [], .fetching [1], .fetching [0x22, 3], .taken (order .pass []), .held (order .adopt [12]), .imaging 4096 [], .terminating [] .done 0,
        .linking .done, .waiting (.jam 12), .waiting .exchange, .waiting .flushLog],
      (engineAt step).oe.chain = .running ∧ (engineAt step).oe.stopAfter = false ∧ (engineAt step).oe.step = step ∧
        (0x1000 ≠ 0 ∧ 0x1000 % 4 = 0 ∧ 0x1000 + 16 ≤ (engineAt step).windowSize)) ∧
    ((engineAt .none).oe.step = .none ∧ State.reset.windowSize < 0xFFFF4 + 16 ∧ 0xFFFF0 + 16 ≤ State.reset.windowSize ∧
      0x1002 % 4 ≠ 0) ∧
    ((State.setSlot (engineAt (.waiting (.jam 12))) 12 { jamSlate with state := .jamming, jam := some jamSent }).slot 12).jam =
      some jamSent ∧
    ((⟨12, 4096, .waitService, false⟩ : Exchange).phase = .waitService ∧
      (⟨12, 4096, .reading [], false⟩ : Exchange).phase ≠ .waitService) ∧
    ((writer (.closing .flush false) none []).activity = .closing .flush false) ∧
    ((6 : Word) ≠ 0 ∧ (6 : Word) ≠ 1 ∧ (6 : Word) ≠ 2 ∧ (6 : Word).toNat % 4 ≠ 0 ∧
      (8 : Word) ≠ 0 ∧ (8 : Word) ≠ 1 ∧ (8 : Word) ≠ 2 ∧ (engineAt (.fetching [])).oe.chain ≠ .idle) :=
  ⟨by decide +kernel, by decide +kernel, by decide +kernel, by decide +kernel, by decide +kernel, by decide +kernel,
    by decide +kernel, by decide +kernel⟩


theorem test_witness_ClearAndAttention :
    (∀ a ∈ clearable.clearAreas, a + 4 ≤ clearable.windowSize) ∧
    (clearable.pw.page = some ⟨0x8000, 7, 24, 244⟩ ∧ clearable.pw.activity = .writing 0 ∧
      clearable.clearAreas.head? = some 0xFFFF8 ∧ 0xFFFF8 - 1 < 0xFFFF8 ∧
      (writer (.writing 8) (some ⟨0x8000, 7, 24, 244⟩) []).activity = .writing 8) ∧
    (∀ step ∈ [EngineStep.waiting (.jam 12), .waiting .exchange, .none],
      let s : State :=
        { State.setSlot (engineAt step) 12 { jamSlate with state := .jamming, jam := some jamSent } with
          exch := some ⟨12, 4096, .waitService, false⟩ }
      s.oe.step = step ∧ (s.slot 12).jam = some jamSent ∧ s.exch = some ⟨12, 4096, .waitService, false⟩ ∧ s.clearAreas = []) ∧
    ((⟨12, 4096, .reading [], false⟩ : Exchange).phase ≠ .waitService ∧ PageWriter.reset.page = none ∧
      PageWriter.reset.activity = .idle ∧ (writer .starved none [0x8400]).activity = .starved ∧
      (writer .starved none [0x8400]).page = none ∧ (writer (.claiming 0x8400 false) none []).activity = .claiming 0x8400 false ∧
      (writer (.closing .full false) (some ⟨0x8000, 7, 24, 244⟩) []).activity = .closing .full false ∧
      (writer (.closing .flush false) (some ⟨0x8000, 7, 24, 244⟩) []).activity = .closing .flush false ∧
      CloseWhy.flush ≠ .full) ∧
    (clearable.engineWrites.map Prod.fst = [0xFFFF8, 0xFFFFC] ∧
      (∀ q ∈ clearable.engineWrites, q.1 + 4 ≤ 0x8000 ∨ 0x8000 + 16 ≤ q.1) ∧
      ∀ x ∈ [0x8000, 0x800F], 0x8000 ≤ x ∧ x < 0x8000 + 16) ∧
    (7 < 8 ∧ [Cause.chain, .page, .stock, .reference, .device, .mark, .refused, .cleared][7]? = some .cleared) :=
  ⟨by decide +kernel, by decide +kernel, by decide +kernel, by decide +kernel, by decide +kernel, by decide +kernel⟩

theorem test_witness_BlockSteps :
    (∀ b ∈ [0, 0x1002, 0xFFFF4],
      let s : State := { State.reset with oe := { Engine.reset with chain := .running, block := b, step := .fetching [] } }
      s.oe.step = .fetching [] ∧ (b = 0 ∨ b % 4 ≠ 0 ∨ s.windowSize < b + 16)) ∧
    (∀ p ∈ ([(0xFFFF0, 0x03, 0), (0xFFFF0, 0x22, 1), (0xFFFEC, 0x22, 1), (0xFFFF0, 0x01, 0)] : List (Nat × Byte × Nat)),
      let s : State :=
        { State.reset with
          oe := { Engine.reset with chain := .running, block := p.1, step := .fetching [] }, mem := [(p.1, p.2.1)] }
      s.oe.step = .fetching [] ∧ (fetchAt p.1 [p.2.1.setWidth 32]).oe.step = .fetching [p.2.1.setWidth 32] ∧
        p.1 ≠ 0 ∧ p.1 % 4 = 0 ∧ p.1 + 16 ≤ s.windowSize ∧ Memory.wf s.mem = true ∧
        (Memory.readWord s.mem p.1).toNat % 256 = p.2.1.toNat ∧
        (s.windowSize < p.1 + 16 + 4 * p.2.2 ∨ p.1 + 16 + 4 * p.2.2 ≤ s.windowSize)) ∧
    (∀ stop ∈ [false, true],
      let s : State :=
        { State.reset with
          oe := { Engine.reset with
                  chain := .running, block := 0xFFFE8, step := .terminating (wordsAt 0xFFFFC [272]) .done 65535
                  stopAfter := stop } }
      s.oe.step = .terminating (wordsAt 0xFFFFC [272]) .done 65535 ∧ s.oe.block + 16 ≤ 0xFFFFC ∧
        0xFFFFC + 4 * 1 ≤ s.windowSize ∧ s.oe.block + 16 ≤ s.windowSize ∧ 65535 < 65536 ∧ Memory.wf s.mem = true ∧
        s.oe.stopAfter = stop) ∧
    (∀ code ∈ [Result.done, .accepted, .refusedState], ∀ link ∈ ([0, 4] : List Byte),
      let s : State := { engineAt (.linking code) with mem := [(0x1004, link), (0x1008, link)] }
      s.oe.step = .linking code ∧ s.oe.block + 16 ≤ s.windowSize ∧ s.oe.stopAfter = false ∧
        Memory.readWord s.mem 0x1004 = link.setWidth 32 ∧ Memory.readWord s.mem 0x1008 = link.setWidth 32) ∧
    ((inHand (order .pass [])).oe.step = .taken (order .pass []) ∧
      (let o := order .snapshot [0xFFBC4, 0]
       (inHand o).oe.step = .taken o ∧ o.kind = .snapshot ∧ (inHand o).windowSize < (o.p 0).toNat + 1088) ∧
      ((order .snapshot [0, 0]).p 0).toNat = 0 ∧ ((order .snapshot [0x1002, 0]).p 0).toNat % 4 ≠ 0 ∧
      ((order .snapshot [0xFFBC0, 0]).p 0).toNat = 0xFFBC0) ∧
    (¬(0xFFBC0 = 0 ∨ 0xFFBC0 % 4 ≠ 0 ∨ State.reset.windowSize < 0xFFBC0 + 1088) ∧
      ((linked slate Link.reset).slot 12).state ≠ .empty ∧ ((linked slate Link.reset).slot 47).state = .empty ∧
      (let d := (linked { jamSlate with state := .jamming, jam := some jamSent } Link.reset).slot 12
       d.state = .jamming ∧ d.jam = some jamSent)) ∧
    ((clearable.oe.step = .imaging 0xFFFF8 [1, 2] ∧ 0xFFFF8 + 4 * 2 ≤ clearable.windowSize ∧
        Memory.wf clearable.mem = true) ∧
      (List.replicate 272 (0 : Word)).length = 272 ∧ 0xFFBC0 + 4 * 272 ≤ clearable.windowSize) :=
  ⟨by decide +kernel, by decide +kernel, by decide +kernel, by decide +kernel, by decide +kernel, by decide +kernel,
    by decide +kernel⟩

theorem test_witness_NoStepLeavesTheWindow :
    Memory.wf clearable.mem = true ∧ clearable.AreasWF ∧ clearable.KeptWF ∧ clearable.windowSize ≤ 0x100000 := by
  refine ⟨by decide +kernel, ⟨?_, ?_, ?_⟩, ⟨by decide +kernel, ?_, ?_, by decide +kernel⟩, by decide +kernel⟩
  · show clearable.inWindow 0x1000 24 = true ∧ clearable.inWindow 0xFFFF8 (4 * 2) = true ∧ 1 ≤ 2
    decide +kernel
  · intro e he; rw [show clearable.exch = none from rfl] at he; cases he
  · refine ⟨by decide +kernel, ?_, ?_⟩
    · intro p hp
      have h : clearable.pw.page = some ⟨0x8000, 7, 24, 244⟩ := rfl
      rw [h] at hp; cases hp; decide +kernel
    · exact ⟨⟨0x8000, 7, 24, 244⟩, sysRecord 7, [], rfl, rfl, by decide +kernel, by decide +kernel⟩
  · intro e he; rw [show clearable.exch = none from rfl] at he; cases he
  · intro i j hj
    have : ∀ k, clearable.slot k = Device.emptyRecord := by decide +kernel
    rw [this i] at hj; simp [Device.emptyRecord] at hj

end Sys2Proof.Tests
end

section
/-! The commands and the time base: which commands can change it, and which of its items those leave unchanged. -/

namespace Sys2Proof.Machine

/-! ## Commands that leave the time base alone -/

/-- Every next state that a command answers from `s` has the time base of `s`. -/
def KeepsTimeBase (s : State) (answer : Host.Outcome State Fault Refusal) : Prop :=
  ∀ t, answer = .next t → t.tb = s.tb

theorem keepsTimeBase_next {s t : State} (h : t.tb = s.tb) : KeepsTimeBase s (.next t) := by
  intro u hu
  rw [next_inj hu, h]

theorem keepsTimeBase_same (s : State) : KeepsTimeBase s (.next s) := keepsTimeBase_next rfl

/-- A command whose event is taken only when it is due. -/
theorem keepsTimeBase_ite {s t : State} (p : Prop) [Decidable p] (h : t.tb = s.tb) :
    KeepsTimeBase s (.next (if p then t else s)) := by
  apply keepsTimeBase_next
  split
  · exact h
  · rfl

/-- A command that completes a memory operation. -/
theorem keepsTimeBase_guarded {s t : State} (as : List Nat) (h : t.tb = s.tb) :
    KeepsTimeBase s (s.guarded as t) := by
  intro u hu
  rw [s.guarded_eq_next t u as hu, h]

/-- A command that hands an order to its owner. -/
theorem keepsTimeBase_handOrder {s : State} {k : OrderKind} {take : Order → State → State}
    (h : ∀ o, (take o s).tb = s.tb) : KeepsTimeBase s (.next (s.handOrder k take)) := by
  apply keepsTimeBase_next
  rcases s.handOrder_cases k take with ⟨o, _, _, he⟩ | he <;> rw [he]
  exact h o

/-- A command that hands an order to the roster. -/
theorem keepsTimeBase_handRosterOrder {s : State} {k : OrderKind} {take : Order → State → State}
    (h : ∀ o, (take o s).tb = s.tb) : KeepsTimeBase s (.next (s.handRosterOrder k take)) := by
  apply keepsTimeBase_next
  rcases s.handRosterOrder_cases k take with ⟨o, _, _, _, he⟩ | ⟨o, _, _, _, he⟩ | he <;> rw [he]
  exact h o

/-- A write to ORDER HEAD, engine clear among them. -/
theorem orderHeadWrite_keepsTimeBase (s : State) (v : Word) : KeepsTimeBase s (s.orderHeadWrite v) := by
  rcases s.orderHeadWrite_cases v with
    ⟨_, he⟩ | ⟨_, _, _, he⟩ | ⟨_, _, he⟩ | ⟨_, _, he⟩ | ⟨_, _, _, _, he⟩ <;> rw [he]
  · exact keepsTimeBase_guarded _ (by simp)
  all_goals exact keepsTimeBase_next (by simp)

/-! ### The order engine's completions -/

theorem execOrderFetch_keepsTimeBase (s : State) : KeepsTimeBase s (execOrderFetch s) := by
  unfold execOrderFetch
  split
  · exact keepsTimeBase_next (by simp)
  · exact keepsTimeBase_same s

theorem execTerminationWritten_keepsTimeBase (s : State) : KeepsTimeBase s (execTerminationWritten s) := by
  unfold execTerminationWritten
  split
  · exact keepsTimeBase_guarded _ (by simp)
  · exact keepsTimeBase_same s

theorem execLinkRead_keepsTimeBase (s : State) : KeepsTimeBase s (execLinkRead s) := by
  unfold execLinkRead
  split
  · exact keepsTimeBase_guarded _ (by simp)
  · exact keepsTimeBase_same s

theorem execSnapshotWritten_keepsTimeBase (s : State) : KeepsTimeBase s (execSnapshotWritten s) := by
  unfold execSnapshotWritten
  split
  · exact keepsTimeBase_guarded _ (by simp)
  · exact keepsTimeBase_same s

/-! ### The channels' events -/

theorem execChannelEdge_keepsTimeBase (c : Fin 16) (s : State) : KeepsTimeBase s (execChannelEdge c s) := by
  unfold execChannelEdge
  split
  · exact keepsTimeBase_ite _ (by simp)
  · exact keepsTimeBase_same s

theorem execChannelArmedStart_keepsTimeBase (c : Fin 16) (s : State) :
    KeepsTimeBase s (execChannelArmedStart c s) := by
  unfold execChannelArmedStart
  split
  · exact keepsTimeBase_ite _ (by simp)
  · exact keepsTimeBase_same s

theorem execPulseEnd_keepsTimeBase (c : Fin 16) (s : State) : KeepsTimeBase s (execPulseEnd c s) := by
  unfold execPulseEnd
  split
  · exact keepsTimeBase_ite _ (by simp)
  · exact keepsTimeBase_same s

/-! ### The link's events -/

theorem execNextTurn_keepsTimeBase (s : State) : KeepsTimeBase s (execNextTurn s) := by
  unfold execNextTurn
  split
  · exact keepsTimeBase_next (by simp)
  · exact keepsTimeBase_ite _ (by simp)
  all_goals exact keepsTimeBase_same s

theorem execSetTurnEnd_keepsTimeBase (s : State) : KeepsTimeBase s (execSetTurnEnd s) := by
  unfold execSetTurnEnd
  split
  · exact keepsTimeBase_ite _ (by simp)
  · exact keepsTimeBase_same s

theorem execAnswerWindowOpen_keepsTimeBase (s : State) : KeepsTimeBase s (execAnswerWindowOpen s) := by
  unfold execAnswerWindowOpen
  split
  · exact keepsTimeBase_ite _ (by simp)
  all_goals exact keepsTimeBase_same s

theorem execAnswerStart_keepsTimeBase (s : State) : KeepsTimeBase s (execAnswerStart s) := by
  unfold execAnswerStart
  split
  · exact keepsTimeBase_ite _ (by simp)
  all_goals exact keepsTimeBase_same s

theorem execAnswerEnd_keepsTimeBase (chars : List RxChar) (s : State) :
    KeepsTimeBase s (execAnswerEnd chars s) := by
  unfold execAnswerEnd
  split
  · exact keepsTimeBase_ite _ (by simp)
  · exact keepsTimeBase_same s

theorem execQuietLine_keepsTimeBase (chars : List RxChar) (s : State) :
    KeepsTimeBase s (execQuietLine chars s) := by
  unfold execQuietLine
  split
  · exact keepsTimeBase_ite _ (by simp)
  · exact keepsTimeBase_same s

theorem execAnswerWindowClose_keepsTimeBase (s : State) : KeepsTimeBase s (execAnswerWindowClose s) := by
  unfold execAnswerWindowClose
  split
  · exact keepsTimeBase_ite _ (by simp)
  · exact keepsTimeBase_same s

/-! ### The EXCHANGE's and the page writer's completions -/

theorem execExchangeReadDone_keepsTimeBase (s : State) : KeepsTimeBase s (execExchangeReadDone s) := by
  unfold execExchangeReadDone
  split
  · split
    · exact keepsTimeBase_guarded _ (by simp)
    all_goals exact keepsTimeBase_same s
  · exact keepsTimeBase_same s

theorem execExchangeWriteDone_keepsTimeBase (s : State) : KeepsTimeBase s (execExchangeWriteDone s) := by
  unfold execExchangeWriteDone
  split
  · split
    · exact keepsTimeBase_guarded _ (by simp)
    all_goals exact keepsTimeBase_same s
  · exact keepsTimeBase_same s

theorem execPageClaim_keepsTimeBase (s : State) : KeepsTimeBase s (execPageClaim s) := by
  unfold execPageClaim
  split
  · exact keepsTimeBase_guarded _ (by split <;> simp)
  · exact keepsTimeBase_same s

theorem execRecordWritten_keepsTimeBase (s : State) : KeepsTimeBase s (execRecordWritten s) := by
  unfold execRecordWritten
  split
  · exact keepsTimeBase_guarded _ (by simp)
  · exact keepsTimeBase_same s

theorem execPageCloseDone_keepsTimeBase (s : State) : KeepsTimeBase s (execPageCloseDone s) := by
  unfold execPageCloseDone
  split
  · exact keepsTimeBase_guarded _ (by simp)
  · exact keepsTimeBase_same s

/-! ### All commands -/

/-- The commands that can change an item of the time base. -/
def changesTimeBase : Instr → Bool
  | .reset _ _ | .referenceEdge | .referenceMiss | .timeLowRead | .setReference | .oscillatorTick => true
  | _ => false

theorem changesTimeBase_cases {c : Instr} (h : changesTimeBase c = true) :
    (∃ a b, c = .reset a b) ∨ c = .referenceEdge ∨ c = .referenceMiss ∨ c = .timeLowRead ∨ c = .setReference ∨
      c = .oscillatorTick := by
  unfold changesTimeBase at h
  split at h <;> simp at h ⊢

/-- A command that is none of the six leaves the time base as it is. -/
theorem exec_keepsTimeBase (c : Instr) (s : State) (h : changesTimeBase c = false) :
    KeepsTimeBase s (exec c s) := by
  cases c with
  | reset _ _ | referenceEdge | referenceMiss | timeLowRead | setReference | oscillatorTick => cases h
  | ignoredRegisterWrite _ _ => exact keepsTimeBase_same s
  | attentionWrite _ | attentionMaskWrite _ => exact keepsTimeBase_next rfl
  | chainStart v | refusedOrderHeadWrite v => exact orderHeadWrite_keepsTimeBase s v
  | returnToIdle => exact orderHeadWrite_keepsTimeBase s 0
  | abort => exact orderHeadWrite_keepsTimeBase s 1
  | engineClear => exact orderHeadWrite_keepsTimeBase s 2
  | pass | snapshot | setChannel | startChannel | stopChannel | setAction | setTake | injectMark | translate
  | givePages | flushLog => exact keepsTimeBase_handOrder (by simp)
  | enrol | setDevice | release | adopt | exchange | jam => exact keepsTimeBase_handRosterOrder (by simp)
  | orderFetch => exact execOrderFetch_keepsTimeBase s
  | terminationWritten => exact execTerminationWritten_keepsTimeBase s
  | linkRead => exact execLinkRead_keepsTimeBase s
  | snapshotWritten => exact execSnapshotWritten_keepsTimeBase s
  | channelEdge c => exact execChannelEdge_keepsTimeBase c s
  | channelArmedStart c => exact execChannelArmedStart_keepsTimeBase c s
  | pulseEnd c => exact execPulseEnd_keepsTimeBase c s
  | nextTurn => exact execNextTurn_keepsTimeBase s
  | setTurnEnd => exact execSetTurnEnd_keepsTimeBase s
  | answerWindowOpen => exact execAnswerWindowOpen_keepsTimeBase s
  | answerStart => exact execAnswerStart_keepsTimeBase s
  | answerEnd chars => exact execAnswerEnd_keepsTimeBase chars s
  | quietLine chars => exact execQuietLine_keepsTimeBase chars s
  | answerWindowClose => exact execAnswerWindowClose_keepsTimeBase s
  | exchangeReadDone => exact execExchangeReadDone_keepsTimeBase s
  | exchangeWriteDone => exact execExchangeWriteDone_keepsTimeBase s
  | pageClaim => exact execPageClaim_keepsTimeBase s
  | recordWritten => exact execRecordWritten_keepsTimeBase s
  | pageCloseDone => exact execPageCloseDone_keepsTimeBase s

/-! ## The TIME HIGH latch (R20) -/

@[simp] theorem TimeBase.acquiring_timeHigh (tb : TimeBase) (first : Option Nat) :
    (tb.acquiring first).timeHigh = tb.timeHigh := rfl

@[simp] theorem TimeBase.lockedAt_timeHigh (tb : TimeBase) (p : Nat) : (tb.lockedAt p).timeHigh = tb.timeHigh := rfl

@[simp] theorem TimeBase.narrow_timeHigh (tb : TimeBase) (e : Int) : (tb.narrow e).timeHigh = tb.timeHigh := rfl

@[simp] theorem TimeBase.tick_timeHigh (tb : TimeBase) : tb.tick.timeHigh = tb.timeHigh := rfl

@[simp] theorem State.enterAcquiring_tb (s : State) (first : Option Nat) :
    (s.enterAcquiring first).tb = s.tb.acquiring first := by
  simp [State.enterAcquiring]

@[simp] theorem State.stepForward_timeHigh (s : State) (stamp g : Nat) :
    (s.stepForward stamp g).tb.timeHigh = s.tb.timeHigh := by
  simp [State.stepForward]

@[simp] theorem State.align_timeHigh (s : State) (stamp : Nat) : (s.align stamp).tb.timeHigh = s.tb.timeHigh := by
  unfold State.align
  split <;> simp

@[simp] theorem State.edgeAcquiring_timeHigh (s : State) (stamp : Nat) :
    (s.edgeAcquiring stamp).tb.timeHigh = s.tb.timeHigh := by
  unfold State.edgeAcquiring
  dsimp only
  split <;> simp

@[simp] theorem State.edgeMatched_timeHigh (s : State) (stamp p : Nat) :
    (s.edgeMatched stamp p).tb.timeHigh = s.tb.timeHigh := by
  unfold State.edgeMatched
  dsimp only
  split
  · simp
  · split <;> simp

@[simp] theorem State.edgeLocked_timeHigh (s : State) (stamp : Nat) :
    (s.edgeLocked stamp).tb.timeHigh = s.tb.timeHigh := by
  unfold State.edgeLocked
  split
  · rfl
  · split <;> simp

@[simp] theorem State.refMiss_timeHigh (s : State) : s.refMiss.tb.timeHigh = s.tb.timeHigh := by
  unfold State.refMiss
  dsimp only
  split <;> simp

/-- A miss that is taken only when it is due keeps the latch. -/
theorem State.dueMiss_timeHigh (s : State) :
    (if s.tb.missDue then s.refMiss else s).tb.timeHigh = s.tb.timeHigh := by
  split <;> simp

@[simp] theorem State.settleMisses_timeHigh (s : State) : s.settleMisses.tb.timeHigh = s.tb.timeHigh := by
  simp only [State.settleMisses, State.dueMiss_timeHigh]

@[simp] theorem State.refEdge_timeHigh (s : State) : s.refEdge.tb.timeHigh = s.tb.timeHigh := by
  unfold State.refEdge
  dsimp only
  split <;> simp

@[simp] theorem setReferenceOrder_timeHigh (o : Order) (s : State) :
    (setReferenceOrder o s).tb.timeHigh = s.tb.timeHigh := by
  unfold setReferenceOrder
  split
  · simp
  · dsimp only
    split <;> split <;> simp

theorem handSetReference_timeHigh (s : State) :
    (s.handOrder .setReference setReferenceOrder).tb.timeHigh = s.tb.timeHigh := by
  rcases s.handOrder_cases .setReference setReferenceOrder with ⟨o, _, _, he⟩ | he <;> rw [he]
  exact setReferenceOrder_timeHigh o s

/-- TIME_LOW_READ and RESET apart, no command changes the latch: most leave the whole time base alone, and each of the
others leaves this item of it. -/
theorem exec_timeHigh {c : Instr} {s t : State} (hread : c ≠ .timeLowRead) (hreset : ∀ a b, c ≠ .reset a b)
    (h : exec c s = .next t) : t.tb.timeHigh = s.tb.timeHigh := by
  cases hc : changesTimeBase c with
  | false => rw [exec_keepsTimeBase c s hc t h]
  | true =>
    rcases changesTimeBase_cases hc with ⟨a, b, rfl⟩ | rfl | rfl | rfl | rfl | rfl
    · exact absurd rfl (hreset a b)
    · rw [next_inj h, State.refEdge_timeHigh]
    · rw [next_inj h, State.dueMiss_timeHigh]
    · exact absurd rfl hread
    · rw [next_inj h, handSetReference_timeHigh]
    · rw [next_inj h, TimeBase.tick_timeHigh]

/-- RESET gives the time base its reset values. -/
theorem exec_reset_tb {a b : Bool} {s t : State} (h : exec (.reset a b) s = .next t) : t.tb = TimeBase.reset := by
  rw [s.guarded_eq_next _ t _ h]
  rfl

/-- Settles O7: the two time registers' commands by their definitions, and the latch by `exec_timeHigh`. -/
theorem timeRegisters : Obligations.TimeRegisters := by
  refine ⟨fun s => rfl, fun r v s => rfl, fun s => rfl, rfl, fun a b s t h => ?_, fun c s t hread hreset h => ?_⟩
  · rw [State.timeHighRead, exec_reset_tb h]
    rfl
  · exact exec_timeHigh hread hreset h

end Sys2Proof.Machine
end

section
/-! SET REFERENCE: the checks of R17, and what the order does in each case of R18. -/

namespace Sys2Proof.Machine

/-- The checks of R17 on the parameter words Nr, Dr and φ. -/
def ReferenceInRange (o : Order) : Prop :=
  1 ≤ (o.p 1).toNat ∧ (o.p 1).toNat ≤ 16777215 ∧ 1 ≤ (o.p 2).toNat ∧ (o.p 2).toNat ≤ 65535 ∧
    128 * (o.p 2).toNat ≤ (o.p 1).toNat ∧ (o.p 3).toNat < (o.p 1).toNat / (o.p 2).toNat

/-- The reference period that a SET REFERENCE carries. -/
def referencePeriod (o : Order) : Rate := ⟨(o.p 1).toNat, (o.p 2).toNat⟩

/-- The time base with the settings of a SET REFERENCE stored. -/
def TimeBase.withReference (tb : TimeBase) (o : Order) : TimeBase :=
  { tb with period := referencePeriod o, phi := (o.p 3).toNat }

theorem Rate.legal_iff (r : Rate) :
    r.legal = true ↔ 1 ≤ r.n ∧ r.n ≤ 16777215 ∧ 1 ≤ r.d ∧ r.d ≤ 65535 ∧ 128 * r.d ≤ r.n := by
  simp [Rate.legal, and_assoc]

theorem referenceInRange_iff (o : Order) :
    ReferenceInRange o ↔ (referencePeriod o).legal = true ∧ (o.p 3).toNat < (referencePeriod o).floorPeriod := by
  simp [ReferenceInRange, Rate.legal_iff, referencePeriod, Rate.floorPeriod, and_assoc]

theorem referenceSettings_inRange {o : Order} (h : ReferenceInRange o) :
    referenceSettings o = some (referencePeriod o, (o.p 3).toNat) :=
  if_pos ((referenceInRange_iff o).mp h)

theorem referenceSettings_outOfRange {o : Order} (h : ¬ReferenceInRange o) : referenceSettings o = none :=
  if_neg (mt (referenceInRange_iff o).mpr h)

/-- The two examples of R17: a period below 128 ticks, and a phase offset of a whole period. -/
theorem not_referenceInRange_examples {o : Order}
    (h : (o.p 1 = 100 ∧ o.p 2 = 1) ∨ (o.p 1 = 1080000 ∧ o.p 2 = 1 ∧ o.p 3 = 1080000)) : ¬ReferenceInRange o := by
  rcases h with ⟨hn, hd⟩ | ⟨hn, hd, hphi⟩
  · simp [ReferenceInRange, hn, hd]
  · simp [ReferenceInRange, hn, hd, hphi]

theorem bit_zero_eq_true {w : Word} (h : w.toNat % 2 = 1) : bit w 0 = true := by simp [bit, h]

theorem bit_zero_eq_false {w : Word} (h : w.toNat % 2 = 0) : bit w 0 = false := by simp [bit, h]

/-! ## The cases of R18 -/

theorem setReferenceOrder_outOfRange (s : State) {o : Order} (h : ¬ReferenceInRange o) :
    setReferenceOrder o s = s.report .refusedRange := by
  simp only [setReferenceOrder, referenceSettings_outOfRange h]

/-- The enable off in FREE: the settings are stored, and no state change is told. -/
theorem setReferenceOrder_off_free (s : State) {o : Order} (h : ReferenceInRange o) (hoff : (o.p 0).toNat % 2 = 0)
    (hfree : s.tb.ref = .free) :
    setReferenceOrder o s =
      State.report { s with tb := { s.tb.withReference o with slew := 0, expected := none } } .done := by
  simp [setReferenceOrder, referenceSettings_inRange h, bit_zero_eq_false hoff, TimeBase.withReference, hfree]

/-- The enable off in another state: FREE is entered, and the change is told. -/
theorem setReferenceOrder_off (s : State) {o : Order} (h : ReferenceInRange o) (hoff : (o.p 0).toNat % 2 = 0)
    (hfree : s.tb.ref ≠ .free) :
    setReferenceOrder o s =
      State.report
        (State.refChanged { s with tb := { s.tb.withReference o with ref := .free, slew := 0, expected := none } }
          s.tb.ref) .done := by
  simp [setReferenceOrder, referenceSettings_inRange h, bit_zero_eq_false hoff, TimeBase.withReference, hfree]

/-- The enable on with the settings that a LOCKED time base has already. -/
theorem setReferenceOrder_on_same (s : State) {o : Order} (h : ReferenceInRange o) (hon : (o.p 0).toNat % 2 = 1)
    (hsame : s.tb.ref = .locked ∧ s.tb.period = referencePeriod o ∧ s.tb.phi = (o.p 3).toNat) :
    setReferenceOrder o s = s.report .done := by
  simp [setReferenceOrder, referenceSettings_inRange h, bit_zero_eq_true hon, hsame]

/-- The enable on in every other case: the settings are stored and ACQUIRING is entered. -/
theorem setReferenceOrder_on (s : State) {o : Order} (h : ReferenceInRange o) (hon : (o.p 0).toNat % 2 = 1)
    (hsame : ¬(s.tb.ref = .locked ∧ s.tb.period = referencePeriod o ∧ s.tb.phi = (o.p 3).toNat)) :
    setReferenceOrder o s = (State.enterAcquiring { s with tb := s.tb.withReference o } none).report .done := by
  simp [setReferenceOrder, referenceSettings_inRange h, bit_zero_eq_true hon, TimeBase.withReference, hsame]

/-- SET_REFERENCE with its order in hand is the time base's taking of it. -/
theorem exec_setReference_taken {s : State} {o : Order} (hstep : s.oe.step = .taken o) (hk : o.kind = .setReference) :
    exec .setReference s = .next (setReferenceOrder o s) :=
  congrArg Host.Outcome.next (s.handOrder_taken _ _ o hstep hk)

/-- Settles O11, case by case: each is the order's case lemma, whose answer is the state that the statement writes out. -/
theorem setReference : Obligations.SetReference := by
  refine ⟨fun s o hstep hk hbad => ?_, fun s o hstep hk hex => ?_, fun s o hstep hk hok =>
    ⟨fun hoff hfree => ?_, fun hoff hfree => ?_, fun hon hsame => ?_, fun hon hsame => ?_⟩⟩ <;>
    rw [exec_setReference_taken hstep hk]
  · rw [setReferenceOrder_outOfRange s hbad]
    rfl
  · rw [setReferenceOrder_outOfRange s (not_referenceInRange_examples hex)]
    rfl
  · rw [setReferenceOrder_off_free s hok hoff hfree]
    rfl
  · rw [setReferenceOrder_off s hok hoff hfree]
    rfl
  · rw [setReferenceOrder_on_same s hok hon hsame]
    rfl
  · rw [setReferenceOrder_on s hok hon hsame]
    rfl

end Sys2Proof.Machine
end

section
/-! Edges of segments (R23 to R28): the edge index at or before an instant is the upper adjoint of the instant of an
index, from which its other properties follow. -/

namespace Sys2Proof.Machine

/-! ## Rates and the instants of edges (R23, R24) -/

theorem Rate.n_pos {r : Rate} (h : r.legal = true) : (0 : Int) < r.n := by
  obtain ⟨hn, -⟩ := r.legal_iff.mp h
  omega

theorem Rate.d_pos {r : Rate} (h : r.legal = true) : (0 : Int) < r.d := by
  obtain ⟨-, -, hd, -⟩ := r.legal_iff.mp h
  omega

theorem Rate.d_le_n {r : Rate} (h : r.legal = true) : (r.d : Int) ≤ r.n := by
  obtain ⟨-, -, -, -, hdn⟩ := r.legal_iff.mp h
  omega

/-- A period is a tick at least, so that no two edges share an instant. -/
theorem Segment.instant_lt_succ {g : Segment} (h : g.rate.legal = true) (j : Int) :
    g.instant j < g.instant (j + 1) := by
  have hd := Rate.d_pos h
  have hstep : (j - g.base) * g.rate.n + 1 * g.rate.d ≤ (j + 1 - g.base) * g.rate.n := by
    linarith only [Rate.d_le_n h]
  have hdiv := Int.ediv_le_ediv hd hstep
  rw [Int.add_mul_ediv_right _ _ hd.ne'] at hdiv
  unfold Segment.instant
  omega

/-! ## The edge at or before an instant (R25) -/

/-- The defining property: the edges at or before t are those up to the index `edgeAt` gives. -/
theorem Segment.instant_le_iff {g : Segment} (h : g.rate.legal = true) (t j : Int) :
    g.instant j ≤ t ↔ j ≤ g.edgeAt t := by
  calc g.instant j ≤ t
      ↔ (j - g.base) * g.rate.n / g.rate.d < t - g.origin + 1 := by unfold Segment.instant; omega
    _ ↔ (j - g.base) * g.rate.n < (t - g.origin + 1) * g.rate.d := Int.ediv_lt_iff_lt_mul (Rate.d_pos h)
    _ ↔ (j - g.base) * g.rate.n ≤ (t - g.origin + 1) * g.rate.d - 1 := Int.le_sub_one_iff.symm
    _ ↔ j - g.base ≤ ((t - g.origin + 1) * g.rate.d - 1) / g.rate.n := (Int.le_ediv_iff_mul_le (Rate.n_pos h)).symm
    _ ↔ j ≤ g.edgeAt t := by unfold Segment.edgeAt; omega

theorem Segment.lt_instant_iff {g : Segment} (h : g.rate.legal = true) (t j : Int) :
    t < g.instant j ↔ g.edgeAt t + 1 ≤ j := by
  rw [← not_le, g.instant_le_iff h, not_le, Int.add_one_le_iff]

theorem Segment.instant_edgeAt_le {g : Segment} (h : g.rate.legal = true) (t : Int) : g.instant (g.edgeAt t) ≤ t :=
  (g.instant_le_iff h t _).mpr le_rfl

theorem Segment.edgeAt_instant {g : Segment} (h : g.rate.legal = true) (j : Int) : g.edgeAt (g.instant j) = j :=
  le_antisymm (Int.le_of_lt_add_one ((g.lt_instant_iff h _ _).mp (g.instant_lt_succ h j)))
    ((g.instant_le_iff h _ j).mp le_rfl)

/-! ## The nearest edge (R25) -/

theorem Segment.nearestEdge_eq_edgeAt {g : Segment} {t : Int}
    (h : t - g.instant (g.edgeAt t) ≤ g.instant (g.edgeAt t + 1) - t) : g.nearestEdge t = g.edgeAt t :=
  if_pos h

theorem Segment.nearestEdge_eq_succ {g : Segment} {t : Int}
    (h : g.instant (g.edgeAt t + 1) - t < t - g.instant (g.edgeAt t)) : g.nearestEdge t = g.edgeAt t + 1 :=
  if_neg h.not_ge

theorem Segment.nearestEdge_instant {g : Segment} (h : g.rate.legal = true) (j : Int) :
    g.nearestEdge (g.instant j) = j := by
  have hnext := g.instant_lt_succ h j
  rw [nearestEdge_eq_edgeAt, g.edgeAt_instant h]
  rw [g.edgeAt_instant h]
  omega

/-! ## The subframe (R26) -/

/-- From an edge at or before the instant the subframe is not cut off below. -/
theorem Segment.subframe_cast {g : Segment} {t k : Int} (h : g.instant k ≤ t) :
    ((g.subframe t k : Nat) : Int) = min 255 (256 * (t - g.instant k) * g.rate.d / g.rate.n) := by
  have hnum : 0 ≤ 256 * (t - g.instant k) * g.rate.d := by
    have := Int.sub_nonneg_of_le h
    positivity
  exact Int.toNat_of_nonneg (le_min (by decide) (Int.ediv_nonneg hnum (Int.natCast_nonneg _)))

theorem Segment.subframe_eq_zero {g : Segment} {t k : Int} (h : t = g.instant k) : g.subframe t k = 0 := by
  simp [Segment.subframe, h]

/-! ## The segment that answers (R28) -/

section

variable {ch : Channel} {c : Segment} {p : PriorSegment} {t k : Int}

theorem Channel.segmentAt_none (h : ch.cur = none) : ch.segmentAt t = none := by
  simp only [Channel.segmentAt, h]

theorem Channel.segmentAt_cur (hc : ch.cur = some c) (h : (c.origin : Int) ≤ t) : ch.segmentAt t = some (c, false) := by
  simp only [Channel.segmentAt, hc, h, if_true]

theorem Channel.segmentAt_cur_stale (hc : ch.cur = some c) (hp : ch.prior = none) (h : t < c.origin) :
    ch.segmentAt t = some (c, true) := by
  simp only [Channel.segmentAt, hc, hp, h.not_ge, if_false]

/-- Before the current segment a prior one answers, STALE before its own origin. -/
theorem Channel.segmentAt_prior (hc : ch.cur = some c) (hp : ch.prior = some p) (h : t < c.origin) :
    ch.segmentAt t = if (p.seg.origin : Int) ≤ t then some (p.seg, false) else some (p.seg, true) := by
  simp only [Channel.segmentAt, hc, hp, h.not_ge, if_false]

theorem Channel.segmentForIndex_none (h : ch.cur = none) : ch.segmentForIndex k = none := by
  simp only [Channel.segmentForIndex, h]

theorem Channel.segmentForIndex_cur (hc : ch.cur = some c) (h : (c.base : Int) ≤ k) :
    ch.segmentForIndex k = some (c, false) := by
  simp only [Channel.segmentForIndex, hc, h, if_true]

theorem Channel.segmentForIndex_cur_stale (hc : ch.cur = some c) (hp : ch.prior = none) (h : k < c.base) :
    ch.segmentForIndex k = some (c, true) := by
  simp only [Channel.segmentForIndex, hc, hp, h.not_ge, if_false]

/-- Below the current segment's base a prior segment answers, STALE below its own base. -/
theorem Channel.segmentForIndex_prior (hc : ch.cur = some c) (hp : ch.prior = some p) (h : k < c.base) :
    ch.segmentForIndex k = if (p.seg.base : Int) ≤ k then some (p.seg, false) else some (p.seg, true) := by
  simp only [Channel.segmentForIndex, hc, hp, h.not_ge, if_false]

end

/-- Settles O15: the edge index by `Segment.instant_le_iff`, and the choice of segment case by case. -/
theorem edgeAtOrBefore : Obligations.EdgeAtOrBefore := by
  refine ⟨fun g t h => ⟨rfl, g.instant_edgeAt_le h t, fun j => (g.instant_le_iff h t j).mp, ?_,
      fun j => (g.lt_instant_iff h t j).mp, Segment.nearestEdge_eq_edgeAt, Segment.nearestEdge_eq_succ⟩,
    fun g j h => ⟨g.edgeAt_instant h j, g.nearestEdge_instant h j⟩, ⟨rfl, rfl, rfl⟩,
    fun g t h => ⟨Segment.subframe_cast (g.instant_edgeAt_le h t), Segment.subframe_eq_zero⟩,
    fun ch t k => ⟨fun h => ⟨ch.segmentAt_none h, ch.segmentForIndex_none h⟩, fun c hc =>
      ⟨ch.segmentAt_cur hc, ch.segmentForIndex_cur hc,
        fun hp => ⟨ch.segmentAt_cur_stale hc hp, ch.segmentForIndex_cur_stale hc hp⟩, fun p hp => ⟨?_, ?_, ?_, ?_⟩⟩⟩,
    fun g j => rfl, Rate.legal_iff⟩
  · exact (g.lt_instant_iff h t _).mpr le_rfl
  · exact fun ht hin => (ch.segmentAt_prior hc hp ht).trans (if_pos hin)
  · exact fun ht hbefore => (ch.segmentAt_prior hc hp ht).trans (if_neg hbefore.not_ge)
  · exact fun hk hin => (ch.segmentForIndex_prior hc hp hk).trans (if_pos hin)
  · exact fun hk hbefore => (ch.segmentForIndex_prior hc hp hk).trans (if_neg hbefore.not_ge)

end Sys2Proof.Machine
end

section
/-! Labels (R29 to R34): index and label are inverse in every format. The drop-frame conversions are the non-drop ones
after a bijection of frame numbers, that of the indices onto the frame numbers that are not dropped. -/

namespace Sys2Proof.Machine

/-! ## Validity and skipped labels (R33, R34) -/

theorem Base.fps_pos (b : Base) : 0 < b.fps := by cases b <;> decide

theorem Fmt.valid_iff (f : Fmt) (l : Label) :
    f.valid l = true ↔ l.hh < 24 ∧ l.mm < 60 ∧ l.ss < 60 ∧ l.ff < f.base.fps := by
  simp [Fmt.valid, and_assoc]

theorem Fmt.skipped_iff (f : Fmt) (l : Label) :
    f.skipped l = true ↔ f.drop = true ∧ l.ss = 0 ∧ l.mm % 10 ≠ 0 ∧ l.ff < f.base.dropCount := by
  simp [Fmt.skipped, and_assoc]

theorem Fmt.moved_of_skipped {f : Fmt} {l : Label} (h : f.skipped l = true) :
    f.moved l = { l with ff := f.base.dropCount } :=
  if_pos h

theorem Fmt.moved_of_not_skipped {f : Fmt} {l : Label} (h : f.skipped l = false) : f.moved l = l :=
  if_neg (by simp [h])

/-! ## Non-drop labels (R30) -/

/-- The frame number of a label when every frame number is counted (R30). -/
def Label.frameNumber (B : Nat) (l : Label) : Nat := (3600 * l.hh + 60 * l.mm + l.ss) * B + l.ff

theorem Fmt.labelOf_nonDrop (b : Base) (i : Nat) : Fmt.labelOf ⟨b, false⟩ i = nonDropLabel b.fps i := rfl

theorem Fmt.indexOf_nonDrop (b : Base) (l : Label) : Fmt.indexOf ⟨b, false⟩ l = l.frameNumber b.fps := rfl

/-- The fields by way of the count of whole seconds, `i / B`. -/
theorem nonDropLabel_seconds (B i : Nat) :
    nonDropLabel B i = ⟨i / B / 3600, i / B / 60 % 60, i / B % 60, i % B⟩ := by
  simp only [nonDropLabel, Nat.div_div_eq_div_mul, Nat.mul_comm]

theorem frameNumber_nonDropLabel (B i : Nat) : (nonDropLabel B i).frameNumber B = i := by
  have hseconds (s : Nat) : 3600 * (s / 3600) + 60 * (s / 60 % 60) + s % 60 = s := by omega
  rw [nonDropLabel_seconds, Label.frameNumber, hseconds, Nat.div_add_mod']

/-- The labels that are valid are those of one day's frame numbers. -/
theorem Fmt.valid_nonDropLabel_iff (f : Fmt) (i : Nat) :
    f.valid (nonDropLabel f.base.fps i) = true ↔ i < 86400 * f.base.fps := by
  have hmod (x : Nat) : x % 60 < 60 := Nat.mod_lt x (by decide)
  have hff : i % f.base.fps < f.base.fps := Nat.mod_lt i f.base.fps_pos
  have hhh : i / (3600 * f.base.fps) < 24 ↔ i < 24 * (3600 * f.base.fps) :=
    Nat.div_lt_iff_lt_mul (Nat.mul_pos (by decide) f.base.fps_pos)
  simp only [Fmt.valid_iff, nonDropLabel, hmod, hff, hhh, and_true]
  omega

theorem Fmt.nonDropLabel_frameNumber {f : Fmt} {l : Label} (h : f.valid l = true) :
    nonDropLabel f.base.fps (l.frameNumber f.base.fps) = l := by
  obtain ⟨-, hmm, hss, hff⟩ := (f.valid_iff l).mp h
  have hdiv : l.frameNumber f.base.fps / f.base.fps = 3600 * l.hh + 60 * l.mm + l.ss := by
    rw [Label.frameNumber, Nat.add_comm, Nat.add_mul_div_right _ _ f.base.fps_pos, Nat.div_eq_of_lt hff, Nat.zero_add]
  have hmod : l.frameNumber f.base.fps % f.base.fps = l.ff := by
    rw [Label.frameNumber, Nat.mul_add_mod_self_right, Nat.mod_eq_of_lt hff]
  rw [nonDropLabel_seconds, hdiv, hmod]
  obtain ⟨hh, mm, ss, ff⟩ := l
  simp only [Label.mk.injEq, and_true]
  dsimp only at hmm hss
  omega

/-- So every valid label is the non-drop label of one frame number of the day. -/
theorem Fmt.frameNumber_lt {f : Fmt} {l : Label} (h : f.valid l = true) :
    l.frameNumber f.base.fps < 86400 * f.base.fps :=
  (f.valid_nonDropLabel_iff _).mp (by rw [f.nonDropLabel_frameNumber h]; exact h)

/-- Settles O16: the field formulas are the definitions, and the two inverses are those of label and frame number. -/
theorem nonDropLabels : Obligations.NonDropLabels := by
  refine ⟨fun b => ⟨Fmt.labelOf_nonDrop b, Fmt.indexOf_nonDrop b, fun i hi => ⟨?_, ?_⟩, fun l hl => ⟨?_, ?_⟩⟩,
    rfl, rfl, rfl⟩
  · exact (Fmt.valid_nonDropLabel_iff ⟨b, false⟩ i).mpr hi
  · exact frameNumber_nonDropLabel b.fps i
  · exact Fmt.frameNumber_lt hl
  · exact Fmt.nonDropLabel_frameNumber hl

/-! ## Dropped frame numbers (R31, R32) -/

/-- The bases of the drop-frame formats. -/
def Base.drops (b : Base) : Prop := b = .b30 ∨ b = .b60

/-- Whether a frame number of a drop-frame format is dropped: one of the first 2 (or 4) of a minute that is no multiple
of 10. -/
def Base.dropped (b : Base) (n : Nat) : Prop :=
  n / (60 * b.fps) % 10 ≠ 0 ∧ n % (60 * b.fps) < b.dropCount

/-- A frame number less the dropped ones in the minutes up to its own, the sum that R32 takes from a label. -/
def Base.removeDropped (b : Base) (n : Nat) : Nat :=
  n - b.dropCount * (n / (60 * b.fps) - n / (60 * b.fps) / 10)

/-- Every whole ten minutes have restored k frame numbers nine times; the rest of a ten minutes has restored k more for
each minute past its first. -/
theorem restoreDropped_eq {b : Base} (hb : b.drops) (i : Nat) :
    restoreDropped b i =
      i + b.dropCount * (9 * (i / (600 * b.fps - 9 * b.dropCount)) +
        (i % (600 * b.fps - 9 * b.dropCount) - b.dropCount) / (60 * b.fps - b.dropCount)) := by
  rcases hb with rfl | rfl <;> simp only [restoreDropped, Base.fps, Base.dropCount] <;> split <;> omega

/-! For each of the two bases these are facts of linear arithmetic on the index or the frame number. -/

/-- A day's indices restore to a day's frame numbers. -/
theorem restoreDropped_lt_iff {b : Base} (hb : b.drops) (i : Nat) :
    restoreDropped b i < 86400 * b.fps ↔ i < Fmt.fday ⟨b, true⟩ := by
  rw [restoreDropped_eq hb]
  rcases hb with rfl | rfl <;> simp only [Fmt.fday, Base.fps, Base.dropCount, if_true] <;> omega

theorem not_dropped_restoreDropped {b : Base} (hb : b.drops) (i : Nat) : ¬b.dropped (restoreDropped b i) := by
  rw [restoreDropped_eq hb]
  rcases hb with rfl | rfl <;> simp only [Base.dropped, Base.fps, Base.dropCount] <;> omega

theorem removeDropped_restoreDropped {b : Base} (hb : b.drops) (i : Nat) :
    b.removeDropped (restoreDropped b i) = i := by
  rw [restoreDropped_eq hb]
  rcases hb with rfl | rfl <;> simp only [Base.removeDropped, Base.fps, Base.dropCount] <;> omega

theorem restoreDropped_removeDropped {b : Base} (hb : b.drops) {n : Nat} (hn : ¬b.dropped n) :
    restoreDropped b (b.removeDropped n) = n := by
  rw [restoreDropped_eq hb]
  rcases hb with rfl | rfl <;> simp only [Base.removeDropped, Base.dropped, Base.fps, Base.dropCount] at hn ⊢ <;> omega

/-! ## Drop-frame labels (R31, R32) -/

theorem Fmt.labelOf_drop (b : Base) (i : Nat) :
    Fmt.labelOf ⟨b, true⟩ i = nonDropLabel b.fps (restoreDropped b i) := rfl

theorem Fmt.indexOf_drop (b : Base) (l : Label) :
    Fmt.indexOf ⟨b, true⟩ l =
      l.frameNumber b.fps - b.dropCount * ((60 * l.hh + l.mm) - (60 * l.hh + l.mm) / 10) := rfl

theorem Fmt.indexOf_drop_nonDropLabel (b : Base) (n : Nat) :
    Fmt.indexOf ⟨b, true⟩ (nonDropLabel b.fps n) = b.removeDropped n := by
  have htm : 60 * (nonDropLabel b.fps n).hh + (nonDropLabel b.fps n).mm = n / (60 * b.fps) := by
    rw [nonDropLabel_seconds, Nat.mul_comm 60 b.fps, ← Nat.div_div_eq_div_mul]
    dsimp only
    omega
  rw [Fmt.indexOf_drop, frameNumber_nonDropLabel, htm, Base.removeDropped]

/-- The skipped labels are those of the dropped frame numbers. -/
theorem skipped_nonDropLabel_iff {b : Base} (hb : b.drops) (n : Nat) :
    Fmt.skipped ⟨b, true⟩ (nonDropLabel b.fps n) = true ↔ b.dropped n := by
  rw [Fmt.skipped_iff]
  rcases hb with rfl | rfl <;> simp only [nonDropLabel, Base.dropped, Base.fps, Base.dropCount, true_and] <;> omega

/-- The label of a day's index is valid, exists, and has that index. -/
theorem dropLabel_of_index {b : Base} (hb : b.drops) {i : Nat} (hi : i < Fmt.fday ⟨b, true⟩) :
    let f : Fmt := ⟨b, true⟩
    f.valid (f.labelOf i) = true ∧ ¬f.skipped (f.labelOf i) = true ∧ f.indexOf (f.labelOf i) = i := by
  intro f
  simp only [f, Fmt.labelOf_drop]
  refine ⟨?_, ?_, ?_⟩
  · exact (Fmt.valid_nonDropLabel_iff ⟨b, true⟩ _).mpr ((restoreDropped_lt_iff hb i).mpr hi)
  · exact mt (skipped_nonDropLabel_iff hb _).mp (not_dropped_restoreDropped hb i)
  · rw [Fmt.indexOf_drop_nonDropLabel, removeDropped_restoreDropped hb]

/-- The index of a valid label that exists is a day's index, and has that label. -/
theorem dropIndex_of_label {b : Base} (hb : b.drops) {l : Label} (hl : Fmt.valid ⟨b, true⟩ l = true)
    (hex : ¬Fmt.skipped ⟨b, true⟩ l = true) :
    let f : Fmt := ⟨b, true⟩
    f.indexOf l < f.fday ∧ f.labelOf (f.indexOf l) = l := by
  intro f
  obtain ⟨n, hn, rfl⟩ : ∃ n, n < 86400 * b.fps ∧ nonDropLabel b.fps n = l :=
    ⟨_, Fmt.frameNumber_lt hl, Fmt.nonDropLabel_frameNumber hl⟩
  have hrestore : restoreDropped b (b.removeDropped n) = n :=
    restoreDropped_removeDropped hb (mt (skipped_nonDropLabel_iff hb n).mpr hex)
  rw [Fmt.indexOf_drop_nonDropLabel, Fmt.labelOf_drop, hrestore]
  exact ⟨(restoreDropped_lt_iff hb _).mp (by rwa [hrestore]), rfl⟩

theorem Fmt.not_skipped_drop_iff (b : Base) (l : Label) :
    ¬Fmt.skipped ⟨b, true⟩ l = true ↔ ¬(l.mm % 10 ≠ 0 ∧ l.ss = 0 ∧ l.ff < b.dropCount) := by
  rw [Fmt.skipped_iff]
  tauto

/-- Settles O17: the two inverses hold through the frame numbers; the formulas are the definitions, and the rest is
R33 and R34. -/
theorem dropLabels : Obligations.DropLabels := by
  refine ⟨fun i => ⟨rfl, rfl⟩, fun b k hbk => ?_, ⟨rfl, rfl, rfl, rfl⟩, fun f l =>
    ⟨f.valid_iff l, f.skipped_iff l, Fmt.moved_of_skipped, Fmt.moved_of_not_skipped⟩, rfl⟩
  obtain ⟨hb, rfl⟩ : b.drops ∧ b.dropCount = k := by
    rcases hbk with ⟨rfl, rfl⟩ | ⟨rfl, rfl⟩
    · exact ⟨.inl rfl, rfl⟩
    · exact ⟨.inr rfl, rfl⟩
  simp only [← Fmt.not_skipped_drop_iff]
  exact ⟨Fmt.indexOf_drop b, fun i hi => dropLabel_of_index hb hi, fun l hl hex => dropIndex_of_label hb hl hex⟩

end Sys2Proof.Machine
end

section
/-! SET CHANNEL: the checks of R51 in order, and what the order does in each case of R52. -/

namespace Sys2Proof.Machine

/-! ## The operands of a channel order (R51, R188, R190) -/

theorem chanOf_eq_some {n : Nat} {c : Fin 16} (h : n = c.val) : chanOf n = some c := by
  subst h
  exact dif_pos c.isLt

theorem chanOf_eq_none {n : Nat} (h : 16 ≤ n) : chanOf n = none := dif_neg h.not_gt

theorem bit_zero_iff (w : Word) : bit w 0 = true ↔ w.toNat % 2 = 1 := by simp [bit]

theorem Fmt.enter_of_valid {f : Fmt} {l : Label} (h : f.valid l = true) :
    f.enter l = some (f.indexOf (f.moved l), f.skipped l) :=
  if_pos h

theorem Fmt.enter_of_invalid {f : Fmt} {l : Label} (h : f.valid l = false) : f.enter l = none :=
  if_neg (by simp [h])

/-- The rate that a SET CHANNEL carries. -/
def channelRate (o : Order) : Rate := ⟨(o.p 2).toNat, (o.p 3).toNat⟩

/-- The kind that a SET CHANNEL carries. -/
def channelKind (o : Order) : ChanKind := if (o.p 1).toNat % 2 = 1 then .sample else .picture

/-- The settings that a SET CHANNEL with label format `f` carries, its start label moved forward where it does not
exist. -/
def channelSet (o : Order) (f : Fmt) : Settings :=
  { rate := channelRate o, width := bits (o.p 4) 15 0, fmt := f
    start := f.indexOf (f.moved (labelOfWord (o.p 5))), labelOut := bit (o.p 1) 1, userWord := o.p 6
    stamping := bit (o.p 1) 2 }

theorem channelSettings_inRange {o : Order} {f : Fmt} (hrate : (channelRate o).legal = true)
    (hfmt : fmtOfCode (bits (o.p 1) 7 4) = some f) (hlabel : f.valid (labelOfWord (o.p 5)) = true) :
    channelSettings o = some (channelKind o, channelSet o f) := by
  rw [channelRate] at hrate
  simp only [channelSettings, hrate, hfmt, Fmt.enter_of_valid hlabel, bit_zero_iff, if_true]
  rfl

/-- One of the rate, the label format and the start label is out of range. -/
theorem channelSettings_outOfRange {o : Order}
    (h : (channelRate o).legal = false ∨ fmtOfCode (bits (o.p 1) 7 4) = none ∨
      ∃ f, fmtOfCode (bits (o.p 1) 7 4) = some f ∧ f.valid (labelOfWord (o.p 5)) = false) :
    channelSettings o = none := by
  unfold channelSettings
  dsimp only
  split
  next hrate =>
    rcases h with hbad | hfmt | ⟨f, hfmt, hlabel⟩
    · exact absurd hrate (by simpa [channelRate] using hbad)
    · rw [hfmt]
    · rw [hfmt]
      simp only [Fmt.enter_of_invalid hlabel]
  next => rfl

/-! ## The cases of R52 -/

theorem Channel.configure_idle {ch : Channel} (kind : ChanKind) (set : Settings)
    (h : ch.state = .stopped ∨ ch.state = .armed) : ch.configure kind set = { ch with kind := kind, cfg := set } := by
  rcases h with h | h <;> simp only [Channel.configure, h]

theorem Channel.configure_running {ch : Channel} (kind : ChanKind) (set : Settings) (h : ch.state = .running) :
    ch.configure kind set = { ch with staged := some (.full set) } := by
  simp only [Channel.configure, h]

theorem setChannelOrder_badChannel (s : State) {o : Order} (h : 16 ≤ (o.p 0).toNat) :
    setChannelOrder o s = s.report .refusedRange := by
  simp only [setChannelOrder, chanOf_eq_none h]

theorem setChannelOrder_badSettings (s : State) {o : Order} (h : channelSettings o = none) :
    setChannelOrder o s = s.report .refusedRange := by
  unfold setChannelOrder
  rw [h]
  cases chanOf (o.p 0).toNat <;> rfl

section

variable {s : State} {o : Order} {c : Fin 16} {kind : ChanKind} {set : Settings}

/-- With the operands in range, the checks that remain are those against the channel's record. -/
theorem setChannelOrder_inRange (hc : (o.p 0).toNat = c.val) (hset : channelSettings o = some (kind, set)) :
    setChannelOrder o s =
      if kind ≠ (s.chan c).kind ∧ (s.chan c).state ≠ .stopped then s.report .refusedState
      else if (s.chan c).stopPending then s.report .refusedState
      else if kind ≠ .picture ∧ (s.chan c).bound ≠ 0 then s.report .refusedBound
      else (s.setChan c ((s.chan c).configure kind set)).report .done := by
  simp only [setChannelOrder, chanOf_eq_some hc, hset]

theorem setChannelOrder_refusedState (hc : (o.p 0).toNat = c.val) (hset : channelSettings o = some (kind, set))
    (h : (kind ≠ (s.chan c).kind ∧ (s.chan c).state ≠ .stopped) ∨ (s.chan c).stopPending = true) :
    setChannelOrder o s = s.report .refusedState := by
  rw [setChannelOrder_inRange hc hset]
  rcases h with hkind | hpending
  · exact if_pos hkind
  · rw [if_pos hpending, ite_self]

/-- The order passes the checks of the channel's state. -/
theorem setChannelOrder_stateAllows (hc : (o.p 0).toNat = c.val) (hset : channelSettings o = some (kind, set))
    (hkind : kind = (s.chan c).kind ∨ (s.chan c).state = .stopped) (hpending : (s.chan c).stopPending = false) :
    setChannelOrder o s =
      if kind ≠ .picture ∧ (s.chan c).bound ≠ 0 then s.report .refusedBound
      else (s.setChan c ((s.chan c).configure kind set)).report .done := by
  rw [setChannelOrder_inRange hc hset, if_neg (by tauto), if_neg (by simp [hpending])]

theorem setChannelOrder_refusedBound (hc : (o.p 0).toNat = c.val) (hset : channelSettings o = some (kind, set))
    (hkind : kind = (s.chan c).kind ∨ (s.chan c).state = .stopped) (hpending : (s.chan c).stopPending = false)
    (hpicture : kind ≠ .picture) (hbound : (s.chan c).bound ≠ 0) :
    setChannelOrder o s = s.report .refusedBound := by
  rw [setChannelOrder_stateAllows hc hset hkind hpending, if_pos ⟨hpicture, hbound⟩]

theorem setChannelOrder_accepted (hc : (o.p 0).toNat = c.val) (hset : channelSettings o = some (kind, set))
    (hkind : kind = (s.chan c).kind ∨ (s.chan c).state = .stopped) (hpending : (s.chan c).stopPending = false)
    (hbound : kind = .picture ∨ (s.chan c).bound = 0) :
    setChannelOrder o s = (s.setChan c ((s.chan c).configure kind set)).report .done := by
  rw [setChannelOrder_stateAllows hc hset hkind hpending, if_neg (by tauto)]

end

/-- SET_CHANNEL with its order in hand is the channel array's taking of it. -/
theorem exec_setChannel_taken {s : State} {o : Order} (hstep : s.oe.step = .taken o) (hk : o.kind = .setChannel) :
    exec .setChannel s = .next (setChannelOrder o s) :=
  congrArg Host.Outcome.next (s.handOrder_taken _ _ o hstep hk)

/-- Settles O24, check by check; an order that passes configures the channel by its state. -/
theorem setChannel : Obligations.SetChannel := by
  refine ⟨fun s o hstep hk hbad => ?_, fun s o c f hstep hk hc hrate hfmt hlabel => ?_⟩
  · rw [exec_setChannel_taken hstep hk]
    rcases hbad with hchan | hbad
    · rw [setChannelOrder_badChannel s hchan]
      rfl
    · rw [setChannelOrder_badSettings s (channelSettings_outOfRange hbad)]
      rfl
  · have hset := channelSettings_inRange hrate hfmt hlabel
    rw [exec_setChannel_taken hstep hk]
    refine ⟨fun hstate => ?_, fun hkind hpending hpicture hbound => ?_, fun hkind hpending hbound =>
      ⟨fun hidle => ?_, fun hrun => ?_⟩⟩
    · rw [setChannelOrder_refusedState hc hset hstate]
      rfl
    · rw [setChannelOrder_refusedBound hc hset hkind hpending hpicture hbound]
      rfl
    · rw [setChannelOrder_accepted hc hset hkind hpending hbound, Channel.configure_idle _ _ hidle]
      rfl
    · rw [setChannelOrder_accepted hc hset hkind hpending hbound, Channel.configure_running _ _ hrun]
      rfl

end Sys2Proof.Machine
end

section
/-! START CHANNEL: the start instant of R53, an armed start (R54) and a late one (R56). -/

namespace Sys2Proof.Machine

/-! ## The start instant (R3, R53) -/

theorem instant64_of_lt {t : Nat} (h : t < 2 ^ 64) : instant64 t = t := if_pos h

theorem State.startInstant_given {s : State} {o : Order} (h : o.grid = false) :
    s.startInstant o = (o.p 1).toNat + 2 ^ 32 * (o.p 2).toNat := by
  simp only [State.startInstant, h, wide, Bool.false_eq_true, if_false]

theorem State.startInstant_grid {s : State} {o : Order} (h : o.grid = true) (ht : s.tb.gridAfter s.tb.st < 2 ^ 64) :
    s.startInstant o = s.tb.gridAfter s.tb.st := by
  rw [State.startInstant, if_pos h, instant64_of_lt ht]

/-- The reference grid as the edges of a segment: φ is the origin, the reference period the rate. -/
def TimeBase.gridSegment (tb : TimeBase) : Segment := ⟨tb.phi, 0, tb.period⟩

/-- From φ on, the grid point after an instant is the edge that follows the one at or before it. -/
theorem TimeBase.gridAfter_eq_instant {tb : TimeBase} {t : Nat} (h : tb.period.legal = true) (ht : tb.phi ≤ t) :
    (tb.gridAfter t : Int) = tb.gridSegment.instant (tb.gridSegment.edgeAt t + 1) := by
  have hd : 1 ≤ (t - tb.phi + 1) * tb.period.d :=
    Nat.mul_pos (Nat.succ_pos _) (Int.natCast_pos.mp (Rate.d_pos h))
  simp only [TimeBase.gridAfter, ht.not_gt, if_false, TimeBase.gridSegment, Segment.instant, Segment.edgeAt]
  push_cast [Nat.cast_sub hd, Nat.cast_sub ht]
  simp

theorem TimeBase.lt_gridAfter {tb : TimeBase} (h : tb.period.legal = true) (t : Nat) : t < tb.gridAfter t := by
  by_cases ht : t < tb.phi
  · rwa [TimeBase.gridAfter, if_pos ht]
  · have hnext := (tb.gridSegment.lt_instant_iff h t _).mpr le_rfl
    rw [← TimeBase.gridAfter_eq_instant h (not_lt.mp ht)] at hnext
    exact Int.ofNat_lt.mp hnext

/-! ## The cases of R53 to R56 -/

section

variable {s : State} {o : Order} {c : Fin 16} {t0 : Nat}

theorem startChannelOrder_badChannel (h : 16 ≤ (o.p 0).toNat) : startChannelOrder o s = s.report .refusedRange := by
  simp only [startChannelOrder, chanOf_eq_none h]

theorem startChannelOrder_refusedState (hc : (o.p 0).toNat = c.val) (h : (s.chan c).state ≠ .stopped) :
    startChannelOrder o s = s.report .refusedState := by
  simp only [startChannelOrder, chanOf_eq_some hc]
  exact if_pos h

theorem startChannelOrder_stopped (hc : (o.p 0).toNat = c.val) (h : (s.chan c).state = .stopped)
    (ht : s.startInstant o = t0) :
    startChannelOrder o s =
      if s.tb.st < t0 then (s.setChan c { s.chan c with state := .armed, startSt := some t0 }).report .done
      else (s.lateStart c t0).report .done := by
  simp only [startChannelOrder, chanOf_eq_some hc, ht]
  exact if_neg (not_not.mpr h)

theorem startChannelOrder_armed (hc : (o.p 0).toNat = c.val) (h : (s.chan c).state = .stopped)
    (ht : s.startInstant o = t0) (hahead : s.tb.st < t0) :
    startChannelOrder o s =
      (s.setChan c { s.chan c with state := .armed, startSt := some t0 }).report .done := by
  rw [startChannelOrder_stopped hc h ht, if_pos hahead]

theorem startChannelOrder_late (hc : (o.p 0).toNat = c.val) (h : (s.chan c).state = .stopped)
    (ht : s.startInstant o = t0) (hlate : t0 ≤ s.tb.st) :
    startChannelOrder o s = (s.lateStart c t0).report .done := by
  rw [startChannelOrder_stopped hc h ht, if_neg hlate.not_gt]

end

/-- A watch entry carries STOPPED exactly when its channel is not RUNNING (R41). -/
theorem watchEntry_stopped {c : Fin 16} {ch : Channel} {t : Nat} {w : Watch} (h : watchEntry c ch t = some w) :
    w.stopped = (ch.state != .running) := by
  unfold watchEntry at h
  split at h
  · cases h
  · dsimp only at h
    split at h
    · cases h
      rfl
    · split at h <;> cases h <;> rfl

/-- START_CHANNEL with its order in hand is the channel array's taking of it. -/
theorem exec_startChannel_taken {s : State} {o : Order} (hstep : s.oe.step = .taken o) (hk : o.kind = .startChannel) :
    exec .startChannel s = .next (startChannelOrder o s) :=
  congrArg Host.Outcome.next (s.handOrder_taken _ _ o hstep hk)

/-- Settles O25: the start instant is t0 in both forms of the order, and t0 against ST decides between the two starts. -/
theorem startChannel : Obligations.StartChannel := by
  refine ⟨fun s o hstep hk hchan => ?_, fun s o c hstep hk hc hstate => ?_,
    fun s o c t0 hstep hk hc hstate hform => ?_, fun c ch t w harmed hw => ?_⟩
  · rw [exec_startChannel_taken hstep hk, startChannelOrder_badChannel hchan]
    rfl
  · rw [exec_startChannel_taken hstep hk, startChannelOrder_refusedState hc hstate]
    rfl
  · have ht : s.startInstant o = t0 := by
      rcases hform with ⟨hgiven, rfl⟩ | ⟨hgrid, rfl, hlt⟩
      · exact State.startInstant_given hgiven
      · exact State.startInstant_grid hgrid hlt
    refine ⟨fun hahead => ?_, fun hlate => ?_, fun hgrid hlegal => ?_⟩
    · rw [exec_startChannel_taken hstep hk, startChannelOrder_armed hc hstate ht hahead]
    · rw [exec_startChannel_taken hstep hk, startChannelOrder_late hc hstate ht hlate]
      rfl
    · rcases hform with ⟨hgiven, -⟩ | ⟨-, rfl, -⟩
      · exact absurd (hgrid.symm.trans hgiven) (by decide)
      · exact TimeBase.lt_gridAfter hlegal _
  · rw [watchEntry_stopped hw, harmed]
    rfl

end Sys2Proof.Machine
end

section
/-! SET DEVICE: the checks of R108 in order, what an order that passes stores, and a path delay change by state
(R109). -/

namespace Sys2Proof.Machine

/-! ## The operands of a roster order (R106, R190) -/

theorem slotOf_eq_some {w : Word} {i : Fin 48} (h : w.toNat = i.val) : slotOf w = some i := by
  rw [slotOf, dif_pos (h ▸ i.isLt)]
  exact congrArg some (Fin.ext h)

theorem slotOf_eq_none {w : Word} (h : 48 ≤ w.toNat) : slotOf w = none := dif_neg h.not_gt

theorem windowParam_of_le {w : Word} (h : w.toNat ≤ 1000000) :
    windowParam w = some (if w.toNat = 0 then 13500 else w.toNat) := by
  by_cases hw : w.toNat = 0
  · rw [windowParam, if_pos (BitVec.eq_of_toNat_eq hw), if_pos hw]
  · rw [windowParam, if_neg (by rintro rfl; exact hw rfl), if_pos h, if_neg hw]

theorem windowParam_of_gt {w : Word} (h : 1000000 < w.toNat) : windowParam w = none := by
  have hw : w ≠ 0 := by
    rintro rfl
    exact absurd h (by decide)
  rw [windowParam, if_neg hw, if_neg h.not_ge]

theorem optChan_eq_none {n : Nat} (h : 16 ≤ n) : optChan true n = none := by
  simp [optChan, chanOf_eq_none h]

/-- Of the codes of a recovery field, 1 alone is JAM. -/
theorem recoveryOfCode_eq_jam_iff {c : Nat} {recovery : Recovery} (h : recoveryOfCode c = some recovery) :
    recovery = .jam ↔ c = 1 := by
  unfold recoveryOfCode at h
  split at h <;> cases h <;> simp

/-- A recovery field is in range unless its two bits are 3. -/
theorem exists_recoveryOfCode {w : Word} (h : bits w 3 2 ≠ 3) :
    ∃ recovery, recoveryOfCode (bits w 3 2) = some recovery := by
  have hlt : bits w 3 2 < 4 := Nat.mod_lt _ (by decide)
  generalize bits w 3 2 = c at h hlt ⊢
  interval_cases c
  · exact ⟨_, rfl⟩
  · exact ⟨_, rfl⟩
  · exact ⟨_, rfl⟩
  · exact absurd rfl h

theorem exists_optChan {present : Bool} {n : Nat} (h : ¬(present = true ∧ 16 ≤ n)) :
    ∃ source, optChan present n = some source := by
  cases present with
  | false => exact ⟨_, rfl⟩
  | true =>
    have hn : n < 16 := by simpa using h
    exact ⟨some ⟨n, hn⟩, by simp [optChan, chanOf, hn]⟩

/-! ## The range checks of R108 -/

/-- A parameter of a SET DEVICE, its slot apart, is out of range. -/
def SetDeviceOutOfRange (o : Order) : Prop :=
  1000000 < (o.p 2).toNat ∨ bits (o.p 3) 3 2 = 3 ∨ (bit (o.p 3) 9 = true ∧ 16 ≤ bits (o.p 3) 31 24)

/-- The window that a SET DEVICE carries, 0 standing for the default. -/
def setDeviceWindow (o : Order) : Nat := if (o.p 2).toNat = 0 then 13500 else (o.p 2).toNat

theorem setDeviceFields_outOfRange {o : Order} (h : SetDeviceOutOfRange o) : setDeviceFields o = none := by
  unfold setDeviceFields
  dsimp only
  rcases h with hwindow | hrecovery | ⟨hpresent, hsource⟩
  · rw [windowParam_of_gt hwindow]
  · rw [hrecovery]
    cases windowParam (o.p 2) <;> rfl
  · rw [hpresent, optChan_eq_none hsource]
    cases windowParam (o.p 2) <;> cases recoveryOfCode (bits (o.p 3) 3 2) <;> rfl

theorem setDeviceFields_inRange {o : Order} {recovery : Recovery} {source : Option (Fin 16)}
    (h : ¬SetDeviceOutOfRange o) (hrecovery : recoveryOfCode (bits (o.p 3) 3 2) = some recovery)
    (hsource : optChan (bit (o.p 3) 9) (bits (o.p 3) 31 24) = some source) :
    setDeviceFields o = some (bits (o.p 1) 15 0, setDeviceWindow o, recovery, source) := by
  have hwindow : (o.p 2).toNat ≤ 1000000 := not_lt.mp fun hgt => h (.inl hgt)
  simp only [setDeviceFields, windowParam_of_le hwindow, hrecovery, hsource, setDeviceWindow]

/-- Where no parameter is out of range, the recovery and jam source fields name values. -/
theorem exists_recovery_source {o : Order} (h : ¬SetDeviceOutOfRange o) :
    ∃ recovery source, recoveryOfCode (bits (o.p 3) 3 2) = some recovery ∧
      optChan (bit (o.p 3) 9) (bits (o.p 3) 31 24) = some source := by
  obtain ⟨-, hcode, hpresent⟩ := (not_or.mp h).imp_right not_or.mp
  obtain ⟨recovery, hrecovery⟩ := exists_recoveryOfCode hcode
  obtain ⟨source, hsource⟩ := exists_optChan hpresent
  exact ⟨recovery, source, hrecovery, hsource⟩

/-! ## A path delay change, by state (R109) -/

/-- The record with another path delay and its tie to studio time forgotten. -/
def Device.redelayed (d : Device) (delay : Nat) : Device := { d.forget with pathDelay := delay }

section

variable {d : Device} {delay : Nat}

theorem Device.changeDelay_present
    (h : d.state = .enrolled ∨ d.state = .settling ∨ d.state = .locked ∨ d.state = .drifting) :
    d.changeDelay delay = { d.redelayed delay with state := .enrolled } := by
  rcases h with h | h | h | h <;> simp only [Device.changeDelay, h] <;> rfl

theorem Device.changeDelay_absent (h : d.state = .absent) :
    d.changeDelay delay = { d.redelayed delay with before := some .enrolled } := by
  simp only [Device.changeDelay, h]
  rfl

theorem Device.setDelay_same (hstate : d.state ≠ .jamming) (h : delay = d.pathDelay) : d.setDelay delay = d := by
  unfold Device.setDelay
  split
  next hjam => exact absurd hjam hstate
  next => exact if_pos h

theorem Device.setDelay_other (hstate : d.state ≠ .jamming) (h : delay ≠ d.pathDelay) :
    d.setDelay delay = d.changeDelay delay := by
  unfold Device.setDelay
  split
  next hjam => exact absurd hjam hstate
  next => exact if_neg h

theorem Device.setDelay_present
    (hstate : d.state = .enrolled ∨ d.state = .settling ∨ d.state = .locked ∨ d.state = .drifting)
    (h : delay ≠ d.pathDelay) : d.setDelay delay = { d.redelayed delay with state := .enrolled } := by
  rw [Device.setDelay_other (by rintro hjam; simp [hjam] at hstate) h, Device.changeDelay_present hstate]

theorem Device.setDelay_absent (hstate : d.state = .absent) (h : delay ≠ d.pathDelay) :
    d.setDelay delay = { d.redelayed delay with before := some .enrolled } := by
  rw [Device.setDelay_other (by simp [hstate]) h, Device.changeDelay_absent hstate]

theorem Device.setDelay_jamming {j : JamContext} (hstate : d.state = .jamming) (hjam : d.jam = some j) :
    d.setDelay delay =
      { d with jam := some { j with pendingDelay := if delay = d.pathDelay then none else some delay } } := by
  simp only [Device.setDelay, hstate, hjam, Option.map_some]

end

/-! ## The cases of R108 -/

theorem State.setSlot_setSlot (s : State) (i : Fin 48) (x y : Device) :
    (s.setSlot i x).setSlot i y = s.setSlot i y := by
  simp [State.setSlot]

/-- The termination of an order that has just stored a record sets the result code of that record. -/
theorem State.setSlot_rosterReport (s : State) (i : Fin 48) (x : Device) (code : Result) :
    (s.setSlot i x).rosterReport i code = (s.setSlot i { x with lastResult := some code }).report code := by
  rw [State.rosterReport, State.setLastResult, State.setSlot_slot_same, State.setSlot_setSlot]

/-- The record with the window, recovery and jam source of a SET DEVICE stored. -/
def Device.withSetDevice (d : Device) (o : Order) (recovery : Recovery) (source : Option (Fin 16)) : Device :=
  { d with window := setDeviceWindow o, recovery := recovery, jamSource := source }

section

variable {s : State} {o : Order} {i : Fin 48} {recovery : Recovery} {source : Option (Fin 16)}

theorem setDeviceOrder_badSlot (h : 48 ≤ (o.p 0).toNat) : setDeviceOrder o s = s.report .refusedRange := by
  simp only [setDeviceOrder, slotOf_eq_none h]

theorem setDeviceOrder_outOfRange (hi : (o.p 0).toNat = i.val) (h : SetDeviceOutOfRange o) :
    setDeviceOrder o s = s.rosterReport i .refusedRange := by
  simp only [setDeviceOrder, slotOf_eq_some hi, setDeviceFields_outOfRange h]

/-- With the operands in range, the checks that remain are those against the slot's record. -/
theorem setDeviceOrder_inRange (hi : (o.p 0).toNat = i.val) (h : ¬SetDeviceOutOfRange o)
    (hrecovery : recoveryOfCode (bits (o.p 3) 3 2) = some recovery)
    (hsource : optChan (bit (o.p 3) 9) (bits (o.p 3) 31 24) = some source) :
    setDeviceOrder o s =
      if (s.slot i).state = .empty then s.rosterReport i .refusedState
      else if (s.slot i).cls = .suite ∧ bits (o.p 3) 3 2 = 1 then s.rosterReport i .refusedClass
      else
        (s.setSlot i (((s.slot i).withSetDevice o recovery source).setDelay (bits (o.p 1) 15 0))).rosterReport i
          .done := by
  simp only [setDeviceOrder, slotOf_eq_some hi, setDeviceFields_inRange h hrecovery hsource,
    recoveryOfCode_eq_jam_iff hrecovery, Device.withSetDevice]

theorem setDeviceOrder_refusedState (hi : (o.p 0).toNat = i.val) (h : ¬SetDeviceOutOfRange o)
    (hempty : (s.slot i).state = .empty) : setDeviceOrder o s = s.rosterReport i .refusedState := by
  obtain ⟨_, _, hrecovery, hsource⟩ := exists_recovery_source h
  rw [setDeviceOrder_inRange hi h hrecovery hsource, if_pos hempty]

theorem setDeviceOrder_refusedClass (hi : (o.p 0).toNat = i.val) (h : ¬SetDeviceOutOfRange o)
    (hoccupied : (s.slot i).state ≠ .empty) (hsuite : (s.slot i).cls = .suite) (hjam : bits (o.p 3) 3 2 = 1) :
    setDeviceOrder o s = s.rosterReport i .refusedClass := by
  obtain ⟨_, _, hrecovery, hsource⟩ := exists_recovery_source h
  rw [setDeviceOrder_inRange hi h hrecovery hsource, if_neg hoccupied, if_pos ⟨hsuite, hjam⟩]

/-- An order that passes stores its fields and then its path delay by the record's state. -/
theorem setDeviceOrder_accepted (hi : (o.p 0).toNat = i.val) (h : ¬SetDeviceOutOfRange o)
    (hoccupied : (s.slot i).state ≠ .empty) (hclass : ¬((s.slot i).cls = .suite ∧ bits (o.p 3) 3 2 = 1))
    (hrecovery : recoveryOfCode (bits (o.p 3) 3 2) = some recovery)
    (hsource : optChan (bit (o.p 3) 9) (bits (o.p 3) 31 24) = some source) {x : Device}
    (hx : ((s.slot i).withSetDevice o recovery source).setDelay (bits (o.p 1) 15 0) = x) :
    setDeviceOrder o s = (s.setSlot i { x with lastResult := some .done }).report .done := by
  rw [setDeviceOrder_inRange hi h hrecovery hsource, if_neg hoccupied, if_neg hclass, hx, State.setSlot_rosterReport]

end

/-! ## A pending path delay at a jam's end (R109, R128) -/

theorem State.applyPendingDelay_some {j : JamContext} {delay : Nat} (s : State) (i : Fin 48)
    (h : j.pendingDelay = some delay) : s.applyPendingDelay i j = s.setSlot i ((s.slot i).changeDelay delay) := by
  simp only [State.applyPendingDelay, h]

/-- A jam's end up to step 5: the record without its context, the JAM OUTCOME record, and an entry into DRIFTING or
ABSENT reported. -/
def State.jamRecorded (s : State) (i : Fin 48) (j : JamContext) (o : JamOutcome) : State :=
  let d := (s.slot i).jamEnded j o
  (((s.setSlot i { d with jam := none }).urgentRemove i).sysEvent
    (.jamOutcome i d.linkAddr o j.origin j.sets j.lastLabel d.state)).jamStateRecords i j o

theorem State.jamEnd_some {s : State} {i : Fin 48} {j : JamContext} (o : JamOutcome) (h : (s.slot i).jam = some j) :
    s.jamEnd i o = ((s.jamRecorded i j o).applyPendingDelay i j).deliverOutcome i j o := by
  simp only [State.jamEnd, h, State.jamRecorded]

theorem State.emptySlot_jam (s : State) (i : Fin 48) : ((s.emptySlot i).slot i).jam = none := by
  rw [State.emptySlot, State.setSlot_slot_same]
  rfl

/-- SET_DEVICE with its order in hand and no EXCHANGE running on is the roster's taking of it. -/
theorem exec_setDevice_taken {s : State} {o : Order} (hstep : s.oe.step = .taken o) (hk : o.kind = .setDevice)
    (hexch : s.exch = none) : exec .setDevice s = .next (setDeviceOrder o s) :=
  congrArg Host.Outcome.next (s.handRosterOrder_taken _ _ o hstep hk hexch)

/-- Settles O42, check by check; an order that passes stores its path delay by the state of the record. -/
theorem setDevice : Obligations.SetDevice := by
  refine ⟨fun s o hstep hk hexch hslot => ?_, fun s o i hstep hk hexch hi => ?_,
    fun s i j delay hpending => s.applyPendingDelay_some i hpending,
    fun d delay => ⟨Device.changeDelay_present, Device.changeDelay_absent⟩,
    fun s i j o hjam => ⟨s.jamRecorded i j o, State.jamEnd_some o hjam, rfl⟩, State.emptySlot_jam⟩
  · rw [exec_setDevice_taken hstep hk hexch, setDeviceOrder_badSlot hslot]
    rfl
  · rw [exec_setDevice_taken hstep hk hexch]
    refine ⟨fun hbad => ?_, fun hok hempty => ?_, fun hok hoccupied hsuite hjam => ?_,
      fun recovery source hok hoccupied hclass hrecovery hsource => ?_⟩
    · rw [setDeviceOrder_outOfRange hi hbad]
      rfl
    · rw [setDeviceOrder_refusedState hi hok hempty]
      rfl
    · rw [setDeviceOrder_refusedClass hi hok hoccupied hsuite hjam]
      rfl
    · have accepted {x : Device} := setDeviceOrder_accepted (x := x) hi hok hoccupied hclass hrecovery hsource
      refine ⟨fun hsame hstate => ?_, fun hother hstate => ?_, fun hother hstate => ?_, fun j hstate hjam => ?_⟩
      · rw [accepted (Device.setDelay_same hstate hsame)]
        rfl
      · rw [accepted (Device.setDelay_present hstate hother)]
        rfl
      · rw [accepted (Device.setDelay_absent hstate hother)]
        rfl
      · rw [accepted (Device.setDelay_jamming hstate hjam)]
        rfl

end Sys2Proof.Machine
end

section
/-! JAM: the checks of R120 in order, and the jam that an accepted order starts (R119, R121). -/

namespace Sys2Proof.Machine

/-! ## The operands of R120 -/

/-- A parameter of a JAM, its slot apart, is out of range. -/
def JamOutOfRange (o : Order) : Prop := 3 < (o.p 2).toNat ∨ (bit (o.p 1) 0 = true ∧ 16 ≤ bits (o.p 1) 15 8)

/-- The source channel that a JAM gives, where it gives one. -/
def givenSource (o : Order) : Option (Fin 16) := if bit (o.p 1) 0 then chanOf (bits (o.p 1) 15 8) else none

theorem givenSource_absent {o : Order} (hgiven : bit (o.p 1) 0 = false) : givenSource o = none :=
  if_neg (by simp [hgiven])

/-- The source of a JAM is the channel it gives, otherwise the bound channel. -/
theorem givenSource_or {o : Order} {bound : Option (Fin 16)} {c : Fin 16}
    (h : (bit (o.p 1) 0 = true ∧ bits (o.p 1) 15 8 = c.val) ∨ (bit (o.p 1) 0 = false ∧ bound = some c)) :
    (givenSource o).or bound = some c := by
  rcases h with ⟨hgiven, hc⟩ | ⟨hgiven, rfl⟩
  · rw [givenSource, if_pos hgiven, chanOf_eq_some hc, Option.some_or]
  · rw [givenSource_absent hgiven, Option.none_or]

theorem optChan_eq_givenSource {o : Order} (h : ¬(bit (o.p 1) 0 = true ∧ 16 ≤ bits (o.p 1) 15 8)) :
    optChan (bit (o.p 1) 0) (bits (o.p 1) 15 8) = some (givenSource o) := by
  rw [optChan, givenSource]
  split
  next hgiven =>
    have hlt : bits (o.p 1) 15 8 < 16 := not_le.mp fun hge => h ⟨hgiven, hge⟩
    rw [chanOf_eq_some (c := ⟨_, hlt⟩) rfl, Option.map_some]
  next => rfl

theorem jamFields_outOfRange {o : Order} (h : JamOutOfRange o) : jamFields o = none := by
  unfold jamFields
  rcases h with hretries | ⟨hgiven, hsource⟩
  · cases optChan (bit (o.p 1) 0) (bits (o.p 1) 15 8) with
    | none => rfl
    | some source => exact if_neg hretries.not_ge
  · rw [hgiven, optChan_eq_none hsource]

theorem jamFields_inRange {o : Order} (h : ¬JamOutOfRange o) :
    jamFields o = some (givenSource o, (o.p 2).toNat) := by
  obtain ⟨hretries, hsource⟩ := not_or.mp h
  simp only [jamFields, optChan_eq_givenSource hsource, if_pos (not_lt.mp hretries)]

/-! ## The checks of R120 -/

theorem usableSource_iff {ch : Channel} {d : Device} :
    usableSource ch d = true ↔ ch.state = .running ∧ ch.kind = .picture ∧ ch.cfg.fmt = d.fmt := by
  simp [usableSource, and_assoc]

/-- The result of the first check of R120 that the record itself fails; none for a record that may be jammed. -/
def Device.jamRefusal (d : Device) : Option Result :=
  if d.state = .empty then some .refusedState
  else if d.state = .jamming then some .refusedBusy
  else if d.state = .absent then some .refusedAbsent
  else if d.protectedFlag then some .refusedProtected
  else if d.cls = .suite then some .refusedClass
  else none

section

variable {d : Device}

theorem Device.jamRefusal_empty (h : d.state = .empty) : d.jamRefusal = some .refusedState := if_pos h

theorem Device.jamRefusal_jamming (h : d.state = .jamming) : d.jamRefusal = some .refusedBusy := by
  simp [Device.jamRefusal, h]

theorem Device.jamRefusal_absent (h : d.state = .absent) : d.jamRefusal = some .refusedAbsent := by
  simp [Device.jamRefusal, h]

/-- Past the checks of the state, those of protection and class remain. -/
theorem Device.jamRefusal_of_state (hempty : d.state ≠ .empty) (hjamming : d.state ≠ .jamming)
    (habsent : d.state ≠ .absent) :
    d.jamRefusal =
      if d.protectedFlag then some .refusedProtected else if d.cls = .suite then some .refusedClass else none := by
  rw [Device.jamRefusal, if_neg hempty, if_neg hjamming, if_neg habsent]

theorem Device.jamRefusal_protected (hempty : d.state ≠ .empty) (hjamming : d.state ≠ .jamming)
    (habsent : d.state ≠ .absent) (h : d.protectedFlag = true) : d.jamRefusal = some .refusedProtected := by
  rw [Device.jamRefusal_of_state hempty hjamming habsent, if_pos h]

theorem Device.jamRefusal_suite (hempty : d.state ≠ .empty) (hjamming : d.state ≠ .jamming)
    (habsent : d.state ≠ .absent) (hprotected : d.protectedFlag = false) (h : d.cls = .suite) :
    d.jamRefusal = some .refusedClass := by
  rw [Device.jamRefusal_of_state hempty hjamming habsent, if_neg (by simp [hprotected]), if_pos h]

theorem Device.jamRefusal_eligible
    (h : d.state ≠ .empty ∧ d.state ≠ .jamming ∧ d.state ≠ .absent ∧ d.protectedFlag = false ∧ d.cls ≠ .suite) :
    d.jamRefusal = none := by
  obtain ⟨hempty, hjamming, habsent, hprotected, hclass⟩ := h
  rw [Device.jamRefusal_of_state hempty hjamming habsent, if_neg (by simp [hprotected]), if_neg hclass]

end

/-- The checks of the source, which come last: some channel, and one that is usable for the record. -/
def State.jamSourceCheck (s : State) (d : Device) (source : Option (Fin 16)) (retries : Nat) :
    Except Result (Fin 16 × Nat) :=
  match source with
  | none => .error .refusedRange
  | some c => if usableSource (s.chan c) d then .ok (c, retries) else .error .refusedMismatch

section

variable {s : State} {o : Order} {i : Fin 48} {c : Fin 16} {code : Result}

theorem State.jamCheck_outOfRange (h : JamOutOfRange o) : s.jamCheck i o = .error .refusedRange := by
  simp only [State.jamCheck, jamFields_outOfRange h]

/-- With the operands in range, the record's own checks come first and those of the source follow. -/
theorem State.jamCheck_inRange (h : ¬JamOutOfRange o) :
    s.jamCheck i o =
      (s.slot i).jamRefusal.elim
        (s.jamSourceCheck (s.slot i) ((givenSource o).or (s.slot i).boundTo) (o.p 2).toNat) .error := by
  simp only [State.jamCheck, jamFields_inRange h, Device.jamRefusal]
  split_ifs
  case neg => cases givenSource o <;> rfl
  all_goals rfl

theorem State.jamCheck_refused (h : ¬JamOutOfRange o) (hrefusal : (s.slot i).jamRefusal = some code) :
    s.jamCheck i o = .error code := by
  rw [State.jamCheck_inRange h, hrefusal, Option.elim_some]

theorem State.jamCheck_noSource (h : ¬JamOutOfRange o) (hrefusal : (s.slot i).jamRefusal = none)
    (hsource : (givenSource o).or (s.slot i).boundTo = none) : s.jamCheck i o = .error .refusedRange := by
  rw [State.jamCheck_inRange h, hrefusal, hsource]
  rfl

theorem State.jamCheck_source (h : ¬JamOutOfRange o) (hrefusal : (s.slot i).jamRefusal = none)
    (hsource : (givenSource o).or (s.slot i).boundTo = some c) :
    s.jamCheck i o =
      if usableSource (s.chan c) (s.slot i) then .ok (c, (o.p 2).toNat) else .error .refusedMismatch := by
  rw [State.jamCheck_inRange h, hrefusal, hsource]
  rfl

end

/-! ## The jam that an accepted order starts (R119, R121) -/

/-- Membership of the urgent queue does not hang on a record. -/
theorem State.urgentInsert_setSlot (s : State) (i : Fin 48) (x : Device) :
    (s.urgentInsert i).setSlot i x = (s.setSlot i x).urgentInsert i := by
  have hqueue : ((s.setSlot i x).lc.urgent.contains i || (s.setSlot i x).inUrgentService i) =
      (s.lc.urgent.contains i || s.inUrgentService i) := rfl
  rw [State.urgentInsert, State.urgentInsert, hqueue]
  split <;> rfl

theorem State.urgentInsert_slot (s : State) (i j : Fin 48) : (s.urgentInsert i).slot j = s.slot j := by
  simp [State.slot]

/-- The state with the jam of an accepted order begun and `code` as the slot's last result code. -/
def State.jamAccepted (s : State) (i : Fin 48) (o : Order) (c : Fin 16) (code : Option Result) : State :=
  State.urgentInsert
    (s.setSlot i
      { s.slot i with
        state := .jamming, lastResult := code
        jam := some (.start c .order (s.slot i).state (o.p 2).toNat o.waitFlag) }) i

theorem State.startJam_order (s : State) (i : Fin 48) (o : Order) (c : Fin 16) :
    (s.setLastResult i none).startJam i c .order (o.p 2).toNat o.waitFlag = s.jamAccepted i o c none := by
  rw [State.setLastResult, State.startJam, State.setSlot_slot_same, State.setSlot_setSlot]
  rfl

theorem State.jamAccepted_rosterReport (s : State) (i : Fin 48) (o : Order) (c : Fin 16) (code : Result) :
    (s.jamAccepted i o c none).rosterReport i code = (s.jamAccepted i o c (some code)).report code := by
  rw [State.rosterReport, State.setLastResult, State.jamAccepted, State.urgentInsert_setSlot,
    State.urgentInsert_slot, State.setSlot_slot_same, State.setSlot_setSlot]
  rfl

/-! ## The cases of R120 and R121 -/

section

variable {s : State} {o : Order} {i : Fin 48} {c : Fin 16} {code : Result}

theorem jamOrder_badSlot (h : 48 ≤ (o.p 0).toNat) : jamOrder o s = s.report .refusedRange := by
  simp only [jamOrder, slotOf_eq_none h]

theorem jamOrder_refused (hi : (o.p 0).toNat = i.val) (h : s.jamCheck i o = .error code) :
    jamOrder o s = s.rosterReport i code := by
  simp only [jamOrder, slotOf_eq_some hi, h]

theorem jamOrder_accepted (hi : (o.p 0).toNat = i.val) (h : s.jamCheck i o = .ok (c, (o.p 2).toNat))
    (hwait : o.waitFlag = false) : jamOrder o s = (s.jamAccepted i o c (some .accepted)).report .accepted := by
  simp only [jamOrder, slotOf_eq_some hi, h, State.startJam_order, State.jamAccepted_rosterReport]
  exact if_neg (by simp [hwait])

theorem jamOrder_kept (hi : (o.p 0).toNat = i.val) (h : s.jamCheck i o = .ok (c, (o.p 2).toNat))
    (hwait : o.waitFlag = true) : jamOrder o s = (s.jamAccepted i o c none).keep (.jam i) := by
  simp only [jamOrder, slotOf_eq_some hi, h, State.startJam_order]
  exact if_pos hwait

end

/-- JAM with its order in hand and no EXCHANGE running on is the roster's taking of it. -/
theorem exec_jam_taken {s : State} {o : Order} (hstep : s.oe.step = .taken o) (hk : o.kind = .jam)
    (hexch : s.exch = none) : exec .jam s = .next (jamOrder o s) :=
  congrArg Host.Outcome.next (s.handRosterOrder_taken _ _ o hstep hk hexch)

theorem exec_jam_refused {s : State} {o : Order} {i : Fin 48} (hstep : s.oe.step = .taken o) (hk : o.kind = .jam)
    (hexch : s.exch = none) (hi : (o.p 0).toNat = i.val) {code : Result} (h : s.jamCheck i o = .error code) :
    exec .jam s = .next (s.rosterReport i code) := by
  rw [exec_jam_taken hstep hk hexch, jamOrder_refused hi h]

/-- Settles O44, check by check; an order that passes them all starts its jam and goes by its wait flag. -/
theorem jamOrder_holds : Obligations.JamOrder := by
  refine ⟨fun s o hstep hk hexch hslot => ?_, fun s o i hstep hk hexch hi => ?_⟩
  · rw [exec_jam_taken hstep hk hexch, jamOrder_badSlot hslot]
    rfl
  · have refused {code : Result} := exec_jam_refused (code := code) hstep hk hexch hi
    refine ⟨fun hbad => refused (State.jamCheck_outOfRange hbad),
      fun hok hempty => refused (State.jamCheck_refused hok (Device.jamRefusal_empty hempty)),
      fun hok hjamming => refused (State.jamCheck_refused hok (Device.jamRefusal_jamming hjamming)),
      fun hok habsent => refused (State.jamCheck_refused hok (Device.jamRefusal_absent habsent)),
      fun hok hempty hjamming habsent hprotected => ?_, fun hok hempty hjamming habsent hprotected hsuite => ?_,
      fun ⟨hok, heligible⟩ hgiven hbound => ?_, fun c ⟨hok, heligible⟩ hsource => ?_⟩
    · exact refused (State.jamCheck_refused hok (Device.jamRefusal_protected hempty hjamming habsent hprotected))
    · exact refused (State.jamCheck_refused hok (Device.jamRefusal_suite hempty hjamming habsent hprotected hsuite))
    · refine refused (State.jamCheck_noSource hok (Device.jamRefusal_eligible heligible) ?_)
      rw [givenSource_absent hgiven, hbound, Option.none_or]
    · have hcheck := State.jamCheck_source hok (Device.jamRefusal_eligible heligible) (givenSource_or hsource)
      refine ⟨fun hunusable => refused ?_, fun hrunning hpicture hfmt => ?_⟩
      · rw [hcheck, if_neg (by rw [usableSource_iff]; tauto)]
      · rw [if_pos (usableSource_iff.mpr ⟨hrunning, hpicture, hfmt⟩)] at hcheck
        rw [exec_jam_taken hstep hk hexch]
        refine ⟨fun hwait => ?_, fun hwait => ?_⟩
        · rw [jamOrder_accepted hi hcheck hwait]
          rfl
        · rw [jamOrder_kept hi hcheck hwait]
          rfl

end Sys2Proof.Machine
end

section
/-! SET ACTION and SET TAKE: the checks of R136 and R138, the entry or the counter that an order which passes replaces,
the take steps of R137, and the class mask's test of R140. -/

namespace Sys2Proof.Machine

/-! ## The operands of a SET ACTION (R136, R190) -/

theorem chanOf_eq_some_iff {n : Nat} {c : Fin 16} : chanOf n = some c ↔ n = c.val := by
  refine ⟨fun h => ?_, chanOf_eq_some⟩
  unfold chanOf at h
  split at h <;> cases h
  rfl

theorem mapM_chanOf_eq_some_iff {ns : List Nat} {cs : List (Fin 16)} :
    ns.mapM chanOf = some cs ↔ cs.map Fin.val = ns := by
  induction ns generalizing cs with
  | nil => cases cs <;> simp
  | cons n ns ih =>
    cases cs with
    | nil => simp [Option.bind_eq_some_iff]
    | cons c cs => simp [Option.bind_eq_some_iff, chanOf_eq_some_iff, ih, eq_comm (a := n)]

theorem distinctChannels_eq_some_iff {ns : List Nat} {cs : List (Fin 16)} :
    distinctChannels ns = some cs ↔ ns.Nodup ∧ cs.map Fin.val = ns := by
  by_cases h : ns.Nodup <;> simp [distinctChannels, h, mapM_chanOf_eq_some_iff]

theorem distinctChannels_outOfRange {ns : List Nat} (h : (∃ n ∈ ns, 15 < n) ∨ ¬ns.Nodup) :
    distinctChannels ns = none := by
  refine Option.eq_none_iff_forall_ne_some.mpr fun cs hcs => ?_
  obtain ⟨hnodup, rfl⟩ := distinctChannels_eq_some_iff.mp hcs
  rcases h with ⟨n, hn, hlt⟩ | hdup
  · obtain ⟨c, -, rfl⟩ := List.mem_map.mp hn
    omega
  · exact hdup hnodup

theorem exists_distinctChannels {ns : List Nat} (h : ¬((∃ n ∈ ns, 15 < n) ∨ ¬ns.Nodup)) :
    ∃ cs, distinctChannels ns = some cs := by
  push Not at h
  obtain ⟨hrange, hnodup⟩ := h
  lift ns to List (Fin 16) using fun n hn => Nat.lt_succ_of_le (hrange n hn)
  exact ⟨ns, distinctChannels_eq_some_iff.mpr ⟨hnodup, rfl⟩⟩

theorem takeStepOfCode_eq_some_iff {c : Nat} {step : TakeStep} :
    takeStepOfCode c = some step ↔
      (c = 0 ∧ step = .none) ∨ (c = 1 ∧ step = .nextTake) ∨ (c = 2 ∧ step = .nextSlate) := by
  unfold takeStepOfCode
  split <;> simp_all [eq_comm]

/-- A take step field is in range unless its two bits are 3. -/
theorem exists_takeStepOfCode {w : Word} (h : bits w 5 4 ≠ 3) : ∃ step, takeStepOfCode (bits w 5 4) = some step := by
  have hlt : bits w 5 4 < 4 := Nat.mod_lt _ (by decide)
  generalize bits w 5 4 = c at h hlt ⊢
  interval_cases c
  · exact ⟨_, rfl⟩
  · exact ⟨_, rfl⟩
  · exact ⟨_, rfl⟩
  · exact absurd rfl h

/-! ## The checks of R136 -/

/-- The channel numbers that a SET ACTION lists. -/
def listedChannels (o : Order) : List Nat := channelBytes (o.p 3) (o.p 2).toNat

/-- A check of R136 fails. -/
def ActionOutOfRange (o : Order) : Prop :=
  15 < (o.p 0).toNat ∨ bits (o.p 1) 5 4 = 3 ∨ 4 < (o.p 2).toNat ∨ (∃ n ∈ listedChannels o, 15 < n) ∨
    ¬(listedChannels o).Nodup

/-- The action entry of a SET ACTION whose take step field and list of channels name these. -/
def orderedAction (o : Order) (step : TakeStep) (watch : List (Fin 16)) : Action :=
  ⟨bit (o.p 1) 0, BitVec.ofNat 4 (bits (o.p 1) 11 8), step, watch, bit (o.p 1) 1⟩

theorem actionOf_inRange {o : Order} {kind : Fin 16} {step : TakeStep} {watch : List (Fin 16)}
    (hkind : (o.p 0).toNat = kind.val) (hstep : takeStepOfCode (bits (o.p 1) 5 4) = some step)
    (hcount : (o.p 2).toNat ≤ 4) (hwatch : distinctChannels (listedChannels o) = some watch) :
    actionOf o = some (kind, orderedAction o step watch) := by
  rw [listedChannels] at hwatch
  simp only [actionOf, chanOf_eq_some hkind, hstep, if_pos hcount, hwatch, orderedAction]

/-- An entry comes of operands that are all in range, so none does where a check of R136 fails. -/
theorem actionOf_outOfRange {o : Order} (h : ActionOutOfRange o) : actionOf o = none := by
  unfold actionOf
  rcases h with hkind | hstep | hcount | hlisted
  · rw [chanOf_eq_none hkind]
  · rw [hstep]
    cases chanOf (o.p 0).toNat <;> rfl
  · split
    · exact if_neg hcount.not_ge
    · rfl
  · rw [listedChannels] at hlisted
    rw [distinctChannels_outOfRange hlisted]
    split
    · exact ite_self none
    · rfl

/-- Where every check of R136 passes, the take step field and the list name a step and channels. -/
theorem exists_step_watch {o : Order} (h : ¬ActionOutOfRange o) :
    (o.p 2).toNat ≤ 4 ∧ ∃ step watch, takeStepOfCode (bits (o.p 1) 5 4) = some step ∧
      distinctChannels (listedChannels o) = some watch := by
  obtain ⟨-, hrest⟩ := not_or.mp h
  obtain ⟨hcode, hrest⟩ := not_or.mp hrest
  obtain ⟨hcount, hlisted⟩ := not_or.mp hrest
  obtain ⟨step, hstep⟩ := exists_takeStepOfCode hcode
  obtain ⟨watch, hwatch⟩ := exists_distinctChannels hlisted
  exact ⟨not_lt.mp hcount, step, watch, hstep, hwatch⟩

/-! ## The cases of R136 and R138 -/

theorem setActionOrder_outOfRange (s : State) {o : Order} (h : ActionOutOfRange o) :
    setActionOrder o s = s.report .refusedRange := by
  simp only [setActionOrder, actionOf_outOfRange h]

theorem setActionOrder_accepted (s : State) {o : Order} {kind : Fin 16} {a : Action} (h : actionOf o = some (kind, a)) :
    setActionOrder o s =
      State.report { s with lu := { s.lu with actions := s.lu.actions.set kind.val a kind.isLt } } .done := by
  simp only [setActionOrder, h]

theorem setTakeOrder_outOfRange (s : State) {o : Order} (h : 9999 < (o.p 0).toNat ∨ 999 < (o.p 1).toNat) :
    setTakeOrder o s = s.report .refusedRange :=
  if_neg (by omega)

theorem setTakeOrder_accepted (s : State) {o : Order} (hslate : (o.p 0).toNat ≤ 9999) (htake : (o.p 1).toNat ≤ 999) :
    setTakeOrder o s =
      State.report { s with lu := { s.lu with slate := (o.p 0).toNat, take := (o.p 1).toNat } } .done :=
  if_pos ⟨hslate, htake⟩

/-- SET_ACTION with its order in hand is the log unit's taking of it. -/
theorem exec_setAction_taken {s : State} {o : Order} (hstep : s.oe.step = .taken o) (hk : o.kind = .setAction) :
    exec .setAction s = .next (setActionOrder o s) :=
  congrArg Host.Outcome.next (s.handOrder_taken _ _ o hstep hk)

/-- SET_TAKE with its order in hand is the log unit's taking of it. -/
theorem exec_setTake_taken {s : State} {o : Order} (hstep : s.oe.step = .taken o) (hk : o.kind = .setTake) :
    exec .setTake s = .next (setTakeOrder o s) :=
  congrArg Host.Outcome.next (s.handOrder_taken _ _ o hstep hk)

/-! ## The take steps (R137) -/

theorem LogUnit.stepTake_none (lu : LogUnit) : lu.stepTake .none = lu := rfl

theorem LogUnit.stepTake_nextTake {lu : LogUnit} (h : lu.take < 999) :
    lu.stepTake .nextTake = { lu with take := lu.take + 1 } := by
  simp only [LogUnit.stepTake, if_pos h]

theorem LogUnit.stepTake_nextTake_last {lu : LogUnit} (h : lu.take = 999) : lu.stepTake .nextTake = lu := by
  simp only [LogUnit.stepTake, h, lt_irrefl, if_false]
  rw [← h]

theorem LogUnit.stepTake_nextSlate {lu : LogUnit} (h : lu.slate < 9999) :
    lu.stepTake .nextSlate = { lu with slate := lu.slate + 1, take := 1 } := by
  simp only [LogUnit.stepTake, if_pos h]

theorem LogUnit.stepTake_nextSlate_last {lu : LogUnit} (h : lu.slate = 9999) :
    lu.stepTake .nextSlate = { lu with take := 1 } := by
  simp only [LogUnit.stepTake, h, lt_irrefl, if_false]

/-! ## The tests of R140 -/

theorem State.markPasses_slot (s : State) (kind : Fin 16) (i : Fin 48) (label sub : Nat) (adjusted : Bool) :
    s.markPasses kind (.slot i label sub adjusted) =
      ((s.lu.actions.get kind).enabled && (s.lu.actions.get kind).classMask.getLsbD (s.slot i).cls.code) :=
  rfl

theorem State.markPasses_host (s : State) (kind : Fin 16) (t : Nat) :
    s.markPasses kind (.host t) = (s.lu.actions.get kind).enabled :=
  Bool.and_true _

/-- Settles O49: the checks and what an accepted order replaces, for each of the two orders, then the take steps and
the empty class mask, each by its own lemma. -/
theorem actionAndTake : Obligations.ActionAndTake := by
  refine ⟨fun s o hstep hk => ⟨fun hfailed => ?_, fun kind hpassed hkind => ?_⟩,
    fun s o hstep hk => ⟨fun hfailed => ?_, fun hslate htake => ?_⟩, fun lu hzero => ?_,
    fun s kind henabled hmask => ⟨fun i label sub adjusted => ?_, fun t => ?_⟩,
    fun lu => ⟨lu.stepTake_none, LogUnit.stepTake_nextTake, LogUnit.stepTake_nextTake_last,
      LogUnit.stepTake_nextSlate, LogUnit.stepTake_nextSlate_last⟩⟩
  · rw [exec_setAction_taken hstep hk, setActionOrder_outOfRange s hfailed]
    rfl
  · obtain ⟨hcount, step, watch, hcode, hwatch⟩ := exists_step_watch hpassed
    obtain ⟨-, hlisted⟩ := distinctChannels_eq_some_iff.mp hwatch
    refine ⟨watch, step, hlisted, takeStepOfCode_eq_some_iff.mp hcode, ?_⟩
    rw [exec_setAction_taken hstep hk, setActionOrder_accepted s (actionOf_inRange hkind hcode hcount hwatch)]
    rfl
  · rw [exec_setTake_taken hstep hk, setTakeOrder_outOfRange s hfailed]
    rfl
  · rw [exec_setTake_taken hstep hk, setTakeOrder_accepted s hslate htake]
    rfl
  · rw [LogUnit.stepTake_nextTake (by omega)]
    exact ⟨congrArg (· + 1) hzero, rfl⟩
  · rw [State.markPasses_slot, hmask, BitVec.ofNat_eq_ofNat, BitVec.getLsbD_zero, Bool.and_false]
  · rw [State.markPasses_host, henabled]

end Sys2Proof.Machine
end

section
/-! The reference grid (R3): its points are the edges of a segment, from which the nearest points of an instant follow
(R7, R53). -/

namespace Sys2Proof.Machine

/-- Grid point k. -/
def TimeBase.gridPoint (tb : TimeBase) (k : Nat) : Nat := tb.phi + k * tb.period.n / tb.period.d

theorem TimeBase.gridPoint_eq_instant (tb : TimeBase) (k : Nat) :
    (tb.gridPoint k : Int) = tb.gridSegment.instant k := by
  simp [TimeBase.gridPoint, TimeBase.gridSegment, Segment.instant]

theorem TimeBase.phi_le_gridPoint (tb : TimeBase) (k : Nat) : tb.phi ≤ tb.gridPoint k := Nat.le_add_right _ _

theorem TimeBase.gridPoint_zero (tb : TimeBase) : tb.gridPoint 0 = tb.phi := by simp [TimeBase.gridPoint]

theorem TimeBase.gridPoint_mono (tb : TimeBase) {j k : Nat} (h : j ≤ k) : tb.gridPoint j ≤ tb.gridPoint k :=
  Nat.add_le_add_left (Nat.div_le_div_right (Nat.mul_le_mul_right _ h)) _

/-- The index of the last grid point at or before an instant that is not before the phase offset. -/
def TimeBase.gridIndex (tb : TimeBase) (t : Nat) : Nat := ((t - tb.phi + 1) * tb.period.d - 1) / tb.period.n

theorem TimeBase.gridAt_eq (tb : TimeBase) (t : Nat) : tb.gridAt t = tb.gridPoint (tb.gridIndex t) := rfl

theorem TimeBase.gridAfter_of_lt {tb : TimeBase} {t : Nat} (h : t < tb.phi) : tb.gridAfter t = tb.phi := if_pos h

theorem TimeBase.gridAfter_of_le {tb : TimeBase} {t : Nat} (h : tb.phi ≤ t) :
    tb.gridAfter t = tb.gridPoint (tb.gridIndex t + 1) :=
  if_neg h.not_gt

/-- From the phase offset on, the grid points at or before an instant are those up to its index. -/
theorem TimeBase.gridPoint_le_iff {tb : TimeBase} {t : Nat} (h : tb.period.legal = true) (ht : tb.phi ≤ t) (k : Nat) :
    tb.gridPoint k ≤ t ↔ k ≤ tb.gridIndex t := by
  have hd : 1 ≤ (t - tb.phi + 1) * tb.period.d :=
    Nat.mul_pos (Nat.succ_pos _) (Int.natCast_pos.mp (Rate.d_pos h))
  have hindex : tb.gridSegment.edgeAt t = tb.gridIndex t := by
    simp only [TimeBase.gridSegment, Segment.edgeAt, TimeBase.gridIndex]
    push_cast [Nat.cast_sub hd, Nat.cast_sub ht]
    simp
  rw [← Int.ofNat_le, tb.gridPoint_eq_instant, Segment.instant_le_iff h, hindex, Int.ofNat_le]

theorem TimeBase.gridAfter_mem (tb : TimeBase) (t : Nat) : ∃ k, tb.gridAfter t = tb.gridPoint k := by
  rcases lt_or_ge t tb.phi with ht | ht
  · exact ⟨0, (TimeBase.gridAfter_of_lt ht).trans tb.gridPoint_zero.symm⟩
  · exact ⟨_, TimeBase.gridAfter_of_le ht⟩

theorem TimeBase.gridAfter_le {tb : TimeBase} {t k : Nat} (h : tb.period.legal = true) (hk : t < tb.gridPoint k) :
    tb.gridAfter t ≤ tb.gridPoint k := by
  rcases lt_or_ge t tb.phi with ht | ht
  · rw [TimeBase.gridAfter_of_lt ht]
    exact tb.phi_le_gridPoint k
  · rw [TimeBase.gridAfter_of_le ht]
    exact tb.gridPoint_mono (not_le.mp (mt (TimeBase.gridPoint_le_iff h ht k).mpr hk.not_ge))

theorem TimeBase.gridAt_le {tb : TimeBase} {t : Nat} (h : tb.period.legal = true) (ht : tb.phi ≤ t) :
    tb.gridAt t ≤ t :=
  (TimeBase.gridPoint_le_iff h ht _).mpr le_rfl

/-- Two neighbouring grid points are a whole period apart, rounded up at most. -/
theorem TimeBase.gridAfter_le_gridAt {tb : TimeBase} {t : Nat} (h : tb.period.legal = true) (ht : tb.phi ≤ t) :
    tb.gridAfter t ≤ tb.gridAt t + tb.period.n / tb.period.d + 1 := by
  have hd : 0 < tb.period.d := Int.natCast_pos.mp (Rate.d_pos h)
  rw [TimeBase.gridAfter_of_le ht, TimeBase.gridAt_eq, TimeBase.gridPoint, TimeBase.gridPoint, Nat.succ_mul,
    Nat.add_div hd]
  split <;> omega

theorem TimeBase.gridFrom_of_lt {tb : TimeBase} {t : Nat} (ht : t < tb.phi) : tb.gridFrom t = tb.phi := by
  simp only [TimeBase.gridFrom, TimeBase.gridBefore?, ht, if_true]

theorem TimeBase.gridFrom_of_le {tb : TimeBase} {t : Nat} (ht : tb.phi ≤ t) :
    tb.gridFrom t = if tb.gridAt t = t then t else tb.gridAfter t := by
  simp only [TimeBase.gridFrom, TimeBase.gridBefore?, ht.not_gt, if_false]

theorem TimeBase.gridFrom_cases {tb : TimeBase} {t : Nat} :
    (t < tb.phi ∧ tb.gridFrom t = tb.phi) ∨ (tb.phi ≤ t ∧ tb.gridAt t = t ∧ tb.gridFrom t = t) ∨
      (tb.phi ≤ t ∧ tb.gridAt t ≠ t ∧ tb.gridFrom t = tb.gridAfter t) := by
  rcases lt_or_ge t tb.phi with ht | ht
  · exact .inl ⟨ht, TimeBase.gridFrom_of_lt ht⟩
  · rw [TimeBase.gridFrom_of_le ht]
    split
    next hat => exact .inr (.inl ⟨ht, hat, rfl⟩)
    next hat => exact .inr (.inr ⟨ht, hat, rfl⟩)

theorem TimeBase.le_gridFrom {tb : TimeBase} (h : tb.period.legal = true) (t : Nat) : t ≤ tb.gridFrom t := by
  rcases tb.gridFrom_cases (t := t) with ⟨ht, he⟩ | ⟨-, -, he⟩ | ⟨-, -, he⟩ <;> rw [he]
  · exact ht.le
  · exact (TimeBase.lt_gridAfter h t).le

theorem TimeBase.gridFrom_mem (tb : TimeBase) (t : Nat) : ∃ k, tb.gridFrom t = tb.gridPoint k := by
  rcases tb.gridFrom_cases (t := t) with ⟨-, he⟩ | ⟨-, hat, he⟩ | ⟨-, -, he⟩ <;> rw [he]
  · exact ⟨0, tb.gridPoint_zero.symm⟩
  · exact ⟨_, hat.symm⟩
  · exact tb.gridAfter_mem t

/-- A grid point is the grid point at its own instant. -/
theorem TimeBase.gridAt_gridPoint {tb : TimeBase} (h : tb.period.legal = true) (k : Nat) :
    tb.gridAt (tb.gridPoint k) = tb.gridPoint k :=
  le_antisymm (TimeBase.gridAt_le h (tb.phi_le_gridPoint k))
    (tb.gridPoint_mono ((TimeBase.gridPoint_le_iff h (tb.phi_le_gridPoint k) k).mp le_rfl))

theorem TimeBase.gridFrom_gridPoint {tb : TimeBase} (h : tb.period.legal = true) (k : Nat) :
    tb.gridFrom (tb.gridPoint k) = tb.gridPoint k := by
  rw [TimeBase.gridFrom_of_le (tb.phi_le_gridPoint k), if_pos (TimeBase.gridAt_gridPoint h k)]

theorem TimeBase.gridFrom_le {tb : TimeBase} {t k : Nat} (h : tb.period.legal = true) (hk : t ≤ tb.gridPoint k) :
    tb.gridFrom t ≤ tb.gridPoint k := by
  rcases hk.eq_or_lt with rfl | hk
  · rw [TimeBase.gridFrom_gridPoint h]
  · rcases tb.gridFrom_cases (t := t) with ⟨-, he⟩ | ⟨-, -, he⟩ | ⟨-, -, he⟩ <;> rw [he]
    · exact tb.phi_le_gridPoint k
    · exact hk.le
    · exact TimeBase.gridAfter_le h hk

/-- Settles O14. -/
theorem nextGridPoint : Obligations.NextGridPoint := by
  intro tb t h
  refine ⟨⟨TimeBase.lt_gridAfter h t, tb.gridAfter_mem t, fun k => TimeBase.gridAfter_le h⟩,
    fun ht => ⟨TimeBase.gridAt_le h ht, ⟨_, tb.gridAt_eq t⟩, fun k hk => ?_, TimeBase.gridAfter_le_gridAt h ht⟩,
    ⟨TimeBase.le_gridFrom h t, tb.gridFrom_mem t, fun k => TimeBase.gridFrom_le h⟩, fun k hk => ?_, rfl⟩
  · exact tb.gridPoint_mono ((TimeBase.gridPoint_le_iff h ht k).mp hk)
  · subst hk
    exact TimeBase.gridFrom_gridPoint h k

end Sys2Proof.Machine
end

section
/-! What a command other than RESET can do to the state, said once: each row of the table with what it has found when it
acts. Every invariant of the steps is then a case analysis of these effects. -/

namespace Sys2Proof.Machine

/-- `CommandEffect s c t`: `t` is a state that the command `c`, which is not RESET, can answer from `s`. -/
inductive CommandEffect (s : State) : Instr → State → Prop
  | same {c : Instr} : CommandEffect s c s
  | oscillatorTick : CommandEffect s .oscillatorTick { s with tb := s.tb.tick, lc := s.lc.tick }
  | referenceEdge : CommandEffect s .referenceEdge s.refEdge
  | referenceMiss (hdue : s.tb.missDue = true) : CommandEffect s .referenceMiss s.refMiss
  | timeLowRead :
    CommandEffect s .timeLowRead
      { s with readData := lowWord s.tb.st, tb := { s.tb with timeHigh := highWord s.tb.st } }
  | chainStart {c : Instr} (v : Word) (hidle : s.oe.chain = .idle) :
    CommandEffect s c (State.beginFetch { s with oe := { s.oe with chain := .running, head := v.toNat } } v.toNat)
  | returnToIdle {c : Instr} (hended : s.oe.chain = .done ∨ s.oe.chain = .stopped) :
    CommandEffect s c { s with oe := { s.oe with chain := .idle, head := 0 } }
  | abort {c : Instr} (hrun : s.oe.chain = .running) : CommandEffect s c s.abortChain
  | engineClear {c : Instr} (hin : ∀ a ∈ s.clearAreas, s.inWindow a 4 = true) : CommandEffect s c s.clearEngine
  | refusedHead {c : Instr} : CommandEffect s c s.refuseHead
  | attentionWrite (v : Word) :
    CommandEffect s (.attentionWrite v) { s with oe := { s.oe with causes := s.oe.causes &&& ~~~(v.setWidth 8) } }
  | attentionMaskWrite (v : Word) :
    CommandEffect s (.attentionMaskWrite v) { s with oe := { s.oe with mask := v.setWidth 8 } }
  | orderFetch (got : List Word) (hstep : s.oe.step = .fetching got) : CommandEffect s .orderFetch (s.fetched got)
  | terminationWritten (results : List (Nat × Word)) (code : Result) (detail : Nat)
      (hstep : s.oe.step = .terminating results code detail)
      (hin : ∀ p ∈ terminationWrites s.oe.block results code detail, s.inWindow p.1 4 = true) :
    CommandEffect s .terminationWritten (s.terminated (terminationWrites s.oe.block results code detail) code)
  | linkRead (code : Result) (hstep : s.oe.step = .linking code) : CommandEffect s .linkRead (s.linked code)
  | snapshotWritten (area : Nat) (image : List Word) (hstep : s.oe.step = .imaging area image)
      (hin : ∀ p ∈ wordsAt area image, s.inWindow p.1 4 = true) :
    CommandEffect s .snapshotWritten (s.imageWritten area image)
  | pass (o : Order) (hstep : s.oe.step = .taken o) (hk : o.kind = .pass) : CommandEffect s .pass (passOrder o s)
  | snapshot (o : Order) (hstep : s.oe.step = .taken o) (hk : o.kind = .snapshot) :
    CommandEffect s .snapshot (snapshotOrder o s)
  | setReference (o : Order) (hstep : s.oe.step = .taken o) (hk : o.kind = .setReference) :
    CommandEffect s .setReference (setReferenceOrder o s)
  | setChannel (o : Order) (hstep : s.oe.step = .taken o) (hk : o.kind = .setChannel) :
    CommandEffect s .setChannel (setChannelOrder o s)
  | startChannel (o : Order) (hstep : s.oe.step = .taken o) (hk : o.kind = .startChannel) :
    CommandEffect s .startChannel (startChannelOrder o s)
  | stopChannel (o : Order) (hstep : s.oe.step = .taken o) (hk : o.kind = .stopChannel) :
    CommandEffect s .stopChannel (stopChannelOrder o s)
  | setAction (o : Order) (hstep : s.oe.step = .taken o) (hk : o.kind = .setAction) :
    CommandEffect s .setAction (setActionOrder o s)
  | setTake (o : Order) (hstep : s.oe.step = .taken o) (hk : o.kind = .setTake) :
    CommandEffect s .setTake (setTakeOrder o s)
  | injectMark (o : Order) (hstep : s.oe.step = .taken o) (hk : o.kind = .injectMark) :
    CommandEffect s .injectMark (injectMarkOrder o s)
  | translate (o : Order) (hstep : s.oe.step = .taken o) (hk : o.kind = .translate) :
    CommandEffect s .translate (translateOrder o s)
  | givePages (o : Order) (hstep : s.oe.step = .taken o) (hk : o.kind = .givePages) :
    CommandEffect s .givePages (givePagesOrder o s)
  | flushLog (o : Order) (hstep : s.oe.step = .taken o) (hk : o.kind = .flushLog) :
    CommandEffect s .flushLog (flushLogOrder o s)
  | rosterOrder {c : Instr} (o : Order) (hstep : s.oe.step = .taken o) (hexch : s.exch = none) :
    CommandEffect s c (rosterOrder o s)
  | rosterHeld {c : Instr} (o : Order) (hstep : s.oe.step = .taken o) (hexch : s.exch.isSome = true) :
    CommandEffect s c { s with oe := { s.oe with step := .held o } }
  | channelEdge (c : Fin 16) (edge : Nat) (hrun : (s.chan c).state = .running) (hnext : (s.chan c).nextEdge = some edge)
      (hdue : edge ≤ s.tb.st) : CommandEffect s (.channelEdge c) (s.emitEdge c edge)
  | armedStart (c : Fin 16) (start : Nat) (harmed : (s.chan c).state = .armed)
      (hstart : (s.chan c).startSt = some start) (hdue : start ≤ s.tb.st) :
    CommandEffect s (.channelArmedStart c) (s.armedStart c start)
  | pulseEnd (c : Fin 16) : CommandEffect s (.pulseEnd c) (s.setChan c { s.chan c with pulse := none })
  | nextTurn : CommandEffect s .nextTurn s.takeTurn
  | setTurnEnd (turn : Turn) (hphase : s.lc.phase = .sendingSet) (hturn : s.lc.turn = some turn) :
    CommandEffect s .setTurnEnd (s.endTurn turn)
  | windowOpen : CommandEffect s .answerWindowOpen (s.send .window [])
  | answerStart : CommandEffect s .answerStart (s.send (.answering s.tb.st s.tb.gen) [])
  | answerEnd {c : Instr} (stamp : Nat) (gen : BitVec 16) (turn : Turn) (chars : List RxChar) (quiet : Bool)
      (hturn : s.lc.turn = some turn) :
    CommandEffect s c ((s.answerDelivery turn stamp gen chars quiet).endTurn turn)
  | windowClose (turn : Turn) (hturn : s.lc.turn = some turn) :
    CommandEffect s .answerWindowClose ((s.deliverMiss turn).endTurn turn)
  | exchangeRead (e : Exchange) (got : List Word) (hexch : s.exch = some e) (hphase : e.phase = .reading got) :
    CommandEffect s .exchangeReadDone (s.exchangeRead e got)
  | exchangeWritten (e : Exchange) (area : Nat) (image : List Word) (hexch : s.exch = some e)
      (hphase : e.phase = .writing area image) (hin : ∀ p ∈ wordsAt area image, s.inWindow p.1 4 = true) :
    CommandEffect s .exchangeWriteDone
      (State.endExchange { s with mem := Memory.writeAll s.mem (wordsAt area image) } e .done)
  | claimEmpty (page : Nat) (cleared : Bool) (hact : s.pw.activity = .claiming page cleared)
      (hin : s.inWindow page 4 = true ∧ s.inWindow (page + 12) 4 = true) :
    CommandEffect s .pageClaim (s.claimEmpty page cleared)
  | claimRefused (page : Nat) (cleared : Bool) (hact : s.pw.activity = .claiming page cleared) :
    CommandEffect s .pageClaim (s.claimRefused cleared)
  | recordWritten (made : Nat) (p : OpenPage) (r : TakeRecord) (rest : List TakeRecord)
      (hact : s.pw.activity = .writing made) (hpage : s.pw.page = some p) (hqueue : s.lu.queue = r :: rest)
      (hin : ∀ q ∈ recordLeft p r made, s.inWindow q.1 4 = true) :
    CommandEffect s .recordWritten (s.recordDone p r rest made)
  | pageClosed (why : CloseWhy) (cleared : Bool) (p : OpenPage) (hact : s.pw.activity = .closing why cleared)
      (hpage : s.pw.page = some p) (hin : s.inWindow p.addr 4 = true) :
    CommandEffect s .pageCloseDone (s.closeDone p why cleared)

/-- Every state that the command answers is one of its effects. -/
def Effects (s : State) (c : Instr) (answer : Host.Outcome State Fault Refusal) : Prop :=
  ∀ t, answer = .next t → CommandEffect s c t

variable {s : State} {c : Instr}

theorem effects_next {t : State} (h : CommandEffect s c t) : Effects s c (.next t) := fun _ hu => next_inj hu ▸ h

theorem effects_same : Effects s c (.next s) := effects_next .same

/-- A command whose event is taken only when it is due. -/
theorem effects_ite {t : State} {p : Prop} [Decidable p] (h : p → CommandEffect s c t) :
    Effects s c (.next (if p then t else s)) := by
  split
  next hp => exact effects_next (h hp)
  next => exact effects_same

/-- A command that completes a memory operation. -/
theorem effects_guarded {t : State} {as : List Nat} (h : (∀ a ∈ as, s.inWindow a 4 = true) → CommandEffect s c t) :
    Effects s c (s.guarded as t) := by
  intro u hu
  rw [s.guarded_eq_next t u as hu]
  exact h fun a ha => decide_eq_true ((s.guarded_inWindow t u as hu).2 a ha)

theorem effects_guarded_words {t : State} {ws : List (Nat × Word)}
    (h : (∀ p ∈ ws, s.inWindow p.1 4 = true) → CommandEffect s c t) : Effects s c (s.guarded (ws.map Prod.fst) t) :=
  effects_guarded fun hin => h fun p hp => hin p.1 (List.mem_map_of_mem hp)

/-- A command that hands an order to its owner. -/
theorem effects_handOrder {k : OrderKind} {take : Order → State → State}
    (h : ∀ o, s.oe.step = .taken o → o.kind = k → CommandEffect s c (take o s)) :
    Effects s c (.next (s.handOrder k take)) := by
  rcases s.handOrder_cases k take with ⟨o, hstep, hk, he⟩ | he <;> rw [he]
  · exact effects_next (h o hstep hk)
  · exact effects_same

/-- A command that hands an order to the roster. -/
theorem effects_handRosterOrder {k : OrderKind} {take : Order → State → State}
    (h : ∀ o, o.kind = k → take o s = rosterOrder o s) : Effects s c (.next (s.handRosterOrder k take)) := by
  rcases s.handRosterOrder_cases k take with ⟨o, hstep, hk, hexch, he⟩ | ⟨o, hstep, hk, hexch, he⟩ | he <;> rw [he]
  · rw [h o hk]
    exact effects_next (.rosterOrder o hstep hexch)
  · exact effects_next (.rosterHeld o hstep hexch)
  · exact effects_same

theorem orderHeadWrite_effects (s : State) (c : Instr) (v : Word) : Effects s c (s.orderHeadWrite v) := by
  rcases s.orderHeadWrite_cases v with
    ⟨_, he⟩ | ⟨_, _, hidle, he⟩ | ⟨_, hended, he⟩ | ⟨_, hrun, he⟩ | ⟨_, _, _, _, he⟩ <;> rw [he]
  · exact effects_guarded .engineClear
  · exact effects_next (.chainStart v hidle)
  · exact effects_next (.returnToIdle hended)
  · exact effects_next (.abort hrun)
  · exact effects_next .refusedHead

/-! ### The order engine's completions -/

theorem execOrderFetch_effects (s : State) : Effects s .orderFetch (execOrderFetch s) := by
  unfold execOrderFetch
  split
  next got hstep => exact effects_next (.orderFetch got hstep)
  next => exact effects_same

theorem execTerminationWritten_effects (s : State) : Effects s .terminationWritten (execTerminationWritten s) := by
  unfold execTerminationWritten
  split
  next results code detail hstep => exact effects_guarded_words (.terminationWritten results code detail hstep)
  next => exact effects_same

theorem execLinkRead_effects (s : State) : Effects s .linkRead (execLinkRead s) := by
  unfold execLinkRead
  split
  next code hstep => exact effects_guarded fun _ => .linkRead code hstep
  next => exact effects_same

theorem execSnapshotWritten_effects (s : State) : Effects s .snapshotWritten (execSnapshotWritten s) := by
  unfold execSnapshotWritten
  split
  next area image hstep => exact effects_guarded_words (.snapshotWritten area image hstep)
  next => exact effects_same

/-! ### The channels' events -/

theorem execChannelEdge_effects (c : Fin 16) (s : State) : Effects s (.channelEdge c) (execChannelEdge c s) := by
  unfold execChannelEdge
  split
  next edge hrun hnext => exact effects_ite (.channelEdge c edge hrun hnext)
  next => exact effects_same

theorem execChannelArmedStart_effects (c : Fin 16) (s : State) :
    Effects s (.channelArmedStart c) (execChannelArmedStart c s) := by
  unfold execChannelArmedStart
  split
  next start harmed hstart => exact effects_ite (.armedStart c start harmed hstart)
  next => exact effects_same

theorem execPulseEnd_effects (c : Fin 16) (s : State) : Effects s (.pulseEnd c) (execPulseEnd c s) := by
  unfold execPulseEnd
  split
  · exact effects_ite fun _ => .pulseEnd c
  · exact effects_same

/-! ### The link's events -/

theorem execNextTurn_effects (s : State) : Effects s .nextTurn (execNextTurn s) := by
  unfold execNextTurn
  split
  · exact effects_next .nextTurn
  · exact effects_ite fun _ => .nextTurn
  all_goals exact effects_same

theorem execSetTurnEnd_effects (s : State) : Effects s .setTurnEnd (execSetTurnEnd s) := by
  unfold execSetTurnEnd
  split
  next turn hphase hturn => exact effects_ite fun _ => .setTurnEnd turn hphase hturn
  next => exact effects_same

theorem execAnswerWindowOpen_effects (s : State) : Effects s .answerWindowOpen (execAnswerWindowOpen s) := by
  unfold execAnswerWindowOpen
  split
  · exact effects_ite fun _ => .windowOpen
  all_goals exact effects_same

theorem execAnswerStart_effects (s : State) : Effects s .answerStart (execAnswerStart s) := by
  unfold execAnswerStart
  split
  · exact effects_ite fun _ => .answerStart
  all_goals exact effects_same

theorem execAnswerEnd_effects (chars : List RxChar) (s : State) :
    Effects s (.answerEnd chars) (execAnswerEnd chars s) := by
  unfold execAnswerEnd
  split
  next stamp gen turn _ hturn => exact effects_ite fun _ => .answerEnd stamp gen turn chars false hturn
  next => exact effects_same

theorem execQuietLine_effects (chars : List RxChar) (s : State) :
    Effects s (.quietLine chars) (execQuietLine chars s) := by
  unfold execQuietLine
  split
  next stamp gen turn _ hturn => exact effects_ite fun _ => .answerEnd stamp gen turn chars true hturn
  next => exact effects_same

theorem execAnswerWindowClose_effects (s : State) : Effects s .answerWindowClose (execAnswerWindowClose s) := by
  unfold execAnswerWindowClose
  split
  next turn _ hturn => exact effects_ite fun _ => .windowClose turn hturn
  next => exact effects_same

/-! ### The EXCHANGE's and the page writer's completions -/

theorem execExchangeReadDone_effects (s : State) : Effects s .exchangeReadDone (execExchangeReadDone s) := by
  unfold execExchangeReadDone
  split
  next e hexch =>
    split
    next got hphase => exact effects_guarded fun _ => .exchangeRead e got hexch hphase
    all_goals exact effects_same
  next => exact effects_same

theorem execExchangeWriteDone_effects (s : State) : Effects s .exchangeWriteDone (execExchangeWriteDone s) := by
  unfold execExchangeWriteDone
  split
  next e hexch =>
    split
    next area image hphase => exact effects_guarded_words (.exchangeWritten e area image hexch hphase)
    all_goals exact effects_same
  next => exact effects_same

theorem execPageClaim_effects (s : State) : Effects s .pageClaim (execPageClaim s) := by
  unfold execPageClaim
  split
  next page cleared hact =>
    refine effects_guarded fun hin => ?_
    split
    · exact .claimEmpty page cleared hact ⟨hin _ (by simp), hin _ (by simp)⟩
    · exact .claimRefused page cleared hact
  next => exact effects_same

theorem execRecordWritten_effects (s : State) : Effects s .recordWritten (execRecordWritten s) := by
  unfold execRecordWritten
  split
  next made p r rest hact hpage hqueue =>
    exact effects_guarded_words (.recordWritten made p r rest hact hpage hqueue)
  next => exact effects_same

theorem execPageCloseDone_effects (s : State) : Effects s .pageCloseDone (execPageCloseDone s) := by
  unfold execPageCloseDone
  split
  next why cleared p hact hpage =>
    exact effects_guarded fun hin => .pageClosed why cleared p hact hpage (hin _ (by simp))
  next => exact effects_same

/-! ### All commands -/

theorem exec_effects (c : Instr) (s : State) (h : ∀ a b, c ≠ .reset a b) : Effects s c (exec c s) := by
  cases c with
  | reset a b => exact absurd rfl (h a b)
  | oscillatorTick => exact effects_next .oscillatorTick
  | referenceEdge => exact effects_next .referenceEdge
  | referenceMiss => exact effects_ite .referenceMiss
  | timeLowRead => exact effects_next .timeLowRead
  | ignoredRegisterWrite _ _ => exact effects_same
  | attentionWrite v => exact effects_next (.attentionWrite v)
  | attentionMaskWrite v => exact effects_next (.attentionMaskWrite v)
  | chainStart v | refusedOrderHeadWrite v => exact orderHeadWrite_effects s _ v
  | returnToIdle => exact orderHeadWrite_effects s _ 0
  | abort => exact orderHeadWrite_effects s _ 1
  | engineClear => exact orderHeadWrite_effects s _ 2
  | pass => exact effects_handOrder .pass
  | snapshot => exact effects_handOrder .snapshot
  | setReference => exact effects_handOrder .setReference
  | setChannel => exact effects_handOrder .setChannel
  | startChannel => exact effects_handOrder .startChannel
  | stopChannel => exact effects_handOrder .stopChannel
  | setAction => exact effects_handOrder .setAction
  | setTake => exact effects_handOrder .setTake
  | injectMark => exact effects_handOrder .injectMark
  | translate => exact effects_handOrder .translate
  | givePages => exact effects_handOrder .givePages
  | flushLog => exact effects_handOrder .flushLog
  | enrol | setDevice | release | adopt | exchange | jam =>
    exact effects_handRosterOrder fun o hk => by simp only [rosterOrder, hk]
  | orderFetch => exact execOrderFetch_effects s
  | terminationWritten => exact execTerminationWritten_effects s
  | linkRead => exact execLinkRead_effects s
  | snapshotWritten => exact execSnapshotWritten_effects s
  | channelEdge c => exact execChannelEdge_effects c s
  | channelArmedStart c => exact execChannelArmedStart_effects c s
  | pulseEnd c => exact execPulseEnd_effects c s
  | nextTurn => exact execNextTurn_effects s
  | setTurnEnd => exact execSetTurnEnd_effects s
  | answerWindowOpen => exact execAnswerWindowOpen_effects s
  | answerStart => exact execAnswerStart_effects s
  | answerEnd chars => exact execAnswerEnd_effects chars s
  | quietLine chars => exact execQuietLine_effects chars s
  | answerWindowClose => exact execAnswerWindowClose_effects s
  | exchangeReadDone => exact execExchangeReadDone_effects s
  | exchangeWriteDone => exact execExchangeWriteDone_effects s
  | pageClaim => exact execPageClaim_effects s
  | recordWritten => exact execRecordWritten_effects s
  | pageCloseDone => exact execPageCloseDone_effects s

/-! ### RESET, and every step -/

/-- What RESET answers: the reset state but for the straps, the memory, the counter of free values and the queue. -/
theorem exec_reset_answer {a b : Bool} {s t : State} (h : exec (.reset a b) s = .next t) :
    t = { State.reset with mem := t.mem, straps := (a, b), free := t.free, pending := t.pending } := by
  rw [s.guarded_eq_next _ t _ h]

/-- A step makes one word access or is a command on the state with the queue's rest. -/
theorem step_answers {s t : State} (h : step s = .next t) :
    t = s.wordAccess ∨ ∃ c rest, exec c { s with pending := rest } = .next t := by
  unfold step at h
  split at h
  next => exact .inl (next_inj h)
  next c rest _ => exact .inr ⟨c, rest, h⟩

/-- A step makes one word access, is a RESET, or is an effect of another command on the state with the queue's rest. -/
theorem step_cases {s t : State} (h : step s = .next t) :
    t = s.wordAccess ∨ (∃ a b rest, exec (.reset a b) { s with pending := rest } = .next t) ∨
      ∃ c rest, CommandEffect { s with pending := rest } c t := by
  rcases step_answers h with he | ⟨c, rest, hc⟩
  · exact .inl he
  · by_cases hreset : ∃ a b, c = .reset a b
    · obtain ⟨a, b, rfl⟩ := hreset
      exact .inr (.inl ⟨a, b, rest, hc⟩)
    · exact .inr (.inr ⟨c, rest, exec_effects c _ (fun a b he => hreset ⟨a, b, he⟩) t hc⟩)

end Sys2Proof.Machine
end

section
/-! The time base (R1 to R18): what each of its operations makes of it, and that each keeps its ranges (R15, R21). -/

namespace Sys2Proof.Machine

theorem instant64_lt (t : Nat) : instant64 t < 2 ^ 64 := by
  unfold instant64
  split
  · assumption
  · exact BitVec.isLt _

theorem clampTo_bounds {x : Int} (hx : 0 ≤ x) (v : Int) : -x ≤ clampTo x v ∧ clampTo x v ≤ x := by
  unfold clampTo
  omega

theorem clampTo_of_le {x v : Int} (h : -x ≤ v ∧ v ≤ x) : clampTo x v = v := by
  unfold clampTo
  omega

/-! ## The time base after a reference event -/

/-- The time base after a miss (R14). -/
def TimeBase.missTaken (tb : TimeBase) : TimeBase :=
  if 3 ≤ tb.missed + 1 then { tb with slew := 0, missed := tb.missed + 1, ref := .holdover, expected := none }
  else { tb with slew := 0, missed := tb.missed + 1, expected := tb.expected.map tb.gridAfter }

theorem State.refMiss_tb (s : State) : s.refMiss.tb = s.tb.missTaken := by
  unfold State.refMiss TimeBase.missTaken
  dsimp only
  split <;> simp

/-- A miss that is taken only when it is due, as `settleMisses` does three times (log entry 17). -/
def State.dueMiss (s : State) : State := if s.tb.missDue then s.refMiss else s

theorem State.settleMisses_eq (s : State) : s.settleMisses = s.dueMiss.dueMiss.dueMiss := rfl

theorem State.dueMiss_of_due {s : State} (h : s.tb.missDue = true) : s.dueMiss = s.refMiss := if_pos h

theorem State.dueMiss_of_not_due {s : State} (h : s.tb.missDue = false) : s.dueMiss = s := if_neg (by simp [h])

theorem State.settleMisses_of_not_due {s : State} (h : s.tb.missDue = false) : s.settleMisses = s := by
  simp only [State.settleMisses_eq, State.dueMiss_of_not_due h]

theorem TimeBase.missDue_iff {tb : TimeBase} :
    tb.missDue = true ↔ tb.ref = .locked ∧ ∃ p, tb.expected = some p ∧ p + tb.half < tb.st := by
  unfold TimeBase.missDue
  split <;> simp_all

theorem TimeBase.missDue_eq_false {tb : TimeBase}
    (h : tb.ref ≠ .locked ∨ ∃ p, tb.expected = some p ∧ tb.st ≤ p + tb.half) : tb.missDue = false := by
  rw [Bool.eq_false_iff, ne_eq, TimeBase.missDue_iff]
  rintro ⟨href, p, hp, hlt⟩
  rcases h with h | ⟨q, hq, hle⟩
  · exact h href
  · obtain rfl : p = q := Option.some.inj (hp.symm.trans hq)
    omega

/-- The time base after a matched edge that does not leave LOCKED (R11, R12). -/
def TimeBase.matched (tb : TimeBase) (e : Int) (expected : Nat) : TimeBase :=
  let tb1 : TimeBase := { tb with missed := 0, expected := some (tb.gridAfter expected) }
  if e.natAbs ≤ 1350 then tb1.narrow e else { tb1 with wide := tb.wide + 1, slew := 0 }

theorem State.edgeMatched_tb (s : State) (stamp p : Nat) :
    (s.edgeMatched stamp p).tb =
      if 1350 < (phaseError stamp p).natAbs ∧ 3 ≤ s.tb.wide + 1 then
        (s.tb.matched (phaseError stamp p) p).acquiring (some stamp)
      else s.tb.matched (phaseError stamp p) p := by
  unfold State.edgeMatched TimeBase.matched
  dsimp only
  by_cases he : (phaseError stamp p).natAbs ≤ 1350
  · simp [he]
  · by_cases hw : 3 ≤ s.tb.wide + 1 <;> simp [he, hw, not_le.mp he]

/-- The time base after an alignment without a step (R7). -/
def TimeBase.aligned (tb : TimeBase) (g : Nat) : TimeBase := tb.lockedAt (tb.gridAfter g)

/-- The time base after an alignment with a step to `g` (R8). -/
def TimeBase.stepped (tb : TimeBase) (g : Nat) : TimeBase :=
  ({ tb with st := instant64 g, rem := 0, gen := tb.gen + 1 } : TimeBase).lockedAt (tb.gridAfter g)

theorem State.align_tb (s : State) (stamp : Nat) :
    (s.align stamp).tb =
      match s.tb.alignPoint stamp with
      | some g => s.tb.aligned g
      | none => s.tb.stepped (s.tb.gridFrom stamp) := by
  unfold State.align
  cases s.tb.alignPoint stamp <;> simp [TimeBase.aligned, TimeBase.stepped, State.stepForward]

/-- An edge ends the run of qualified intervals or lengthens it by one (R6). -/
theorem TimeBase.nextQual_cases (tb : TimeBase) (stamp : Nat) :
    tb.nextQual stamp = 0 ∨ tb.nextQual stamp = tb.qual + 1 := by
  unfold TimeBase.nextQual
  split
  · exact .inl rfl
  · split
    · exact .inr rfl
    · exact .inl rfl

/-- The time base with an edge's stamp noted and the qualification count it gives (R6). -/
def TimeBase.counted (tb : TimeBase) (stamp : Nat) : TimeBase :=
  { tb with qual := tb.nextQual stamp, prevEdge := some stamp }

theorem State.edgeAcquiring_eq (s : State) (stamp : Nat) :
    s.edgeAcquiring stamp =
      if s.tb.nextQual stamp = 25 then State.align { s with tb := s.tb.counted stamp } stamp
      else { s with tb := s.tb.counted stamp } := rfl

/-- An edge in LOCKED is matched to the expected point or changes nothing. -/
theorem State.edgeLocked_cases (s : State) (stamp : Nat) :
    s.edgeLocked stamp = s ∨ ∃ p, s.tb.expected = some p ∧ s.edgeLocked stamp = s.edgeMatched stamp p := by
  unfold State.edgeLocked
  split
  next => exact .inl rfl
  next p hp =>
    split
    · exact .inr ⟨p, hp, rfl⟩
    · exact .inl rfl

/-- A reference edge after the misses that are due before it: it changes nothing, is counted, is matched, or enters
ACQUIRING. -/
theorem State.refEdge_cases (s : State) :
    let s1 := s.settleMisses
    s.refEdge = s1 ∨
      (s1.tb.ref = .acquiring ∧ s.refEdge = s1.edgeAcquiring s1.tb.st) ∨
      (s1.tb.ref = .locked ∧ ∃ p, s1.tb.expected = some p ∧ s.refEdge = s1.edgeMatched s1.tb.st p) ∨
      (s1.tb.ref = .holdover ∧ s.refEdge = s1.enterAcquiring (some s1.tb.st)) := by
  intro s1
  unfold State.refEdge
  dsimp only
  split
  next => exact .inl rfl
  next href => exact .inr (.inl ⟨href, rfl⟩)
  next href =>
    rcases s1.edgeLocked_cases s1.tb.st with he | ⟨p, hp, he⟩
    · exact .inl he
    · exact .inr (.inr (.inl ⟨href, p, hp, he⟩))
  next href => exact .inr (.inr (.inr ⟨href, rfl⟩))

/-! ## The invariant -/

section

variable {tb : TimeBase}

theorem TimeBase.WF.tick (h : tb.WF) : tb.tick.WF := by
  obtain ⟨-, -, hrest⟩ := h
  exact ⟨instant64_lt _, Nat.mod_lt _ (by decide), hrest⟩

theorem TimeBase.WF.acquiring (h : tb.WF) (first : Option Nat) : (tb.acquiring first).WF := by
  obtain ⟨hst, hrem, htrim, htrim', -, -, hperiod, hphi, -⟩ := h
  refine ⟨hst, hrem, htrim, htrim', ?_, ?_, hperiod, hphi, ?_, ?_, ?_, ?_, ?_, ?_⟩ <;> simp [TimeBase.acquiring]

theorem TimeBase.WF.missTaken (h : tb.WF) (hlocked : tb.ref = .locked) : tb.missTaken.WF := by
  obtain ⟨hst, hrem, htrim, htrim', -, -, hperiod, hphi, hqual, -, hwide, -, hmissed, hexp⟩ := h
  have hm := hmissed hlocked
  unfold TimeBase.missTaken
  split
  · refine ⟨hst, hrem, htrim, htrim', ?_, ?_, hperiod, hphi, hqual, ?_, hwide, ?_, ?_, ?_⟩ <;> simp
    omega
  · refine ⟨hst, hrem, htrim, htrim', ?_, ?_, hperiod, hphi, hqual, ?_, hwide, ?_, ?_, ?_⟩ <;>
      simp [hlocked, hexp.mpr hlocked] <;> omega

/-- A matched edge in LOCKED keeps the ranges, but for the count of wide edges, which it may raise to one past. -/
theorem TimeBase.WF.matched (h : tb.WF) (hlocked : tb.ref = .locked) (e : Int) (p : Nat)
    (hwide : e.natAbs ≤ 1350 ∨ tb.wide + 1 ≤ 3) : (tb.matched e p).WF := by
  obtain ⟨hst, hrem, htrim, htrim', hslew, hslew', hperiod, hphi, hqual, -, -, -, -, -⟩ := h
  have ht := clampTo_bounds (x := 20000) (by decide)
  have hs := clampTo_bounds (x := 50000) (by decide)
  unfold TimeBase.matched
  dsimp only
  split
  · refine ⟨hst, hrem, (ht _).1, (ht _).2, (hs _).1, (hs _).2, hperiod, hphi, hqual, ?_, ?_, ?_, ?_, ?_⟩ <;>
      simp [TimeBase.narrow, hlocked]
  · refine ⟨hst, hrem, htrim, htrim', ?_, ?_, hperiod, hphi, hqual, ?_, ?_, ?_, ?_, ?_⟩ <;> simp [hlocked]
    omega

theorem TimeBase.WF.counted (h : tb.WF) {stamp : Nat} (hacq : tb.ref = .acquiring)
    (hq : tb.nextQual stamp ≠ 25) : (tb.counted stamp).WF := by
  obtain ⟨hst, hrem, htrim, htrim', hslew, hslew', hperiod, hphi, -, hqual, hrest⟩ := h
  have hlt : tb.nextQual stamp < 25 := by
    have hq' := hqual hacq
    rcases tb.nextQual_cases stamp with hq0 | hq1 <;> omega
  exact ⟨hst, hrem, htrim, htrim', hslew, hslew', hperiod, hphi, hlt.le, fun _ => hlt, hrest⟩

/-- The ranges of a time base whose last edge brought the count to 25, before it aligns. -/
theorem TimeBase.WF.lockedAt (h : tb.WF) {tb1 : TimeBase} (hst : tb1.st < 2 ^ 64) (hrem : tb1.rem < 1000000000)
    (hqual : tb1.qual ≤ 25)
    (hsame : tb1.trim = tb.trim ∧ tb1.slew = tb.slew ∧ tb1.period = tb.period ∧ tb1.phi = tb.phi) (p : Nat) :
    (tb1.lockedAt p).WF := by
  obtain ⟨-, -, htrim, htrim', hslew, hslew', hperiod, hphi, -⟩ := h
  obtain ⟨ht, hs, hper, hph⟩ := hsame
  refine ⟨hst, hrem, ?_, ?_, ?_, ?_, ?_, ?_, hqual, ?_, ?_, ?_, ?_, ?_⟩ <;>
    simp [TimeBase.lockedAt, ht, hs, hper, hph, htrim, htrim', hslew, hslew', hperiod, hphi]

end

theorem State.dueMiss_tb_wf {s : State} (h : s.tb.WF) : s.dueMiss.tb.WF := by
  cases hdue : s.tb.missDue with
  | false => rwa [State.dueMiss_of_not_due hdue]
  | true =>
    rw [State.dueMiss_of_due hdue, State.refMiss_tb]
    exact h.missTaken (TimeBase.missDue_iff.mp hdue).1

theorem State.settleMisses_tb_wf {s : State} (h : s.tb.WF) : s.settleMisses.tb.WF :=
  State.dueMiss_tb_wf (State.dueMiss_tb_wf (State.dueMiss_tb_wf h))

theorem State.edgeAcquiring_tb_wf {s : State} (h : s.tb.WF) (hacq : s.tb.ref = .acquiring) (stamp : Nat) :
    (s.edgeAcquiring stamp).tb.WF := by
  rw [State.edgeAcquiring_eq]
  split
  next hq =>
    obtain ⟨hst, hrem, -⟩ := id h
    rw [State.align_tb]
    split
    · exact h.lockedAt (tb1 := s.tb.counted stamp) hst hrem hq.le ⟨rfl, rfl, rfl, rfl⟩ _
    · exact h.lockedAt (tb1 := { s.tb.counted stamp with st := instant64 _, rem := 0, gen := s.tb.gen + 1 })
        (instant64_lt _) (by decide : 0 < 1000000000) hq.le ⟨rfl, rfl, rfl, rfl⟩ _
  next hq => exact h.counted hacq hq

theorem State.edgeMatched_tb_wf {s : State} (h : s.tb.WF) (hlocked : s.tb.ref = .locked) (stamp p : Nat) :
    (s.edgeMatched stamp p).tb.WF := by
  rw [State.edgeMatched_tb]
  split
  next hthird =>
    -- what ACQUIRING keeps of the time base a matched edge does not touch
    have hsame : (s.tb.matched (phaseError stamp p) p).acquiring (some stamp) = s.tb.acquiring (some stamp) := by
      simp [TimeBase.matched, TimeBase.acquiring, not_le.mpr hthird.1]
    rw [hsame]
    exact h.acquiring _
  next hnot => exact h.matched hlocked _ p (by omega)

theorem State.refEdge_tb_wf {s : State} (h : s.tb.WF) : s.refEdge.tb.WF := by
  have h1 := State.settleMisses_tb_wf h
  rcases s.refEdge_cases with he | ⟨hacq, he⟩ | ⟨hlocked, p, _, he⟩ | ⟨_, he⟩ <;> rw [he]
  · exact h1
  · exact State.edgeAcquiring_tb_wf h1 hacq _
  · exact State.edgeMatched_tb_wf h1 hlocked _ p
  · rw [State.enterAcquiring_tb]
    exact h1.acquiring _

theorem setReferenceOrder_tb_wf {s : State} (h : s.tb.WF) (o : Order) : (setReferenceOrder o s).tb.WF := by
  by_cases hok : ReferenceInRange o
  · obtain ⟨hlegal, hphi⟩ := (referenceInRange_iff o).mp hok
    obtain ⟨hst, hrem, htrim, htrim', hslew, hslew', -, -, hqual, hacq, hwide, hmissed, hlocked, hexp⟩ := id h
    have hset : (s.tb.withReference o).WF :=
      ⟨hst, hrem, htrim, htrim', hslew, hslew', hlegal, hphi, hqual, hacq, hwide, hmissed, hlocked, hexp⟩
    have hoff : ({ s.tb.withReference o with ref := .free, slew := 0, expected := none } : TimeBase).WF := by
      refine ⟨hst, hrem, htrim, htrim', ?_, ?_, hlegal, hphi, hqual, ?_, hwide, hmissed, ?_, ?_⟩ <;> simp
    rcases Nat.mod_two_eq_zero_or_one (o.p 0).toNat with hbit | hbit
    · by_cases hfree : s.tb.ref = .free
      · rw [setReferenceOrder_off_free s hok hbit hfree]
        rw [← hfree] at hoff
        exact hoff
      · rw [setReferenceOrder_off s hok hbit hfree]
        simpa using hoff
    · by_cases hsame : s.tb.ref = .locked ∧ s.tb.period = referencePeriod o ∧ s.tb.phi = (o.p 3).toNat
      · rwa [setReferenceOrder_on_same s hok hbit hsame]
      · rw [setReferenceOrder_on s hok hbit hsame]
        simpa using hset.acquiring none
  · rwa [setReferenceOrder_outOfRange s hok]

theorem TimeBase.reset_wf : TimeBase.reset.WF := by
  simp [TimeBase.WF, TimeBase.reset, Rate.legal, Rate.floorPeriod]

theorem exec_tb_wf {c : Instr} {s t : State} (hs : s.tb.WF) (h : exec c s = .next t) : t.tb.WF := by
  cases hc : changesTimeBase c with
  | false => rwa [exec_keepsTimeBase c s hc t h]
  | true =>
    rcases changesTimeBase_cases hc with ⟨a, b, rfl⟩ | rfl | rfl | rfl | rfl | rfl
    · rw [exec_reset_tb h]
      exact TimeBase.reset_wf
    · rw [next_inj h]
      exact State.refEdge_tb_wf hs
    · rw [next_inj h]
      exact State.dueMiss_tb_wf hs
    · rw [next_inj h]
      exact hs
    · rw [next_inj h]
      rcases s.handOrder_cases .setReference setReferenceOrder with ⟨o, _, _, he⟩ | he <;> rw [he]
      · exact setReferenceOrder_tb_wf hs o
      · exact hs
    · rw [next_inj h]
      exact hs.tick

/-- Settles O12: a word access leaves the time base alone, and every command keeps its ranges. -/
theorem timeBaseInvariant : Obligations.TimeBaseInvariant := by
  intro s t hs h
  rcases step_answers h with rfl | ⟨c, rest, hc⟩
  · simpa using hs
  · exact exec_tb_wf (s := { s with pending := rest }) hs hc

end Sys2Proof.Machine
end

section
/-! Reference edges case by case (R4 to R14), how ST and G move, and what each command leaves of its settings. -/

namespace Sys2Proof.Machine

/-! ## Edges outside LOCKED, and misses (R5, R6, R13, R14) -/

/-- The reference edge of a time base with no miss due is handled as it stands. -/
theorem State.refEdge_of_not_due {s : State} (h : s.tb.missDue = false) :
    s.refEdge =
      match s.tb.ref with
      | .free => s
      | .acquiring => s.edgeAcquiring s.tb.st
      | .locked => s.edgeLocked s.tb.st
      | .holdover => s.enterAcquiring (some s.tb.st) := by
  unfold State.refEdge
  rw [State.settleMisses_of_not_due h] <;> rfl

theorem State.refEdge_free {s : State} (h : s.tb.ref = .free) : s.refEdge = s := by
  rw [State.refEdge_of_not_due (TimeBase.missDue_eq_false (.inl (by simp [h])))]
  simp only [h]

theorem State.refEdge_holdover {s : State} (h : s.tb.ref = .holdover) :
    s.refEdge = s.enterAcquiring (some s.tb.st) := by
  rw [State.refEdge_of_not_due (TimeBase.missDue_eq_false (.inl (by simp [h])))]
  simp only [h]

theorem State.refEdge_acquiring {s : State} (h : s.tb.ref = .acquiring) : s.refEdge = s.edgeAcquiring s.tb.st := by
  rw [State.refEdge_of_not_due (TimeBase.missDue_eq_false (.inl (by simp [h])))]
  simp only [h]

theorem State.edgeAcquiring_counted {s : State} {stamp : Nat} (h : s.tb.nextQual stamp ≠ 25) :
    s.edgeAcquiring stamp = { s with tb := s.tb.counted stamp } := by
  rw [State.edgeAcquiring_eq, if_neg h]

theorem TimeBase.nextQual_first {tb : TimeBase} {stamp : Nat} (h : tb.prevEdge = none) : tb.nextQual stamp = 0 := by
  simp only [TimeBase.nextQual, h]

theorem TimeBase.qualifies_iff {tb : TimeBase} {interval : Int} :
    tb.qualifies interval = true ↔ (interval * tb.period.d - tb.period.n).natAbs ≤ 2700 * tb.period.d := by
  simp [TimeBase.qualifies]

theorem TimeBase.nextQual_qualified {tb : TimeBase} {stamp prev : Nat} (h : tb.prevEdge = some prev)
    (hq : (((stamp : Int) - prev) * tb.period.d - tb.period.n).natAbs ≤ 2700 * tb.period.d) :
    tb.nextQual stamp = tb.qual + 1 := by
  simp only [TimeBase.nextQual, h, TimeBase.qualifies_iff.mpr hq, if_true]

theorem TimeBase.nextQual_not_qualified {tb : TimeBase} {stamp prev : Nat} (h : tb.prevEdge = some prev)
    (hq : 2700 * tb.period.d < (((stamp : Int) - prev) * tb.period.d - tb.period.n).natAbs) :
    tb.nextQual stamp = 0 := by
  simp only [TimeBase.nextQual, h]
  exact if_neg (mt TimeBase.qualifies_iff.mp hq.not_ge)

theorem State.refEdge_stray {s : State} {p : Nat} (hlocked : s.tb.ref = .locked) (hexp : s.tb.expected = some p)
    (hstray : (s.tb.st : Int) < (p : Int) - s.tb.half) : s.refEdge = s := by
  rw [State.refEdge_of_not_due (TimeBase.missDue_eq_false (.inr ⟨p, hexp, by omega⟩))]
  simp only [hlocked, State.edgeLocked, hexp]
  exact if_neg (by omega)

theorem State.refEdge_matched {s : State} {p : Nat} (hlocked : s.tb.ref = .locked) (hexp : s.tb.expected = some p)
    (hfrom : (p : Int) - s.tb.half ≤ s.tb.st) (hto : s.tb.st ≤ p + s.tb.half) :
    s.refEdge = s.edgeMatched s.tb.st p := by
  rw [State.refEdge_of_not_due (TimeBase.missDue_eq_false (.inr ⟨p, hexp, hto⟩))]
  simp only [hlocked, State.edgeLocked, hexp]
  exact if_pos ⟨hfrom, hto⟩

theorem exec_referenceMiss_due {s : State} {p : Nat} (hlocked : s.tb.ref = .locked) (hexp : s.tb.expected = some p)
    (hpast : p + s.tb.half < s.tb.st) : exec .referenceMiss s = .next s.refMiss :=
  congrArg Host.Outcome.next (State.dueMiss_of_due (TimeBase.missDue_iff.mpr ⟨hlocked, p, hexp, hpast⟩))

/-- Settles O8. -/
theorem referenceEdgesAndMisses : Obligations.ReferenceEdgesAndMisses := by
  refine ⟨fun s hfree => ?_, fun s hhold => ?_, fun s hacq hfirst => ?_, fun s prev hacq hprev hlt hq => ?_,
    fun s prev hacq hprev hq => ?_, fun s p hlocked hexp hstray => ?_, fun s p hlocked hexp hpast hmissed => ?_,
    fun s p hlocked hexp hpast hmissed => ?_, fun s h => ?_⟩
  · exact congrArg Host.Outcome.next (State.refEdge_free hfree)
  · refine congrArg Host.Outcome.next ((State.refEdge_holdover hhold).trans ?_)
    rw [State.enterAcquiring, hhold]
    rfl
  · refine congrArg Host.Outcome.next ((State.refEdge_acquiring hacq).trans ?_)
    have hq := TimeBase.nextQual_first (stamp := s.tb.st) hfirst
    rw [State.edgeAcquiring_counted (by simp [hq]), TimeBase.counted, hq]
  · refine congrArg Host.Outcome.next ((State.refEdge_acquiring hacq).trans ?_)
    have hn := TimeBase.nextQual_qualified hprev hq
    rw [State.edgeAcquiring_counted (by omega), TimeBase.counted, hn]
  · refine congrArg Host.Outcome.next ((State.refEdge_acquiring hacq).trans ?_)
    have hn := TimeBase.nextQual_not_qualified hprev hq
    rw [State.edgeAcquiring_counted (by simp [hn]), TimeBase.counted, hn]
  · exact congrArg Host.Outcome.next (State.refEdge_stray hlocked hexp hstray)
  · rw [exec_referenceMiss_due hlocked hexp hpast]
    simp [State.refMiss, hexp, hmissed]
  · rw [exec_referenceMiss_due hlocked hexp hpast]
    simp [State.refMiss, State.refChanged, hlocked, hmissed]
  · exact congrArg Host.Outcome.next (State.dueMiss_of_not_due (TimeBase.missDue_eq_false h))

/-! ## Matched edges (R10 to R12) -/

theorem phaseError_of_narrow {stamp p : Nat} (h : ((stamp : Int) - p).natAbs ≤ 1350) :
    phaseError stamp p = (stamp : Int) - p :=
  clampTo_of_le (by omega)

/-- The measurement clamp leaves a wide edge wide. -/
theorem phaseError_of_wide {stamp p : Nat} (h : 1350 < ((stamp : Int) - p).natAbs) :
    ¬(phaseError stamp p).natAbs ≤ 1350 := by
  unfold phaseError clampTo
  omega

/-- Settles O9. -/
theorem matchedReferenceEdge : Obligations.MatchedReferenceEdge := by
  refine ⟨fun s p hlocked hexp hfrom hto he => ?_, fun s p hlocked hexp hfrom hto he hwide => ?_,
    fun s p hlocked hexp hfrom hto he hwide => ?_⟩ <;>
    refine congrArg Host.Outcome.next ((State.refEdge_matched hlocked hexp hfrom hto).trans ?_)
  · simp only [State.edgeMatched, phaseError_of_narrow he, he, if_true]
    rfl
  · simp only [State.edgeMatched, phaseError_of_wide he, if_false]
    exact if_neg (by omega)
  · simp only [State.edgeMatched, phaseError_of_wide he, if_false, hwide]
    rw [if_pos (by decide), State.enterAcquiring, hlocked]
    rfl

/-! ## Alignment (R7 to R9) -/

/-- The edge that brings the count to 25 aligns. -/
theorem State.refEdge_aligns {s : State} {prev : Nat} (hacq : s.tb.ref = .acquiring) (hprev : s.tb.prevEdge = some prev)
    (hqual : s.tb.qual = 24)
    (hq : (((s.tb.st : Int) - prev) * s.tb.period.d - s.tb.period.n).natAbs ≤ 2700 * s.tb.period.d) :
    s.refEdge = State.align { s with tb := { s.tb with qual := 25, prevEdge := some s.tb.st } } s.tb.st := by
  have hn : s.tb.nextQual s.tb.st = 25 := by rw [TimeBase.nextQual_qualified hprev hq, hqual]
  rw [State.refEdge_acquiring hacq, State.edgeAcquiring_eq, if_pos hn, TimeBase.counted, hn]

theorem State.align_of_point {s : State} {stamp g : Nat} (h : s.tb.alignPoint stamp = some g) :
    s.align stamp = State.refChanged { s with tb := s.tb.lockedAt (s.tb.gridAfter g) } .acquiring := by
  simp only [State.align, h]

theorem State.align_of_step {s : State} {stamp : Nat} (h : s.tb.alignPoint stamp = none) :
    s.align stamp = s.stepForward stamp (s.tb.gridFrom stamp) := by
  simp only [State.align, h]

section

variable {tb : TimeBase} {stamp : Nat}

theorem TimeBase.alignPoint_near (hphi : tb.phi ≤ stamp)
    (h : tb.gridFrom stamp - stamp ≤ 1350 ∨ stamp - tb.gridAt stamp ≤ 1350) :
    tb.alignPoint stamp =
      some (if stamp - tb.gridAt stamp ≤ tb.gridFrom stamp - stamp then tb.gridAt stamp else tb.gridFrom stamp) := by
  simp only [TimeBase.alignPoint, TimeBase.gridBefore?, hphi.not_gt, if_false, h, if_true]
  split <;> rfl

theorem TimeBase.alignPoint_first (hphi : stamp < tb.phi) (h : tb.phi - stamp ≤ 1350) :
    tb.alignPoint stamp = some tb.phi := by
  simp only [TimeBase.alignPoint, TimeBase.gridBefore?, hphi, if_true, TimeBase.gridFrom_of_lt hphi, h]

theorem TimeBase.alignPoint_far (h : 1350 < tb.gridFrom stamp - stamp)
    (hbefore : tb.phi ≤ stamp → 1350 < stamp - tb.gridAt stamp) : tb.alignPoint stamp = none := by
  rcases lt_or_ge stamp tb.phi with hphi | hphi
  · simp only [TimeBase.alignPoint, TimeBase.gridBefore?, hphi, if_true]
    exact if_neg h.not_ge
  · have := hbefore hphi
    simp only [TimeBase.alignPoint, TimeBase.gridBefore?, hphi.not_gt, if_false]
    exact if_neg (by omega)

/-- Without a near grid point the next one lies ahead, by a whole period and a tick at most. -/
theorem TimeBase.alignPoint_none (h : tb.alignPoint stamp = none) (hlegal : tb.period.legal = true)
    (hphi : tb.phi < tb.period.floorPeriod) :
    stamp < tb.gridFrom stamp ∧ tb.gridFrom stamp ≤ stamp + tb.period.floorPeriod + 1 := by
  have hfar : 1350 < tb.gridFrom stamp - stamp := by
    unfold TimeBase.alignPoint at h
    dsimp only at h
    split at h
    · split at h
      · cases h
      · omega
    · split at h
      · split at h <;> cases h
      · omega
  refine ⟨by omega, ?_⟩
  rcases tb.gridFrom_cases (t := stamp) with ⟨hlt, he⟩ | ⟨_, _, he⟩ | ⟨hle, _, he⟩
  · omega
  · omega
  · have hnext := TimeBase.gridAfter_le_gridAt hlegal hle
    have hat := TimeBase.gridAt_le hlegal hle
    unfold Rate.floorPeriod at *
    omega

end

theorem Channel.due_iff (ch : Channel) (t : Nat) :
    ch.due t = true ↔
      (ch.state = .running ∧ ∃ g, ch.cur = some g ∧ (g.instant ((ch.frame : Int) + 1)).toNat ≤ t) ∨
      (ch.state = .armed ∧ ∃ start, ch.startSt = some start ∧ start ≤ t) ∨ (∃ e, ch.pulse = some e ∧ e ≤ t) := by
  have hpulse : (match ch.pulse with | some e => decide (e ≤ t) | none => false) = true ↔
      ∃ e, ch.pulse = some e ∧ e ≤ t := by
    cases ch.pulse <;> simp
  have hstate :
      (match ch.state with
        | .running => (match ch.nextEdge with | some e => decide (e ≤ t) | none => false)
        | .armed => (match ch.startSt with | some start => decide (start ≤ t) | none => false)
        | .stopped => false) = true ↔
      (ch.state = .running ∧ ∃ g, ch.cur = some g ∧ (g.instant ((ch.frame : Int) + 1)).toNat ≤ t) ∨
      (ch.state = .armed ∧ ∃ start, ch.startSt = some start ∧ start ≤ t) := by
    cases ch.state
    · simp
    · cases ch.startSt <;> simp
    · unfold Channel.nextEdge
      cases ch.cur <;> simp
  rw [Channel.due, Bool.or_eq_true]
  exact (or_congr hstate hpulse).trans or_assoc

/-- A channel with nothing due is left alone before a step. -/
theorem State.settleChannel_of_not_due {s : State} {c : Fin 16} (h : (s.chan c).due s.tb.st = false) :
    s.settleChannel c = s := by
  rw [Bool.eq_false_iff, ne_eq, Channel.due_iff] at h
  unfold State.settleChannel
  dsimp only
  split
  next => rfl
  next hrun =>
    split
    next edge hnext =>
      obtain ⟨g, hg, rfl⟩ := Option.map_eq_some_iff.mp hnext
      exact if_neg fun hle => h (.inl ⟨hrun, g, hg, hle⟩)
    next => rfl
  next harmed =>
    split
    next start hstart => exact if_neg fun hle => h (.inr (.inl ⟨harmed, start, hstart, hle⟩))
    next => rfl

theorem State.settleChannels_of_not_due {s : State} (h : ∀ c : Fin 16, (s.chan c).due s.tb.st = false) :
    s.settleChannels = s := by
  unfold State.settleChannels
  induction List.finRange 16 with
  | nil => rfl
  | cons c cs ih => rw [List.foldl_cons, State.settleChannel_of_not_due (h c), ih]

/-- The step of an alignment to `g` with no channel event due before it (R8, R9). -/
def State.steppedTo (s : State) (stamp g : Nat) : State :=
  State.sysEvent (.referenceState .locked .acquiring) (State.raise
    (State.rosterStep
      (State.channelsStep
        (State.sysEvent (.timeStep (g - stamp))
          { s with
            tb :=
              { s.tb with
                st := g, rem := 0, gen := s.tb.gen + 1, ref := .locked, wide := 0, missed := 0
                expected := some (s.tb.gridAfter g) } })
        stamp g)
      (g - stamp))
    .reference)

theorem State.align_steps {s : State} {stamp : Nat} (hfar : s.tb.alignPoint stamp = none)
    (hdue : ∀ c : Fin 16, (s.chan c).due s.tb.st = false) (hlt : s.tb.gridFrom stamp < 2 ^ 64)
    (hahead : stamp ≤ s.tb.gridFrom stamp) : s.align stamp = s.steppedTo stamp (s.tb.gridFrom stamp) := by
  rw [State.align_of_step hfar, State.stepForward, State.settleChannels_of_not_due hdue]
  simp only [State.announceStep, instant64_of_lt hlt, Nat.add_sub_cancel' hahead, State.refChanged]
  rw [State.steppedTo]
  simp [TimeBase.lockedAt]

/-- Settles O10. -/
theorem alignment : Obligations.Alignment := by
  refine ⟨fun s prev hacq hprev hqual hq hphi hnear => ?_, fun s prev hacq hprev hqual hq hphi hnear => ?_,
    fun s prev hacq hprev hqual hq hfar hbefore hdue hlt => ?_, Channel.due_iff⟩ <;>
    refine congrArg Host.Outcome.next ((State.refEdge_aligns hacq hprev hqual hq).trans ?_)
  · exact State.align_of_point (TimeBase.alignPoint_near hphi hnear)
  · exact State.align_of_point (TimeBase.alignPoint_first hphi hnear)
  · exact State.align_steps (s := { s with tb := { s.tb with qual := 25, prevEdge := some s.tb.st } })
      (TimeBase.alignPoint_far hfar hbefore) hdue hlt (Nat.lt_of_sub_pos (Nat.zero_lt_of_lt hfar)).le

/-! ## How ST and G move (R1, R8) -/

/-- ST and G stand, or ST steps forward to the next grid point, less than a grid step and a tick ahead, and G rises. -/
def TimeBase.StepsTo (tb tb1 : TimeBase) : Prop :=
  (tb1.st = tb.st ∧ tb1.gen = tb.gen) ∨
    (tb.st < tb1.st ∧ tb1.st ≤ tb.st + tb.period.n / tb.period.d + 1 ∧ tb1.gen = tb.gen + 1)

theorem TimeBase.missTaken_clock (tb : TimeBase) :
    tb.missTaken.st = tb.st ∧ tb.missTaken.gen = tb.gen ∧ tb.missTaken.period = tb.period ∧
      tb.missTaken.phi = tb.phi := by
  unfold TimeBase.missTaken
  split <;> exact ⟨rfl, rfl, rfl, rfl⟩

theorem State.dueMiss_clock (s : State) :
    s.dueMiss.tb.st = s.tb.st ∧ s.dueMiss.tb.gen = s.tb.gen ∧ s.dueMiss.tb.period = s.tb.period ∧
      s.dueMiss.tb.phi = s.tb.phi := by
  unfold State.dueMiss
  split
  · rw [State.refMiss_tb]
    exact s.tb.missTaken_clock
  · exact ⟨rfl, rfl, rfl, rfl⟩

theorem State.settleMisses_clock (s : State) :
    s.settleMisses.tb.st = s.tb.st ∧ s.settleMisses.tb.gen = s.tb.gen ∧ s.settleMisses.tb.period = s.tb.period ∧
      s.settleMisses.tb.phi = s.tb.phi := by
  simp only [State.settleMisses_eq, State.dueMiss_clock, and_self]

theorem TimeBase.matched_clock (tb : TimeBase) (e : Int) (p : Nat) :
    (tb.matched e p).st = tb.st ∧ (tb.matched e p).gen = tb.gen ∧ (tb.matched e p).period = tb.period ∧
      (tb.matched e p).phi = tb.phi := by
  unfold TimeBase.matched
  dsimp only
  split <;> exact ⟨rfl, rfl, rfl, rfl⟩

theorem State.edgeMatched_clock (s : State) (stamp p : Nat) :
    (s.edgeMatched stamp p).tb.st = s.tb.st ∧ (s.edgeMatched stamp p).tb.gen = s.tb.gen ∧
      (s.edgeMatched stamp p).tb.period = s.tb.period ∧ (s.edgeMatched stamp p).tb.phi = s.tb.phi := by
  rw [State.edgeMatched_tb]
  split
  · exact s.tb.matched_clock _ p
  · exact s.tb.matched_clock _ p

theorem State.edgeAcquiring_stepsTo {s : State} (h : s.tb.WF) (hst : s.tb.st < 2 ^ 63) :
    s.tb.StepsTo (s.edgeAcquiring s.tb.st).tb := by
  obtain ⟨-, -, -, -, -, -, hlegal, hphi, -⟩ := h
  rw [State.edgeAcquiring_eq]
  split
  · rw [State.align_tb]
    split
    next => exact .inl ⟨rfl, rfl⟩
    next hnone =>
      obtain ⟨hlt, hle⟩ := TimeBase.alignPoint_none (tb := s.tb.counted s.tb.st) hnone hlegal hphi
      have hperiod : s.tb.period.floorPeriod ≤ 16777215 :=
        (Nat.div_le_self _ _).trans ((Rate.legal_iff _).mp hlegal).2.1
      have hg : instant64 ((s.tb.counted s.tb.st).gridFrom s.tb.st) = (s.tb.counted s.tb.st).gridFrom s.tb.st :=
        instant64_of_lt (by change _ ≤ _ + s.tb.period.floorPeriod + 1 at hle; omega)
      refine .inr ⟨?_, ?_, rfl⟩
      · exact hlt.trans_eq hg.symm
      · exact hg.trans_le hle
  · exact .inl ⟨rfl, rfl⟩

theorem State.refEdge_stepsTo {s : State} (h : s.tb.WF) (hst : s.tb.st < 2 ^ 63) : s.tb.StepsTo s.refEdge.tb := by
  have hwf := State.settleMisses_tb_wf h
  obtain ⟨hst1, hgen1, hperiod1, -⟩ := s.settleMisses_clock
  have hsame : s.tb.StepsTo s.settleMisses.tb := .inl ⟨hst1, hgen1⟩
  rcases s.refEdge_cases with he | ⟨_, he⟩ | ⟨_, p, _, he⟩ | ⟨_, he⟩ <;> rw [he]
  · exact hsame
  · rw [hst1]
    have hacq := State.edgeAcquiring_stepsTo hwf (hst1.trans_lt hst)
    rwa [TimeBase.StepsTo, hgen1, hperiod1, hst1] at hacq
  · obtain ⟨hst2, hgen2, -⟩ := s.settleMisses.edgeMatched_clock s.settleMisses.tb.st p
    exact .inl ⟨hst2.trans hst1, hgen2.trans hgen1⟩
  · rw [State.enterAcquiring_tb]
    exact hsame

/-- A tick moves ST by 0, 1 or 2 ticks: trim and slew are far below a whole tick. -/
theorem TimeBase.WF.tick_bounds {tb : TimeBase} (h : tb.WF) (hst : tb.st < 2 ^ 63) :
    tb.st ≤ tb.tick.st ∧ tb.tick.st ≤ tb.st + 2 := by
  obtain ⟨-, hrem, htrim, htrim', hslew, hslew', -⟩ := h
  have hlow : tb.st ≤ tb.nextSum / 1000000000 := by
    unfold TimeBase.nextSum
    omega
  have hhigh : tb.nextSum / 1000000000 ≤ tb.st + 2 := by
    unfold TimeBase.nextSum
    omega
  have hexact : tb.tick.st = tb.nextSum / 1000000000 := instant64_of_lt (by omega)
  omega

theorem setReferenceOrder_clock (o : Order) (s : State) :
    (setReferenceOrder o s).tb.st = s.tb.st ∧ (setReferenceOrder o s).tb.gen = s.tb.gen := by
  unfold setReferenceOrder
  split
  · simp
  · dsimp only
    split <;> split <;> simp [TimeBase.acquiring]

theorem handSetReference_clock (s : State) :
    (s.handOrder .setReference setReferenceOrder).tb.st = s.tb.st ∧
      (s.handOrder .setReference setReferenceOrder).tb.gen = s.tb.gen := by
  rcases s.handOrder_cases .setReference setReferenceOrder with ⟨o, _, _, he⟩ | he <;> rw [he]
  · exact setReferenceOrder_clock o s
  · exact ⟨rfl, rfl⟩

/-- OSCILLATOR_TICK, REFERENCE_EDGE and RESET apart, no command moves ST or G. -/
theorem exec_clock {c : Instr} {s t : State} (hreset : ∀ a b, c ≠ .reset a b) (htick : c ≠ .oscillatorTick)
    (hedge : c ≠ .referenceEdge) (h : exec c s = .next t) : t.tb.st = s.tb.st ∧ t.tb.gen = s.tb.gen := by
  cases hc : changesTimeBase c with
  | false => simp [exec_keepsTimeBase c s hc t h]
  | true =>
    rcases changesTimeBase_cases hc with ⟨a, b, rfl⟩ | rfl | rfl | rfl | rfl | rfl
    · exact absurd rfl (hreset a b)
    · exact absurd rfl hedge
    · rw [next_inj h]
      exact ⟨s.dueMiss_clock.1, s.dueMiss_clock.2.1⟩
    · rw [next_inj h]
      exact ⟨rfl, rfl⟩
    · rw [next_inj h]
      exact handSetReference_clock s
    · exact absurd rfl htick

/-- Settles O6: the tick by its exact sum, the reference edge by its one forward step. -/
theorem studioTimeNeverDecreases : Obligations.StudioTimeNeverDecreases := by
  intro c s t hreset hwf hst h
  by_cases htick : c = .oscillatorTick
  · subst htick
    rw [next_inj h]
    obtain ⟨hlow, hhigh⟩ := hwf.tick_bounds hst
    exact ⟨hlow, fun _ => ⟨hhigh, rfl⟩, fun hne => absurd rfl hne, nofun⟩
  · by_cases hedge : c = .referenceEdge
    · subst hedge
      rw [next_inj h]
      have hsteps := State.refEdge_stepsTo hwf hst
      refine ⟨?_, nofun, fun _ hne => absurd rfl hne, fun _ => hsteps⟩
      rcases hsteps with ⟨hsame, -⟩ | ⟨hlt, -⟩
      · exact hsame.ge
      · exact hlt.le
    · have hsame := exec_clock hreset htick hedge h
      exact ⟨hsame.1.ge, fun he => absurd he htick, fun _ _ => hsame, fun he => absurd he hedge⟩

end Sys2Proof.Machine
end

section
/-! Which commands can change the settings: what each effect of a command leaves unchanged. -/

namespace Sys2Proof.Machine

/-- The window size, the queue and the last register read. -/
theorem CommandEffect.keeps_frame {s t : State} {c : Instr} (h : CommandEffect s c t) :
    t.straps = s.straps ∧ t.pending = s.pending ∧ (c ≠ .timeLowRead → t.readData = s.readData) := by
  cases h with
  | timeLowRead => exact ⟨rfl, rfl, fun hne => absurd rfl hne⟩
  | _ => simp

theorem CommandEffect.keeps_mask {s t : State} {c : Instr} (h : CommandEffect s c t)
    (hc : ∀ v, c ≠ .attentionMaskWrite v) : t.oe.mask = s.oe.mask := by
  cases h with
  | attentionMaskWrite v => exact absurd rfl (hc v)
  | _ => simp

theorem CommandEffect.keeps_actions {s t : State} {c : Instr} (h : CommandEffect s c t) (hc : c ≠ .setAction) :
    t.lu.actions = s.lu.actions := by
  cases h with
  | setAction => exact absurd rfl hc
  | _ => simp

/-- The settings of the reference (R17): an edge or a miss never changes them. -/
theorem State.refEdge_settings (s : State) :
    s.refEdge.tb.period = s.tb.period ∧ s.refEdge.tb.phi = s.tb.phi := by
  obtain ⟨-, -, hsettled⟩ := s.settleMisses_clock
  rcases s.refEdge_cases with he | ⟨_, he⟩ | ⟨_, p, _, he⟩ | ⟨_, he⟩ <;> rw [he]
  · exact hsettled
  · rw [State.edgeAcquiring_eq]
    split
    · rw [State.align_tb]
      split <;> exact hsettled
    · exact hsettled
  · rw [(State.edgeMatched_clock _ _ _).2.2.1, (State.edgeMatched_clock _ _ _).2.2.2]
    exact hsettled
  · rw [State.enterAcquiring_tb]
    exact hsettled

theorem exec_settings {c : Instr} {s t : State} (hreset : ∀ a b, c ≠ .reset a b) (hset : c ≠ .setReference)
    (h : exec c s = .next t) : t.tb.period = s.tb.period ∧ t.tb.phi = s.tb.phi := by
  cases hc : changesTimeBase c with
  | false => simp [exec_keepsTimeBase c s hc t h]
  | true =>
    rcases changesTimeBase_cases hc with ⟨a, b, rfl⟩ | rfl | rfl | rfl | rfl | rfl
    · exact absurd rfl (hreset a b)
    · rw [next_inj h]
      exact s.refEdge_settings
    · rw [next_inj h]
      exact s.dueMiss_clock.2.2
    · rw [next_inj h]
      exact ⟨rfl, rfl⟩
    · exact absurd rfl hset
    · rw [next_inj h]
      exact ⟨rfl, rfl⟩

/-- Settles O13. -/
theorem onlyTheirCommandsChange : Obligations.OnlyTheirCommandsChange := by
  intro c s t hreset h
  have heff := exec_effects c s hreset t h
  obtain ⟨hstraps, hpending, hread⟩ := heff.keeps_frame
  exact ⟨fun hset => exec_settings hreset hset h, heff.keeps_mask, heff.keeps_actions, hstraps, hread, hpending⟩

end Sys2Proof.Machine
end

section
/-! Device records (R89, R119): what a well-formed record is in each of its states, and when a well-formed record
follows another in its slot. -/

namespace Sys2Proof.Machine

/-! ## A well-formed record, state by state -/

/-- A record that is well formed (R89). -/
def Device.WF (d : Device) : Prop := d.PartsWF ∧ d.ValuesWF

/-- The four states that an occupied record has outside a jam and absence. -/
theorem DevState.rememberable_iff (st : DevState) :
    st.rememberable = true ↔ st = .enrolled ∨ st = .settling ∨ st = .locked ∨ st = .drifting := by
  cases st <;> simp [DevState.rememberable]

/-- The tie to studio time as a state asks for it, and the counts that go with it. -/
def Device.TieWF (d : Device) (st : DevState) : Prop :=
  (st = .settling ∨ st = .locked → d.anchor.isSome = true) ∧ (st = .enrolled → d.anchor = none) ∧
  (d.verify.isSome = true → d.anchor.isSome = true ∧ d.boundTo = none) ∧
  (d.offset.isSome = true ↔ d.boundTo.isSome = true ∧ d.anchor.isSome = true) ∧
  d.good ≤ 3 ∧ d.bad ≤ 2 ∧ (st = .locked → d.bad ≤ 1)

/-- The ranges of an occupied record's values. -/
def Device.RangesWF (d : Device) : Prop :=
  -100000 ≤ d.drift ∧ d.drift ≤ 100000 ∧ (d.boundTo.isSome = true → d.drift = 0) ∧
  1 ≤ d.linkAddr ∧ d.linkAddr ≤ 63 ∧ d.rate.legal = true ∧ d.fmt.legal = true ∧ 1 ≤ d.window ∧
  d.window ≤ 1000000 ∧ d.pathDelay ≤ 65535 ∧ ¬(d.cls = .suite ∧ d.recovery = .jam)

/-- A jam context in its ranges. -/
def JamContext.WF (j : JamContext) : Prop :=
  j.remembered.rememberable = true ∧ j.retries ≤ 3 ∧ j.reports ≤ 5 ∧
    ∀ delay, j.pendingDelay = some delay → delay ≤ 65535

theorem Device.translationState_of_ne {d : Device} (h : d.state ≠ .jamming) : d.translationState = d.state := by
  unfold Device.translationState
  split
  · exact absurd ‹_› h
  · rfl

theorem Device.translationState_jamming {d : Device} {j : JamContext} (h : d.state = .jamming) (hj : d.jam = some j) :
    d.translationState = j.remembered := by
  simp only [Device.translationState, h, hj]

theorem Device.occupied_iff (d : Device) : d.occupied = true ↔ d.state ≠ .empty := by
  simp [Device.occupied]

theorem Device.valuesWF_occupied {d : Device} (h : d.occupied = true) :
    d.ValuesWF ↔ d.RangesWF ∧ ∀ j, d.jam = some j → ∀ delay, j.pendingDelay = some delay → delay ≤ 65535 := by
  simp [Device.ValuesWF, Device.RangesWF, h, and_assoc]

theorem Device.wf_present {d : Device} (hs : d.state.rememberable = true) :
    d.WF ↔ d.jam = none ∧ d.before = none ∧ d.miss ≤ 7 ∧ d.TieWF d.state ∧ d.RangesWF := by
  have hne : d.state ≠ .jamming ∧ d.state ≠ .absent ∧ d.state ≠ .empty := by
    rw [DevState.rememberable_iff] at hs
    rcases hs with hs | hs | hs | hs <;> simp [hs]
  rw [Device.WF, Device.PartsWF, Device.valuesWF_occupied ((Device.occupied_iff d).mpr hne.2.2),
    Device.translationState_of_ne hne.1, Device.TieWF]
  cases d.jam <;> cases d.before <;> simp [hne]
  grind

theorem Device.wf_jamming {d : Device} (hs : d.state = .jamming) :
    d.WF ↔ ∃ j, d.jam = some j ∧ j.WF ∧ d.before = none ∧ d.miss ≤ 7 ∧ d.TieWF j.remembered ∧ d.RangesWF := by
  rw [Device.WF, Device.PartsWF, Device.valuesWF_occupied ((Device.occupied_iff d).mpr (by simp [hs]))]
  cases hj : d.jam with
  | none => simp [hs]
  | some j =>
    rw [Device.translationState_jamming hs hj]
    unfold Device.TieWF JamContext.WF
    cases d.before <;> simp [hs]
    grind

theorem Device.wf_absent {d : Device} (hs : d.state = .absent) :
    d.WF ↔ d.jam = none ∧ (∃ b, d.before = some b ∧ b.rememberable = true ∧
      (b = .settling ∨ b = .locked → d.anchor.isSome = true)) ∧ d.miss ≤ 8 ∧ d.TieWF .absent ∧ d.RangesWF := by
  rw [Device.WF, Device.PartsWF, Device.valuesWF_occupied ((Device.occupied_iff d).mpr (by simp [hs])),
    Device.translationState_of_ne (by simp [hs]), Device.TieWF]
  cases d.jam <;> cases d.before <;> simp [hs]
  grind

theorem Device.emptyRecord_wf (held : Bool) (r : Option Result) :
    ({ Device.emptyRecord with held := held, lastResult := r } : Device).WF := by
  constructor <;>
    simp [Device.PartsWF, Device.ValuesWF, Device.emptyRecord, Device.translationState, Device.occupied]

/-! ## Ties and ranges -/

section

variable {d : Device} {st : DevState}

/-- Outside SETTLING, LOCKED and ENROLLED any tie will do. -/
theorem Device.TieWF.loosen (h : d.TieWF st) {st' : DevState} (hst : st' = .drifting ∨ st' = .absent) :
    d.TieWF st' := by
  obtain ⟨-, -, hverify, hoffset, hgood, hbad, -⟩ := h
  refine ⟨?_, ?_, hverify, hoffset, hgood, hbad, ?_⟩ <;> rcases hst with rfl | rfl <;> simp

/-- A record that has forgotten its tie suits every state that asks for none. -/
theorem Device.forget_tieWF (d : Device) (hst : st ≠ .settling ∧ st ≠ .locked) : d.forget.TieWF st := by
  simp [Device.TieWF, Device.forget, hst]

theorem Device.adopted_tieWF {offset : Option Int} (h : offset.isSome = d.boundTo.isSome) (label edge : Nat) :
    (d.adopted label edge offset).TieWF .settling := by
  simp [Device.TieWF, Device.adopted, h]

theorem Device.notAdopted_tieWF (h : d.good ≤ 3 ∧ d.bad ≤ 2) : d.notAdopted.TieWF .enrolled := by
  simp [Device.TieWF, Device.notAdopted, h]

end

/-! ## A record that succeeds another in its slot -/

/-- The occupancy, the link address and the bound channel stay: what other slots and the channels see of a record. -/
def Device.SameHolder (d d' : Device) : Prop :=
  d'.occupied = d.occupied ∧ d'.linkAddr = d.linkAddr ∧ d'.boundTo = d.boundTo

/-- A well-formed record that follows another in its slot. -/
def Device.Succeeds (d d' : Device) : Prop := d'.WF ∧ d.SameHolder d'

theorem Device.SameHolder.trans {a b c : Device} (h : a.SameHolder b) (h' : b.SameHolder c) : a.SameHolder c := by
  obtain ⟨hocc, haddr, hbound⟩ := h
  obtain ⟨hocc', haddr', hbound'⟩ := h'
  exact ⟨hocc'.trans hocc, haddr'.trans haddr, hbound'.trans hbound⟩

theorem Device.Succeeds.refl {d : Device} (h : d.WF) : d.Succeeds d := ⟨h, rfl, rfl, rfl⟩

theorem Device.SameHolder.succeeds {a b c : Device} (h : a.SameHolder b) (h' : b.Succeeds c) : a.Succeeds c :=
  ⟨h'.1, h.trans h'.2⟩

theorem Device.Succeeds.trans {a b c : Device} (h : a.Succeeds b) (h' : b.Succeeds c) : a.Succeeds c :=
  h.2.succeeds h'

section

variable {d d' : Device}

/-- The states of an occupied record that is neither JAMMING nor ABSENT are never EMPTY. -/
theorem Device.occupied_of_rememberable (h : d.state.rememberable = true) : d.occupied = true := by
  rw [Device.occupied_iff]
  rintro he
  simp [he, DevState.rememberable] at h

/-- A record that is outside a jam and absence succeeds an occupied one of the same values. -/
theorem Device.succeeds_present (hocc : d.occupied = true) (hs : d'.state.rememberable = true)
    (hsame : d'.linkAddr = d.linkAddr ∧ d'.boundTo = d.boundTo) (hjam : d'.jam = none) (hbefore : d'.before = none)
    (hmiss : d'.miss ≤ 7) (htie : d'.TieWF d'.state) (hranges : d'.RangesWF) : d.Succeeds d' :=
  ⟨(Device.wf_present hs).mpr ⟨hjam, hbefore, hmiss, htie, hranges⟩,
    (Device.occupied_of_rememberable hs).trans hocc.symm, hsame⟩

/-- What every occupied record has, whatever its state. -/
theorem Device.WF.occupied_core (h : d.WF) (hocc : d.occupied = true) :
    d.RangesWF ∧ d.miss ≤ 8 ∧ d.good ≤ 3 ∧ d.bad ≤ 2 := by
  obtain ⟨⟨-, -, -, -, -, -, hgood, hbad, -, hmiss, -⟩, hvalues⟩ := h
  exact ⟨((Device.valuesWF_occupied hocc).mp hvalues).1, hmiss, hgood, hbad⟩

end

end Sys2Proof.Machine
end

section
/-! The changes of a device record, each of which leaves a well-formed record that succeeds the one before it. -/

namespace Sys2Proof.Machine

section

variable {d : Device} {j : JamContext}

theorem DevState.ne_of_rememberable {st : DevState} (h : st.rememberable = true) :
    st ≠ .empty ∧ st ≠ .jamming ∧ st ≠ .absent := by
  rcases (DevState.rememberable_iff st).mp h with rfl | rfl | rfl | rfl <;> simp

/-! ## Changes that touch neither state nor tie -/

/-- Values of an occupied record whose jam context stays. -/
theorem Device.ValuesWF.of_occupied {d' : Device} (h : d.ValuesWF) (hocc : d.occupied = true)
    (hocc' : d'.occupied = true) (hranges : d.RangesWF → d'.RangesWF) (hjam : d'.jam = d.jam) : d'.ValuesWF := by
  obtain ⟨hr, hpending⟩ := (Device.valuesWF_occupied hocc).mp h
  exact (Device.valuesWF_occupied hocc').mpr ⟨hranges hr, hjam ▸ hpending⟩

/-- The hold and the last result code are no part of what makes a record well formed, EMPTY or not. -/
theorem Device.WF.shown (h : d.WF) (held : Bool) (r : Option Result) :
    d.Succeeds { d with held := held, lastResult := r } := by
  obtain ⟨hparts, hlow, hhigh, hbound, hocc, hempty, hdelay⟩ := h
  refine ⟨⟨hparts, hlow, hhigh, hbound, hocc, fun he => ?_, hdelay⟩, rfl, rfl, rfl⟩
  rw [hempty he]

theorem Device.WF.clearedHold (h : d.WF) : d.Succeeds { d with held := false } := h.shown false d.lastResult

theorem Device.WF.result (h : d.WF) (r : Option Result) : d.Succeeds { d with lastResult := r } := h.shown d.held r

theorem Device.WF.marked (h : d.WF) (hocc : d.occupied = true) (n : BitVec 16) :
    d.Succeeds { d with marksLogged := n } := by
  obtain ⟨hparts, hvalues⟩ := h
  exact ⟨⟨hparts, hvalues.of_occupied hocc hocc id rfl⟩, rfl, rfl, rfl⟩

/-- What every REPORT changes (R91). -/
theorem Device.WF.reported (h : d.WF) (hocc : d.occupied = true) (p q : Bool) :
    d.Succeeds { d with miss := 0, protectedFlag := p, dualTrack := q } := by
  obtain ⟨⟨hjam, htie, hnone, hverify, hoffset, hbefore, hgood, hbad, hbad', -, -, hctx, hstate⟩, hvalues⟩ := h
  exact ⟨⟨⟨hjam, htie, hnone, hverify, hoffset, hbefore, hgood, hbad, hbad', Nat.zero_le _, fun _ => Nat.zero_le _,
    hctx, hstate⟩, hvalues.of_occupied hocc hocc id rfl⟩, rfl, rfl, rfl⟩

/-- A miss below the eighth (R99). -/
theorem Device.WF.missed (h : d.WF) (hocc : d.occupied = true) (hm : d.miss + 1 ≤ 7) :
    d.Succeeds { d with miss := d.miss + 1 } := by
  obtain ⟨⟨hjam, htie, hnone, hverify, hoffset, hbefore, hgood, hbad, hbad', -, -, hctx, hstate⟩, hvalues⟩ := h
  exact ⟨⟨⟨hjam, htie, hnone, hverify, hoffset, hbefore, hgood, hbad, hbad', hm.trans (by decide), fun _ => hm,
    hctx, hstate⟩, hvalues.of_occupied hocc hocc id rfl⟩, rfl, rfl, rfl⟩

/-- The settings of a SET DEVICE, its path delay apart (R108). -/
theorem Device.WF.configured (h : d.WF) (hocc : d.occupied = true) {window : Nat} {recovery : Recovery}
    (source : Option (Fin 16)) (hw : 1 ≤ window ∧ window ≤ 1000000) (hcls : ¬(d.cls = .suite ∧ recovery = .jam)) :
    d.Succeeds { d with window := window, recovery := recovery, jamSource := source } := by
  obtain ⟨hparts, hvalues⟩ := h
  refine ⟨⟨hparts, hvalues.of_occupied hocc hocc (fun hr => ?_) rfl⟩, rfl, rfl, rfl⟩
  obtain ⟨hlow, hhigh, hbound, haddr, haddr', hrate, hfmt, -, -, hdelay, -⟩ := hr
  exact ⟨hlow, hhigh, hbound, haddr, haddr', hrate, hfmt, hw.1, hw.2, hdelay, hcls⟩

/-! ## Changes between the four states of R92 to R98 -/

/-- Entry into DRIFTING from a record that is neither JAMMING nor ABSENT, with its bad count (R95, R101). -/
theorem Device.WF.drifted (h : d.WF) (hs : d.state.rememberable = true) {bad : Nat} (hbad : bad ≤ 2) :
    d.Succeeds { d with bad := bad, state := .drifting } := by
  obtain ⟨hjam, hbefore, hmiss, htie, hranges⟩ := (Device.wf_present hs).mp h
  obtain ⟨hset, hnone, hverify, hoffset, hgood, -, -⟩ := htie.loosen (.inl rfl)
  exact Device.succeeds_present (Device.occupied_of_rememberable hs) rfl ⟨rfl, rfl⟩ hjam hbefore hmiss
    ⟨hset, hnone, hverify, hoffset, hgood, hbad, nofun⟩ hranges

/-- Entry into ABSENT with the state that it remembers (R100). -/
theorem Device.WF.absented (h : d.WF) (hs : d.state.rememberable = true) {miss : Nat} (hm : miss ≤ 8) :
    d.Succeeds { d with miss := miss, state := .absent, before := some d.state } := by
  obtain ⟨hjam, -, -, htie, hranges⟩ := (Device.wf_present hs).mp h
  exact ⟨(Device.wf_absent rfl).mpr ⟨hjam, ⟨d.state, rfl, hs, htie.1⟩, hm, htie.loosen (.inr rfl), hranges⟩,
    (Device.occupied_of_rememberable hs).symm, rfl, rfl⟩

/-- A record that forgets its tie and is ENROLLED again, its path delay set anew (R102, R109, R111). -/
theorem Device.WF.reenrolled (h : d.WF) (hs : d.state.rememberable = true) {delay : Nat} (hd : delay ≤ 65535) :
    d.Succeeds { d.forget with pathDelay := delay, state := .enrolled } := by
  obtain ⟨hjam, hbefore, hmiss, -, hlow, hhigh, hbound, haddr, haddr', hrate, hfmt, hw, hw', -, hcls⟩ :=
    (Device.wf_present hs).mp h
  exact Device.succeeds_present (Device.occupied_of_rememberable hs) rfl ⟨rfl, rfl⟩ hjam hbefore hmiss
    (d.forget_tieWF (by simp)) ⟨hlow, hhigh, hbound, haddr, haddr', hrate, hfmt, hw, hw', hd, hcls⟩

/-- An ABSENT record that forgets its tie, its path delay set anew (R109, R111). -/
theorem Device.WF.forgottenAbsent (h : d.WF) (hs : d.state = .absent) {delay : Nat} (hd : delay ≤ 65535) :
    d.Succeeds { d.forget with pathDelay := delay, before := some .enrolled } := by
  obtain ⟨hjam, -, hmiss, -, hlow, hhigh, hbound, haddr, haddr', hrate, hfmt, hw, hw', -, hcls⟩ :=
    (Device.wf_absent hs).mp h
  exact ⟨(Device.wf_absent (by simpa using hs)).mpr ⟨hjam, ⟨.enrolled, rfl, rfl, by simp⟩, hmiss,
    d.forget_tieWF (by simp), ⟨hlow, hhigh, hbound, haddr, haddr', hrate, hfmt, hw, hw', hd, hcls⟩⟩, rfl, rfl, rfl⟩

theorem Device.WF.pathDelay_le (h : d.WF) (hocc : d.occupied = true) : d.pathDelay ≤ 65535 := by
  obtain ⟨-, -, -, -, -, -, -, -, -, hdelay, -⟩ := (h.occupied_core hocc).1
  exact hdelay

theorem Device.WF.readopted (h : d.WF) (hs : d.state ≠ .empty ∧ d.state ≠ .jamming) : d.Succeeds d.readopt := by
  have hdelay := h.pathDelay_le ((Device.occupied_iff d).mpr hs.1)
  unfold Device.readopt
  split
  next habs => exact h.forgottenAbsent habs hdelay
  next hne => exact h.reenrolled (by revert hs hne; cases d.state <;> simp [DevState.rememberable]) hdelay

theorem Device.WF.delayChanged (h : d.WF) {delay : Nat} (hd : delay ≤ 65535) : d.Succeeds (d.changeDelay delay) := by
  unfold Device.changeDelay
  split
  case h_5 habs => exact h.forgottenAbsent habs hd
  case h_6 => exact .refl h
  case h_7 => exact .refl h
  all_goals exact h.reenrolled (by simp [*, DevState.rememberable]) hd

/-- Adoption: the record is SETTLING with a new anchor (R92). -/
theorem Device.adopted_succeeds {label edge : Nat} {offset : Option Int} (hocc : d.occupied = true)
    (hjam : d.jam = none) (hbefore : d.before = none) (hmiss : d.miss ≤ 7) (hranges : d.RangesWF)
    (hoffset : offset.isSome = d.boundTo.isSome) : d.Succeeds (d.adopted label edge offset) :=
  Device.succeeds_present hocc rfl ⟨rfl, rfl⟩ hjam hbefore hmiss (Device.adopted_tieWF hoffset label edge) hranges

theorem Device.notAdopted_succeeds (hocc : d.occupied = true) (hjam : d.jam = none) (hbefore : d.before = none)
    (hmiss : d.miss ≤ 7) (hcounts : d.good ≤ 3 ∧ d.bad ≤ 2) (hranges : d.RangesWF) : d.Succeeds d.notAdopted :=
  Device.succeeds_present hocc rfl ⟨rfl, rfl⟩ hjam hbefore hmiss (Device.notAdopted_tieWF hcounts) hranges

/-- A consistent REPORT's counts, and the lock (R94). -/
theorem Device.WF.consistent (h : d.WF) (hs : d.state = .settling ∨ d.state = .locked) {st : DevState}
    (hst : st = .settling ∨ st = .locked) {good : Nat} (hg : good ≤ 3) :
    d.Succeeds { d with bad := 0, good := good, state := st } := by
  have hrem : ∀ {x : DevState}, x = .settling ∨ x = .locked → x.rememberable = true := by
    rintro x (rfl | rfl) <;> rfl
  obtain ⟨hjam, hbefore, hmiss, ⟨hset, -, hverify, hoffset, -⟩, hranges⟩ := (Device.wf_present (hrem hs)).mp h
  exact Device.succeeds_present (Device.occupied_of_rememberable (hrem hs)) (hrem hst) ⟨rfl, rfl⟩ hjam hbefore hmiss
    ⟨fun _ => hset hs, by rcases hst with rfl | rfl <;> simp, hverify, hoffset, hg, Nat.zero_le _,
      fun _ => Nat.zero_le _⟩ hranges

/-- A new verify point and drift measured of an unbound record (R94, R40). -/
theorem Device.WF.measured (h : d.WF) (hs : d.state = .settling ∨ d.state = .locked) (hbound : d.boundTo = none)
    (label edge : Nat) : d.Succeeds (d.measure label edge).1 ∧ (d.measure label edge).1.state = d.state := by
  have hrem : d.state.rememberable = true := by rcases hs with hs | hs <;> rw [hs] <;> rfl
  obtain ⟨hjam, hbefore, hmiss, ⟨hset, hnone, -, hoffset, hgood, hbad, hlock⟩, hlow, hhigh, hzero, hrest⟩ :=
    (Device.wf_present hrem).mp h
  have hne : ∀ drift : Int, d.boundTo.isSome = true → drift = 0 := by simp [hbound]
  -- a record that differs in verify point, drift and clamp flag alone
  have key : ∀ (v : Tie) (drift : Int) (clamped : Bool), -100000 ≤ drift → drift ≤ 100000 →
      d.Succeeds { d with verify := some v, drift := drift, driftClamped := clamped } := by
    intro v drift clamped hl hh
    exact Device.succeeds_present (Device.occupied_of_rememberable hrem) hrem ⟨rfl, rfl⟩ hjam hbefore hmiss
      ⟨hset, hnone, fun _ => ⟨hset hs, hbound⟩, hoffset, hgood, hbad, hlock⟩ ⟨hl, hh, hne drift, hrest⟩
  unfold Device.measure
  split
  next => exact ⟨.refl h, rfl⟩
  next =>
    dsimp only
    split
    next => exact ⟨key _ d.drift d.driftClamped hlow hhigh, rfl⟩
    next =>
      split_ifs
      · exact ⟨key _ _ _ (by decide) (by decide), rfl⟩
      · exact ⟨key _ _ _ (by decide) (by decide), rfl⟩
      · exact ⟨key _ _ _ (by omega) (by omega), rfl⟩

/-! ## Jams -/

/-- A jam accepted from one of the four states (R119, R121, R122). -/
theorem Device.WF.jamStarted (h : d.WF) (hs : d.state.rememberable = true) (source : Fin 16) (origin : JamOrigin)
    {retries : Nat} (hr : retries ≤ 3) (waiting : Bool) :
    d.Succeeds { d with state := .jamming, jam := some (.start source origin d.state retries waiting) } := by
  obtain ⟨-, hbefore, hmiss, htie, hranges⟩ := (Device.wf_present hs).mp h
  exact ⟨(Device.wf_jamming rfl).mpr ⟨_, rfl, ⟨hs, hr, by simp [JamContext.start], by simp [JamContext.start]⟩,
    hbefore, hmiss, htie, hranges⟩, (Device.occupied_of_rememberable hs).symm, rfl, rfl⟩

/-- A record with a jam context is JAMMING. -/
theorem Device.WF.jamming_of_jam (h : d.WF) (hj : d.jam = some j) : d.state = .jamming := h.1.1.mp (by simp [hj])

/-- A jam context that remembers the state it did, or DRIFTING in its place (R103). -/
theorem Device.WF.withJam (h : d.WF) (hj : d.jam = some j) {j' : JamContext} (hj' : j'.WF)
    (hrem : j'.remembered = j.remembered ∨ j'.remembered = .drifting) : d.Succeeds { d with jam := some j' } := by
  have hs := h.jamming_of_jam hj
  obtain ⟨j0, hj0, -, hbefore, hmiss, htie, hranges⟩ := (Device.wf_jamming hs).mp h
  obtain rfl : j0 = j := Option.some.inj (hj0.symm.trans hj)
  have htie' : d.TieWF j'.remembered := by
    rcases hrem with he | he <;> rw [he]
    · exact htie
    · exact htie.loosen (.inl rfl)
  exact ⟨(Device.wf_jamming (d := { d with jam := some j' }) hs).mpr
    ⟨j', rfl, hj', hbefore, hmiss, htie', hranges⟩, rfl, rfl, rfl⟩

theorem Device.WF.jam_wf (h : d.WF) (hj : d.jam = some j) : j.WF := by
  obtain ⟨j0, hj0, hwf, -⟩ := (Device.wf_jamming (h.jamming_of_jam hj)).mp h
  obtain rfl : j0 = j := Option.some.inj (hj0.symm.trans hj)
  exact hwf

/-- Once a SET has been sent, the remembered state asks for no tie (R128). -/
theorem JamContext.WF.stateAfter (h : j.WF) :
    j.stateAfter.rememberable = true ∧ (j.setSent = true → j.stateAfter ≠ .settling ∧ j.stateAfter ≠ .locked) ∧
      (j.setSent = false → j.stateAfter = j.remembered) := by
  have hrem := h.1
  unfold JamContext.stateAfter
  cases j.setSent
  · exact ⟨hrem, by simp, fun _ => rfl⟩
  · rcases (DevState.rememberable_iff _).mp hrem with he | he | he | he <;> simp [he, DevState.rememberable]

/-- The record that an unfinished jam leaves: without its tie once a SET has been sent (R128 step 1). -/
def Device.unjammed (d : Device) (j : JamContext) : Device := if j.setSent then d.forget else d

theorem Device.unjammed_same (d : Device) (j : JamContext) :
    (d.unjammed j).linkAddr = d.linkAddr ∧ (d.unjammed j).boundTo = d.boundTo ∧ (d.unjammed j).before = d.before ∧
      (d.unjammed j).miss = d.miss ∧ ((d.unjammed j).RangesWF ↔ d.RangesWF) := by
  unfold Device.unjammed
  split <;> exact ⟨rfl, rfl, rfl, rfl, Iff.rfl⟩

theorem Device.unjammed_tieWF (h : d.TieWF j.remembered) (hj : j.WF) : (d.unjammed j).TieWF j.stateAfter := by
  obtain ⟨-, hsent, hunsent⟩ := hj.stateAfter
  unfold Device.unjammed
  cases hset : j.setSent
  · rw [hunsent hset]
    exact h
  · exact d.forget_tieWF (hsent hset)

/-- The record at the end of a jam that did not pass: PROTECTED, VERIFY ERROR, SOURCE STOPPED or NO ANSWER (R128). -/
theorem Device.WF.jamEnded (h : d.WF) (hj : d.jam = some j) {o : JamOutcome} (ho : o ≠ .done ∧ o ≠ .abandoned) :
    d.Succeeds { d.jamEnded j o with jam := none } := by
  have hs := h.jamming_of_jam hj
  have hjwf := h.jam_wf hj
  obtain ⟨j0, hj0, -, hbefore, hmiss, htie, hranges⟩ := (Device.wf_jamming hs).mp h
  obtain rfl : j0 = j := Option.some.inj (hj0.symm.trans hj)
  have hocc : d.occupied = true := (Device.occupied_iff d).mpr (by simp [hs])
  obtain ⟨haddr, hbound, hbefore', hmiss', hranges'⟩ := d.unjammed_same j0
  have htie' := Device.unjammed_tieWF htie hjwf
  obtain ⟨hrem, hsent, -⟩ := hjwf.stateAfter
  -- the record in the state left, which is the remembered one or DRIFTING
  have key : ∀ st : DevState, st = j0.stateAfter ∨ st = .drifting →
      d.Succeeds { d.unjammed j0 with state := st, jam := none } := by
    rintro st hst
    have htie'' : (d.unjammed j0).TieWF st := by
      rcases hst with rfl | rfl
      · exact htie'
      · exact htie'.loosen (.inl rfl)
    have hrem' : st.rememberable = true := by
      rcases hst with rfl | rfl
      · exact hrem
      · rfl
    exact Device.succeeds_present hocc hrem' ⟨haddr, hbound⟩ rfl (hbefore'.trans hbefore) (hmiss'.trans_le hmiss) htie''
      (hranges'.mpr hranges)
  cases o with
  | done => exact absurd rfl ho.1
  | abandoned => exact absurd rfl ho.2
  | protectedDevice => exact key _ (.inl rfl)
  | verifyError => exact key _ (.inr rfl)
  | sourceStopped =>
    refine key (if j0.setSent then .drifting else j0.stateAfter) ?_
    split
    · exact .inr rfl
    · exact .inl rfl
  | noAnswer =>
    have hanchor : j0.stateAfter = .settling ∨ j0.stateAfter = .locked → (d.unjammed j0).anchor.isSome = true :=
      htie'.1
    exact ⟨(Device.wf_absent rfl).mpr ⟨rfl, ⟨_, rfl, hrem, hanchor⟩,
      (hmiss'.trans_le hmiss).trans (by decide), htie'.loosen (.inr rfl), hranges'.mpr hranges⟩,
      hocc.symm, haddr, hbound⟩

/-! ## Time steps (R104) -/

/-- A jam context with its SET instant moved. -/
def JamContext.shift (step : Nat) (j : JamContext) : JamContext :=
  { j with setInstant := j.setInstant.map (fun t => instant64 (t + step)) }

/-- A step moves instants and nothing else of a record. -/
theorem Device.shift_eq (d : Device) (step : Nat) :
    ∃ anchor verify, anchor.isSome = d.anchor.isSome ∧ verify.isSome = d.verify.isSome ∧
      d.shift step = { d with anchor := anchor, verify := verify, jam := d.jam.map (JamContext.shift step) } := by
  unfold Device.shift
  dsimp only
  split
  · exact ⟨_, _, by simp, by simp, rfl⟩
  · exact ⟨d.anchor, d.verify, rfl, rfl, rfl⟩

theorem Device.WF.shifted (h : d.WF) (step : Nat) : d.Succeeds (d.shift step) := by
  obtain ⟨anchor, verify, hanchor, hverify, he⟩ := d.shift_eq step
  have hnone : d.anchor = none → anchor = none := by
    rintro hd
    simpa [hd] using hanchor
  -- a tie stands as it did
  have htie : ∀ st, d.TieWF st → ({ d with anchor := anchor, verify := verify } : Device).TieWF st := by
    rintro st ⟨hset, hno, hver, hoff, hgood, hbad, hlock⟩
    exact ⟨fun hs => hanchor.trans (hset hs), fun hs => hnone (hno hs), by simpa [hanchor, hverify] using hver,
      by simpa [hanchor] using hoff, hgood, hbad, hlock⟩
  have hsucceeds : ∀ d' : Device, d'.WF → d'.state = d.state → d'.linkAddr = d.linkAddr → d'.boundTo = d.boundTo →
      d.Succeeds d' := fun d' hwf hs haddr hbound => ⟨hwf, by simp [Device.occupied, hs], haddr, hbound⟩
  cases hs : d.state with
  | empty =>
    have hempty := h.2.2.2.2.2.1 (by simp [Device.occupied, hs])
    have hsame : d.shift step = d := by
      rw [hempty]
      rfl
    rw [hsame]
    exact .refl h
  | jamming =>
    obtain ⟨j, hj, hjwf, hbefore, hmiss, ht, hranges⟩ := (Device.wf_jamming hs).mp h
    exact he ▸ hsucceeds _ (Iff.mpr (Device.wf_jamming hs)
      ⟨j.shift step, by simp [hj], hjwf, hbefore, hmiss, htie _ ht, hranges⟩) rfl rfl rfl
  | absent =>
    obtain ⟨hj, ⟨b, hb, hrem, ha⟩, hmiss, ht, hranges⟩ := (Device.wf_absent hs).mp h
    exact he ▸ hsucceeds _ (Iff.mpr (Device.wf_absent hs)
      ⟨by simp [hj], ⟨b, hb, hrem, fun hst => hanchor.trans (ha hst)⟩, hmiss, htie _ ht, hranges⟩) rfl rfl rfl
  | enrolled | settling | locked | drifting =>
    have hrem : d.state.rememberable = true := by rw [hs]; rfl
    obtain ⟨hj, hbefore, hmiss, ht, hranges⟩ := (Device.wf_present hrem).mp h
    exact he ▸ hsucceeds _ (Iff.mpr (Device.wf_present hrem)
      ⟨by simp [hj], hbefore, hmiss, htie _ ht, hranges⟩) rfl rfl rfl

end

end Sys2Proof.Machine
end

section
/-! The records that an ENROL's parameters and a package image describe, and what their checks make sure of (R106,
R115). -/

namespace Sys2Proof.Machine

theorem bits_lt (w : Word) (hi lo : Nat) : bits w hi lo < 2 ^ (hi + 1 - lo) := Nat.mod_lt _ (Nat.two_pow_pos _)

theorem fmtOfCode_legal {c : Nat} {f : Fmt} (h : fmtOfCode c = some f) : f.legal = true := by
  unfold fmtOfCode at h
  dsimp only at h
  split at h
  case h_3 | h_6 => cases h; simp [Fmt.legal]
  case h_7 => cases h
  all_goals
    split at h
    · cases h
    · cases h; rfl

theorem windowParam_bounds {w : Word} {n : Nat} (h : windowParam w = some n) : 1 ≤ n ∧ n ≤ 1000000 := by
  unfold windowParam at h
  split at h
  next => cases h; decide
  next hne =>
    split at h
    next hle =>
      cases h
      exact ⟨Nat.pos_of_ne_zero fun he => hne (BitVec.eq_of_toNat_eq he), hle⟩
    next => cases h

/-- What an ENROL's parameters must be for it to describe a record, and the record (R106, R107). -/
theorem enrolledRecord_some {o : Order} {d : Device} (h : enrolledRecord o = some d) :
    ∃ fmt boundTo window recovery jamSource, fmt.legal = true ∧ 1 ≤ window ∧ window ≤ 1000000 ∧
      1 ≤ (o.p 1).toNat ∧ (o.p 1).toNat ≤ 63 ∧ Rate.legal ⟨(o.p 3).toNat, (o.p 4).toNat⟩ = true ∧
      d = { Device.emptyRecord with
            state := .enrolled, linkAddr := (o.p 1).toNat, cls := classOfCode (bits (o.p 2) 1 0),
            rate := ⟨(o.p 3).toNat, (o.p 4).toNat⟩, fmt := fmt, boundTo := boundTo,
            pathDelay := bits (o.p 5) 15 0, window := window, recovery := recovery, jamSource := jamSource } := by
  unfold enrolledRecord at h
  dsimp only at h
  split at h
  next fmt boundTo window recovery jamSource hfmt _ hwindow _ _ =>
    split at h
    next hok =>
      obtain ⟨haddr, haddr', hrate⟩ := hok
      obtain ⟨hw, hw'⟩ := windowParam_bounds hwindow
      exact ⟨fmt, boundTo, window, recovery, jamSource, fmtOfCode_legal hfmt, hw, hw', haddr, haddr', hrate,
        (Option.some.inj h).symm⟩
    next => cases h
  next => cases h

/-- An accepted ENROL's record is well formed, ENROLLED, its address free and its channel a PICTURE one. -/
theorem State.enrolCheck_ok {s : State} {i : Fin 48} {o : Order} {d : Device} (h : s.enrolCheck i o = .ok d) :
    d.WF ∧ d.state = .enrolled ∧ (s.slot i).occupied = false ∧ s.addressTaken i d.linkAddr = false ∧
      s.bindable d.boundTo = true := by
  unfold State.enrolCheck at h
  split at h
  next => cases h
  next d0 hd0 =>
    split_ifs at h with hocc hcls haddr hbind
    cases h
    obtain ⟨fmt, boundTo, window, recovery, jamSource, hfmt, hw, hw', haddr0, haddr1, hrate, rfl⟩ :=
      enrolledRecord_some hd0
    have hdelay : bits (o.p 5) 15 0 ≤ 65535 := Nat.le_of_lt_succ (bits_lt (o.p 5) 15 0)
    refine ⟨(Device.wf_present rfl).mpr ⟨rfl, rfl, by simp [Device.emptyRecord], ?_, ?_⟩, rfl, by simpa using hocc,
      by simpa using haddr, hbind⟩
    · simp [Device.TieWF, Device.emptyRecord]
    · exact ⟨by simp [Device.emptyRecord], by simp [Device.emptyRecord], fun _ => rfl, haddr0, haddr1, hrate, hfmt, hw,
        hw', hdelay, hcls⟩

/-! ## Package images -/

theorem imageBefore_rememberable {image : List Word} {b : DevState} (h : imageBefore image = some b) :
    b.rememberable = true := by
  unfold imageBefore at h
  split at h <;> cases h <;> rfl

/-- What the checks of R115 on a non-EMPTY image make sure of. -/
theorem State.imageCheck_ok {s : State} {i : Fin 48} {image : List Word} {st : DevState} {d : Device}
    (h : s.imageCheck i image st = .ok d) :
    ∃ fmt recovery, d = imageRecord image st fmt recovery ∧ fmt.legal = true ∧
      (st = .absent → imageBefore image ≠ none) ∧ d.linkAddr ≠ 0 ∧ s.addressTaken i d.linkAddr = false ∧
      d.rate.legal = true ∧ 1 ≤ d.window ∧ d.window ≤ 1000000 ∧ ¬(d.cls = .suite ∧ d.recovery = .jam) ∧
      s.bindable d.boundTo = true ∧ d.anchorFits = true ∧
      (d.boundTo.isSome = true ∨ d.verify.isNone = true ∨ d.anchor.isSome = true) ∧
      -100000 ≤ d.drift ∧ d.drift ≤ 100000 := by
  unfold State.imageCheck at h
  dsimp only at h
  split_ifs at h with hbefore haddr htaken
  split at h
  next fmt recovery hfmt _ =>
    split at h
    next hok =>
      cases h
      simp only [Bool.and_eq_true, Bool.or_eq_true, decide_eq_true_eq, Bool.not_eq_true', Bool.and_eq_false_iff,
        beq_eq_false_iff_ne] at hok
      obtain ⟨⟨⟨⟨⟨⟨⟨⟨⟨hrate, hw⟩, hw'⟩, hcls⟩, hbind⟩, hanchor⟩, hverify⟩, -⟩, hlow⟩, hhigh⟩ := hok
      exact ⟨fmt, recovery, rfl, fmtOfCode_legal hfmt, fun hst hno => hbefore ⟨hst, hno⟩, haddr,
        Bool.eq_false_iff.mpr htaken,
        hrate, hw, hw', not_and_or.mpr hcls, hbind, hanchor, by tauto, hlow, hhigh⟩
    next => cases h
  next => cases h

/-- The record of an image whose state is one of the five that an image can bring in (R115). -/
theorem State.imageCheck_wf {s : State} {i : Fin 48} {image : List Word} {st : DevState} {d : Device}
    (hst : st.rememberable = true ∨ st = .absent) (h : s.imageCheck i image st = .ok d) : d.WF := by
  obtain ⟨fmt, recovery, rfl, hfmt, hbefore, haddr, -, hrate, hw, hw', hcls, -, hanchor, hverify, hlow, hhigh⟩ :=
    State.imageCheck_ok h
  have haddr' : bits (imageWord image 1) 13 8 ≤ 63 := Nat.le_of_lt_succ (bits_lt (imageWord image 1) 13 8)
  have hdelay : bits (imageWord image 4) 15 0 ≤ 65535 := Nat.le_of_lt_succ (bits_lt (imageWord image 4) 15 0)
  have hranges : (imageRecord image st fmt recovery).RangesWF := by
    refine ⟨hlow, hhigh, fun hb => ?_, Nat.pos_of_ne_zero haddr, haddr', hrate, hfmt, hw, hw', hdelay, hcls⟩
    simp only [imageRecord] at hb ⊢
    simp [hb]
  -- the tie, given what the state asks of the anchor
  have htie : ((st = .settling ∨ st = .locked) → (imageAnchor image).isSome = true) →
      (st = .enrolled → imageAnchor image = none) → (imageRecord image st fmt recovery).TieWF st := by
    intro hset hnone
    refine ⟨hset, hnone, ?_, ?_, Nat.zero_le _, Nat.zero_le _, fun _ => Nat.zero_le _⟩
    · simp only [imageRecord] at hverify ⊢
      cases hb : imageBound image with
      | some c => simp
      | none =>
        intro hv
        rcases hverify with hbound | hno | ha
        · simp [hb] at hbound
        · simp_all
        · exact ⟨ha, rfl⟩
    · simp only [imageRecord]
      cases imageBound image <;> cases imageAnchor image <;> simp
  rcases hst with hst | rfl
  · refine (Device.wf_present hst).mpr ⟨rfl, ?_, Nat.zero_le _, htie ?_ ?_, hranges⟩
    · exact if_neg (DevState.ne_of_rememberable hst).2.2
    · rintro (rfl | rfl) <;> exact hanchor
    · rintro rfl
      simpa [Device.anchorFits, imageRecord] using hanchor
  · obtain ⟨b, hb⟩ := Option.ne_none_iff_exists'.mp (hbefore rfl)
    refine (Device.wf_absent rfl).mpr ⟨rfl, ⟨b, hb, imageBefore_rememberable hb, ?_⟩, Nat.zero_le _,
      htie (by simp) (by simp), hranges⟩
    rintro (rfl | rfl) <;> simpa [Device.anchorFits, imageRecord, hb] using hanchor

/-- A valid image describes an EMPTY record or one that passed the checks (R115). -/
theorem State.validateImage_ok {s : State} {i : Fin 48} {image : List Word} {d : Device}
    (h : s.validateImage i image = .ok d) :
    d = Device.emptyRecord ∨ ∃ st, (st.rememberable = true ∨ st = .absent) ∧ s.imageCheck i image st = .ok d := by
  unfold State.validateImage at h
  split at h
  next => cases h
  next =>
    split at h
    next => cases h
    next => cases h
    next => exact .inl (Except.ok.inj h).symm
    next st hempty hjam _ =>
      refine .inr ⟨st, ?_, h⟩
      cases st <;> simp_all [DevState.rememberable]

/-! ## SET DEVICE -/

theorem setDeviceFields_bounds {o : Order} {delay window : Nat} {recovery : Recovery} {source : Option (Fin 16)}
    (h : setDeviceFields o = some (delay, window, recovery, source)) :
    delay ≤ 65535 ∧ 1 ≤ window ∧ window ≤ 1000000 := by
  unfold setDeviceFields at h
  dsimp only at h
  split at h
  next hwindow _ _ =>
    cases h
    exact ⟨Nat.le_of_lt_succ (bits_lt (o.p 1) 15 0), windowParam_bounds hwindow⟩
  next => cases h

theorem Device.WF.delaySet {d : Device} (h : d.WF) {delay : Nat} (hd : delay ≤ 65535) :
    d.Succeeds (d.setDelay delay) := by
  unfold Device.setDelay
  split
  next hs =>
    obtain ⟨j, hj, ⟨hrem, hretries, hreports, -⟩, -⟩ := (Device.wf_jamming hs).mp h
    rw [hj]
    refine h.withJam hj ⟨hrem, hretries, hreports, ?_⟩ (.inl rfl)
    dsimp only
    split
    · nofun
    · rintro _ ⟨⟩
      exact hd
  next =>
    split
    · exact .refl h
    · exact h.delayChanged hd

end Sys2Proof.Machine
end

section
/-! The roster's invariants (R81, R89, R90): each operation on a slot leaves there a well-formed record that succeeds
the one before it, changes no other slot, and keeps the urgent queue to JAMMING slots; only ENROL, RELEASE and an EXCHANGE's
swap put another record into a slot. -/

namespace Sys2Proof.Machine

theorem State.slot_congr {s t : State} (h : t.slots = s.slots) (i : Fin 48) : t.slot i = s.slot i := by
  rw [State.slot, h, State.slot]

@[simp] theorem State.raise_slot (s : State) (c : Cause) (i : Fin 48) : (s.raise c).slot i = s.slot i := rfl

@[simp] theorem State.sysEvent_slot (s : State) (ev : SysEvent) (i : Fin 48) : (s.sysEvent ev).slot i = s.slot i :=
  State.slot_congr (by simp) i

@[simp] theorem State.urgentRemove_slot (s : State) (k i : Fin 48) : (s.urgentRemove k).slot i = s.slot i := rfl

/-! ## Operations on one slot -/

/-- The urgent queue is well formed, were slot `i` to hold the record `d`. -/
def State.UrgentAs (s : State) (i : Fin 48) (d : Device) : Prop :=
  s.lc.urgent.Nodup ∧ (∀ k ∈ s.lc.urgent, k ≠ i → (s.slot k).state = .jamming) ∧ (i ∈ s.lc.urgent → d.state = .jamming)

theorem State.urgentAs_self {s : State} {i : Fin 48} : s.UrgentAs i (s.slot i) ↔ s.UrgentWF := by
  constructor
  · rintro ⟨hnodup, hothers, hself⟩
    refine ⟨hnodup, fun k hk => ?_⟩
    by_cases he : k = i
    · exact he ▸ hself (he ▸ hk)
    · exact hothers k hk he
  · rintro ⟨hnodup, hall⟩
    exact ⟨hnodup, fun k hk _ => hall k hk, hall i⟩

/-- From `s`, were slot `i` to hold the record `d`, to `t`: the slot's record succeeds `d`, every other slot stands, and
the urgent queue stays well formed. -/
structure State.SlotUpdate (s : State) (i : Fin 48) (d : Device) (t : State) : Prop where
  record : d.Succeeds (t.slot i)
  others : ∀ k ≠ i, t.slot k = s.slot k
  urgent : s.UrgentAs i d → t.UrgentWF

section

variable {s t u : State} {i : Fin 48} {d x : Device}

theorem State.SlotUpdate.setSlot (h : d.Succeeds x) (hx : d.state = .jamming → x.state = .jamming) :
    s.SlotUpdate i d (s.setSlot i x) where
  record := by simpa using h
  others k hk := by simp [hk]
  urgent := by
    rintro ⟨hnodup, hothers, hself⟩
    refine (State.urgentAs_self (i := i)).mp ⟨by simpa using hnodup, fun k hk hki => ?_, fun hi => ?_⟩
    · simpa [hki] using hothers k (by simpa using hk) hki
    · simpa using hx (hself (by simpa using hi))

/-- What leaves the slots and the link controller alone goes on from an update. -/
theorem State.SlotUpdate.of_frame (h : s.SlotUpdate i d t) (hslots : u.slots = t.slots) (hlc : u.lc = t.lc) :
    s.SlotUpdate i d u where
  record := State.slot_congr hslots i ▸ h.record
  others k hk := (State.slot_congr hslots k).trans (h.others k hk)
  urgent ha := by
    obtain ⟨hnodup, hall⟩ := h.urgent ha
    exact ⟨hlc ▸ hnodup, fun k hk => State.slot_congr hslots k ▸ hall k (hlc ▸ hk)⟩

/-- An update may start after what leaves the slots and the link controller alone. -/
theorem State.SlotUpdate.after_frame (h : t.SlotUpdate i d u) (hslots : t.slots = s.slots) (hlc : t.lc = s.lc) :
    s.SlotUpdate i d u where
  record := h.record
  others k hk := (h.others k hk).trans (State.slot_congr hslots k)
  urgent := by
    rintro ⟨hnodup, hothers, hself⟩
    exact h.urgent ⟨hlc ▸ hnodup, fun k hk hki => State.slot_congr hslots k ▸ hothers k (hlc ▸ hk) hki, hlc ▸ hself⟩

theorem State.SlotUpdate.trans (h : s.SlotUpdate i d t) (h' : t.SlotUpdate i (t.slot i) u) : s.SlotUpdate i d u where
  record := h.record.trans h'.record
  others k hk := (h'.others k hk).trans (h.others k hk)
  urgent ha := h'.urgent (State.urgentAs_self.mpr (h.urgent ha))

theorem State.SlotUpdate.refl (h : (s.slot i).WF) : s.SlotUpdate i (s.slot i) s :=
  ⟨.refl h, fun _ _ => rfl, State.urgentAs_self.mp⟩

/-- What the slot held when another record was written into it is of no account. -/
theorem State.SlotUpdate.after_setSlot (h : (s.setSlot i x).SlotUpdate i d t) : s.SlotUpdate i d t where
  record := h.record
  others k hk := (h.others k hk).trans (by simp [hk])
  urgent := by
    rintro ⟨hnodup, hothers, hself⟩
    refine h.urgent ⟨by simpa using hnodup, fun k hk hki => ?_, fun hi => hself (by simpa using hi)⟩
    simpa [hki] using hothers k (by simpa using hk) hki

/-- An update from the record `x`, written into the slot for a record `d` with the same holder. -/
theorem State.SlotUpdate.of_setSlot (hx : d.SameHolder x) (hj : d.state = .jamming → x.state = .jamming)
    (h : (s.setSlot i x).SlotUpdate i x t) : s.SlotUpdate i d t :=
  .after_setSlot (x := x) ⟨hx.succeeds h.record, h.others, fun ⟨hnodup, hothers, hself⟩ =>
    h.urgent ⟨hnodup, hothers, fun hi => hj (hself hi)⟩⟩

theorem State.SlotUpdate.urgentInsert (h : s.SlotUpdate i d t) (hjam : (t.slot i).state = .jamming) :
    s.SlotUpdate i d (t.urgentInsert i) where
  record := State.urgentInsert_slot t i i ▸ h.record
  others k hk := (State.urgentInsert_slot t i k).trans (h.others k hk)
  urgent ha := by
    obtain ⟨hnodup, hall⟩ := h.urgent ha
    have hslot : ∀ k, ((t.urgentInsert i).slot k).state = (t.slot k).state := fun k =>
      congrArg Device.state (State.urgentInsert_slot t i k)
    refine ⟨?_, fun k hk => ?_⟩
    · unfold State.urgentInsert
      split
      · exact hnodup
      next hc =>
        have hi : i ∉ t.lc.urgent := by simpa using fun hm => hc (by simp [hm])
        exact hnodup.append (by simp) (by simpa using hi)
    · rw [hslot]
      unfold State.urgentInsert at hk
      split at hk
      · exact hall k hk
      · rcases List.mem_append.mp hk with hk | hk
        · exact hall k hk
        · rwa [List.mem_singleton.mp hk]

/-- A successor in the slot, the slot's urgent entry removed. -/
theorem State.SlotUpdate.unjam (h : d.Succeeds x) :
    s.SlotUpdate i d ((s.setSlot i x).urgentRemove i) where
  record := by simpa using h
  others k hk := by simp [hk]
  urgent := by
    rintro ⟨hnodup, hothers, -⟩
    refine ⟨hnodup.filter _, fun k hk => ?_⟩
    obtain ⟨hk, hki⟩ := List.mem_filter.mp hk
    have hki : k ≠ i := by simpa using hki
    simpa [hki] using hothers k (by simpa using hk) hki

end

section

variable {s : State} {i : Fin 48} {d : Device} {j : JamContext}

/-! ### DRIFTING, ABSENT and adoption -/

theorem State.recover_update (h : (s.slot i).WF) (hs : (s.slot i).state = .drifting) (taken : RecoveryTaken) :
    s.SlotUpdate i (s.slot i) (s.recover i taken) := by
  have hrem : (s.slot i).state.rememberable = true := by rw [hs]; rfl
  have hne : (s.slot i).state = .jamming → ∀ x : Device, x.state = .jamming := by simp [hs]
  unfold State.recover
  dsimp only
  split
  · exact .refl h
  · exact .refl h
  · exact .setSlot (h.reenrolled hrem (h.pathDelay_le (Device.occupied_of_rememberable hrem))) (fun hj => hne hj _)
  · split
    next c _ =>
      exact .urgentInsert (.setSlot (h.jamStarted hrem c .recovery (retries := 1) (by decide) false) fun _ => rfl)
        (by simp)
    next => exact .refl h

theorem State.enterDrifting_update (h : d.Succeeds { s.slot i with state := .drifting }) (hd : d.state ≠ .jamming)
    (reason : DriftReason) : s.SlotUpdate i d (s.enterDrifting i reason) := by
  unfold State.enterDrifting
  dsimp only
  refine (State.SlotUpdate.of_frame (.setSlot h (absurd · hd)) (by simp) (by simp)).trans
    (State.recover_update ?_ ?_ _)
  · simpa using h.1
  · simp

theorem State.enterAbsent_update {b : DevState} (h : d.Succeeds { s.slot i with state := .absent, before := some b })
    (hd : d.state ≠ .jamming) : s.SlotUpdate i d (s.enterAbsent i b) :=
  State.SlotUpdate.of_frame (.setSlot h (absurd · hd)) (by simp [State.enterAbsent]) (by simp [State.enterAbsent])

theorem State.adoptionOffset_isSome {label edge : Nat} {offset : Option Int}
    (h : s.adoptionOffset d label edge = some offset) : offset.isSome = d.boundTo.isSome := by
  unfold State.adoptionOffset at h
  split at h
  next hb =>
    obtain rfl := Option.some.inj h
    rw [hb]
    rfl
  next hb =>
    rw [hb]
    dsimp only at h
    split_ifs at h
    split at h
    · exact absurd h (by simp)
    · obtain rfl := Option.some.inj h
      rfl

theorem State.adoptReport_update {label edge : Nat} (hocc : d.occupied = true) (hsame : d.SameHolder (s.slot i))
    (hd : d.state ≠ .jamming) (hjam : (s.slot i).jam = none) (hbefore : (s.slot i).before = none)
    (hmiss : (s.slot i).miss ≤ 7) (hcounts : (s.slot i).good ≤ 3 ∧ (s.slot i).bad ≤ 2)
    (hranges : (s.slot i).RangesWF) : s.SlotUpdate i d (s.adoptReport i label edge) := by
  have hocc' : (s.slot i).occupied = true := hsame.1.trans hocc
  unfold State.adoptReport
  split
  next offset hoffset =>
    exact .setSlot (hsame.succeeds (Device.adopted_succeeds hocc' hjam hbefore hmiss hranges
      (State.adoptionOffset_isSome hoffset))) (absurd · hd)
  next =>
    exact .setSlot (hsame.succeeds (Device.notAdopted_succeeds hocc' hjam hbefore hmiss hcounts hranges)) (absurd · hd)

/-! ### The end of a jam -/

theorem State.jamStateRecords_update (h : (s.slot i).WF) {o : JamOutcome} (hd : (s.slot i).state ≠ .jamming)
    (hdrift : j.endsDrifting o = true → (s.slot i).state = .drifting)
    (habsent : o = .noAnswer → (s.slot i).state = .absent ∧ (s.slot i).before = some j.stateAfter) :
    s.SlotUpdate i (s.slot i) (s.jamStateRecords i j o) := by
  unfold State.jamStateRecords
  split
  next he =>
    have hsame : ({ s.slot i with state := .drifting } : Device) = s.slot i := by rw [← hdrift he]
    exact State.enterDrifting_update (by rw [hsame]; exact .refl h) hd _
  next =>
    split
    · obtain ⟨hs, hb⟩ := habsent rfl
      have hsame : ({ s.slot i with state := .absent, before := some j.stateAfter } : Device) = s.slot i := by
        rw [← hs, ← hb]
      exact State.enterAbsent_update (by rw [hsame]; exact .refl h) hd
    · exact .refl h

theorem Device.changeDelay_jamming (d : Device) (delay : Nat) :
    d.state = .jamming → (d.changeDelay delay).state = .jamming := by
  intro h
  simp [Device.changeDelay, h]

theorem State.applyPendingDelay_update (h : (s.slot i).WF) (hj : j.WF) :
    s.SlotUpdate i (s.slot i) (s.applyPendingDelay i j) := by
  unfold State.applyPendingDelay
  split
  next delay hdelay => exact .setSlot (h.delayChanged (hj.2.2.2 delay hdelay)) (Device.changeDelay_jamming _ _)
  next => exact .refl h

theorem State.setLastResult_update (h : (s.slot i).WF) (r : Option Result) :
    s.SlotUpdate i (s.slot i) (s.setLastResult i r) :=
  .setSlot (h.result r) id

theorem State.deliverOutcome_update (h : (s.slot i).WF) (o : JamOutcome) :
    s.SlotUpdate i (s.slot i) (s.deliverOutcome i j o) := by
  have hl := State.setLastResult_update h (some o.result)
  unfold State.deliverOutcome
  dsimp only
  split
  · exact hl.of_frame (by simp) (by simp)
  · exact hl.of_frame (by simp) (by simp)

/-- The record that a jam's end leaves is what its outcome says, DONE apart (R128). -/
theorem Device.jamEnded_state (d : Device) (hj : j.WF) {o : JamOutcome} (ho : o = .done → d.state ≠ .jamming)
    (ha : o ≠ .abandoned) :
    (d.jamEnded j o).state ≠ .jamming ∧ (j.endsDrifting o = true → (d.jamEnded j o).state = .drifting) ∧
      (o = .noAnswer → (d.jamEnded j o).state = .absent ∧ (d.jamEnded j o).before = some j.stateAfter) := by
  have hafter := (DevState.ne_of_rememberable hj.stateAfter.1).2.1
  cases o with
  | done => exact ⟨ho rfl, by simp [JamContext.endsDrifting], nofun⟩
  | abandoned => exact absurd rfl ha
  | protectedDevice => exact ⟨hafter, by simp [JamContext.endsDrifting], nofun⟩
  | verifyError => exact ⟨by simp [Device.jamEnded], fun _ => rfl, nofun⟩
  | noAnswer => exact ⟨by simp [Device.jamEnded], by simp [JamContext.endsDrifting], fun _ => ⟨rfl, rfl⟩⟩
  | sourceStopped =>
    cases hs : j.setSent
    · simp [Device.jamEnded, JamContext.endsDrifting, hs, hafter]
    · simp [Device.jamEnded, JamContext.endsDrifting, hs]

/-- The end of a jam for the JAMMING record `d`, whose slot has gone on to a record with the same context (R128). -/
theorem State.jamEnd_update (hj : (s.slot i).jam = some j) (hjwf : j.WF) {o : JamOutcome}
    (ho : o = .done → (s.slot i).state ≠ .jamming) (ha : o ≠ .abandoned)
    (h : d.Succeeds { (s.slot i).jamEnded j o with jam := none }) : s.SlotUpdate i d (s.jamEnd i o) := by
  obtain ⟨hstate, hdrift, habsent⟩ := Device.jamEnded_state _ hjwf ho ha
  rw [State.jamEnd, hj]
  dsimp only
  have h1 := State.SlotUpdate.unjam (s := s) (i := i) h
  have h2 := h1.of_frame (u := State.sysEvent (.jamOutcome i ((s.slot i).jamEnded j o).linkAddr o j.origin j.sets
    j.lastLabel ((s.slot i).jamEnded j o).state)
    ((s.setSlot i { (s.slot i).jamEnded j o with jam := none }).urgentRemove i)) (by simp) (by simp)
  have h3 := h2.trans (State.jamStateRecords_update (j := j) (o := o) h2.record.1 (by simpa using hstate)
    (by simpa using hdrift) (by simpa using habsent))
  have h4 := h3.trans (State.applyPendingDelay_update h3.record.1 hjwf)
  exact h4.trans (State.deliverOutcome_update h4.record.1 o)

/-- The end of a jam that did not pass, in the slot of the JAMMING record (R128). -/
theorem State.jamEnd_failed_update (h : (s.slot i).WF) (hj : (s.slot i).jam = some j) {o : JamOutcome}
    (ho : o ≠ .done ∧ o ≠ .abandoned) : s.SlotUpdate i (s.slot i) (s.jamEnd i o) :=
  State.jamEnd_update hj (h.jam_wf hj) (absurd · ho.1) ho.2 (h.jamEnded hj ho)

/-! ### Verification -/

theorem State.jamPass_update {label edge : Nat} (h : (s.slot i).WF) (hj : (s.slot i).jam = some j) :
    s.SlotUpdate i (s.slot i) (s.jamPass i label edge) := by
  have hs := h.jamming_of_jam hj
  have hocc : (s.slot i).occupied = true := (Device.occupied_iff _).mpr (by simp [hs])
  obtain ⟨-, -, -, hbefore, hmiss, -, hranges⟩ := (Device.wf_jamming hs).mp h
  -- the record as the passing REPORT leaves it: it keeps its context and is well formed once that has gone
  have key : ∀ x : Device, x.jam = (s.slot i).jam → x.state ≠ .jamming →
      (s.slot i).Succeeds { x with jam := none } → s.SlotUpdate i (s.slot i) ((s.setSlot i x).jamEnd i .done) := by
    rintro x hjam hstate hx
    refine .after_setSlot (State.jamEnd_update (j := j) (by simpa [hjam] using hj) (h.jam_wf hj)
      (fun _ => by simpa using hstate) (by simp) ?_)
    simpa [Device.jamEnded] using hx
  unfold State.jamPass
  dsimp only
  split
  next offset hoffset =>
    refine key _ rfl (by simp [Device.adopted]) ?_
    exact Device.succeeds_present hocc rfl ⟨rfl, rfl⟩ rfl hbefore hmiss
      (Device.adopted_tieWF (State.adoptionOffset_isSome hoffset) label edge) hranges
  next =>
    refine key _ rfl (by simp) ?_
    exact Device.succeeds_present hocc rfl ⟨rfl, rfl⟩ rfl hbefore hmiss ((s.slot i).forget_tieWF (by simp)) hranges

theorem State.jamRetry_update (h : (s.slot i).WF) (hj : (s.slot i).jam = some j) {j' : JamContext} (hj' : j'.WF)
    (hrem : j'.remembered = j.remembered) : s.SlotUpdate i (s.slot i) (s.jamRetry i j') := by
  obtain ⟨hrem', hretries, -, hdelay⟩ := hj'
  refine .urgentInsert (.setSlot (h.withJam hj ⟨hrem', ?_, by simp, hdelay⟩ (.inl hrem)) id) ?_
  · simp only
    omega
  · simpa using h.jamming_of_jam hj

theorem JamContext.WF.withReports (h : j.WF) {n : Nat} (hn : n ≤ 5) : ({ j with reports := n } : JamContext).WF := by
  obtain ⟨hrem, hretries, -, hdelay⟩ := h
  exact ⟨hrem, hretries, hn, hdelay⟩

theorem State.jamFail_update (h : (s.slot i).WF) (hj : (s.slot i).jam = some j) :
    s.SlotUpdate i (s.slot i) (s.jamFail i j) := by
  have hjwf := h.jam_wf hj
  have hset : ∀ n ≤ 5, (s.slot i).Succeeds { s.slot i with jam := some { j with reports := n } } := fun n hn =>
    h.withJam hj (hjwf.withReports hn) (.inl rfl)
  have hle := hjwf.2.2.1
  unfold State.jamFail
  dsimp only
  split_ifs
  · exact .setSlot (hset _ (by omega)) id
  all_goals
    have hx := hset 0 (by decide)
    refine .of_setSlot hx.2 id ?_
    generalize hs1 : s.setSlot i { s.slot i with jam := some { j with reports := 0 } } = s1
    have hslot : s1.slot i = { s.slot i with jam := some { j with reports := 0 } } := by simp [← hs1]
    rw [← hslot]
    have hwf : (s1.slot i).WF := hslot ▸ hx.1
  · exact State.jamEnd_failed_update hwf (by rw [hslot]) (by decide)
  · exact State.jamRetry_update hwf (j := { j with reports := 0 }) (by rw [hslot]) hjwf rfl
  · exact State.jamEnd_failed_update hwf (by rw [hslot]) (by decide)

theorem State.jamReport_update {label edge : Nat} (h : (s.slot i).WF) :
    s.SlotUpdate i (s.slot i) (s.jamReport i label edge) := by
  unfold State.jamReport
  dsimp only
  split
  · exact .refl h
  next j hj =>
    split_ifs
    · exact State.jamEnd_failed_update h hj (by decide)
    · exact .refl h
    · split
      · split_ifs
        · exact .refl h
        · exact State.jamPass_update h hj
        · exact State.jamFail_update h hj
      · exact .refl h

end

end Sys2Proof.Machine
end

section
/-! REPORTs, misses, channel-stop notices and steps of studio time, slot by slot and over the whole roster. -/

namespace Sys2Proof.Machine

section

variable {s : State} {i : Fin 48} {d : Device} {j : JamContext} {label edge : Nat}

/-! ### Tested REPORTs (R93 to R98) -/

@[simp] theorem Device.measure_bad (d : Device) (label edge : Nat) : (d.measure label edge).1.bad = d.bad := by
  unfold Device.measure
  dsimp only
  repeat' split
  all_goals rfl

/-- A record whose count of inconsistent REPORTs allows it becomes LOCKED (R94). -/
theorem Device.WF.locked (h : d.WF) (hs : d.state = .settling ∨ d.state = .locked) (hbad : d.bad ≤ 1) :
    d.Succeeds { d with state := .locked } := by
  have hrem : d.state.rememberable = true := by rcases hs with hs | hs <;> rw [hs] <;> rfl
  obtain ⟨hjam, hbefore, hmiss, ⟨hset, -, hverify, hoffset, hgood, -⟩, hranges⟩ := (Device.wf_present hrem).mp h
  exact Device.succeeds_present (Device.occupied_of_rememberable hrem) rfl ⟨rfl, rfl⟩ hjam hbefore hmiss
    ⟨fun _ => hset hs, nofun, hverify, hoffset, hgood, hbad.trans (by decide), fun _ => hbad⟩ hranges

/-- The record that a consistent REPORT leaves, drift and verify point updated where it tracks (R94). -/
theorem Device.WF.tracked (h : d.WF) (hs : d.state = .settling ∨ d.state = .locked) {good : Nat} (hg : good ≤ 3)
    (s : State) {r : Device × Bool}
    (hr : r = if s.tracks { d with bad := 0, good := good } then
        Device.measure { d with bad := 0, good := good } label edge
      else ({ d with bad := 0, good := good }, false)) :
    d.Succeeds r.1 ∧ r.1.state = d.state ∧ r.1.bad = 0 := by
  have h1 : d.Succeeds { d with bad := 0, good := good } := h.consistent hs hs hg
  subst hr
  split
  next htracks =>
    have hbound : d.boundTo = none := by
      simp only [State.tracks, Bool.and_eq_true, Option.isNone_iff_eq_none] at htracks
      exact htracks.1
    obtain ⟨h2, hstate⟩ := h1.1.measured hs hbound label edge
    exact ⟨h1.trans h2, hstate, by simp⟩
  next => exact ⟨h1, rfl, rfl⟩

theorem State.consistentReport_update (h : (s.slot i).WF)
    (hs : (s.slot i).state = .settling ∨ (s.slot i).state = .locked) {good : Nat} (hg : good ≤ 3) (mayLock : Bool) :
    s.SlotUpdate i (s.slot i) (s.consistentReport i label edge good mayLock) := by
  have hne : (s.slot i).state ≠ .jamming := by rcases hs with hs | hs <;> simp [hs]
  unfold State.consistentReport
  dsimp only
  generalize hr : (if s.tracks { s.slot i with bad := 0, good := good } then
      Device.measure { s.slot i with bad := 0, good := good } label edge
    else ({ s.slot i with bad := 0, good := good }, false) : Device × Bool) = r
  obtain ⟨hsucc, hstate, hbad⟩ := Device.WF.tracked h hs hg s hr.symm
  clear hr
  have hs' : r.1.state = .settling ∨ r.1.state = .locked := hstate ▸ hs
  split_ifs
  · have hrem : r.1.state.rememberable = true := by rcases hs' with h | h <;> rw [h] <;> rfl
    have hdrift := hsucc.trans (hsucc.1.drifted hrem (bad := r.1.bad) (by omega))
    exact .after_setSlot (State.enterDrifting_update (by simpa using hdrift) hne _)
  · have hlock := hsucc.trans (hsucc.1.locked hs' (by omega))
    exact (State.SlotUpdate.after_setSlot (x := r.1) (.setSlot hlock (absurd · hne))).of_frame (by simp) (by simp)
  · exact .setSlot hsucc (absurd · hne)

theorem State.inconsistentReport_update (h : (s.slot i).WF) (hmiss : (s.slot i).miss ≤ 7) :
    s.SlotUpdate i (s.slot i) (s.inconsistentReport i label edge) := by
  unfold State.inconsistentReport
  dsimp only
  split
  next hs =>
    obtain ⟨hjam, hbefore, -, ⟨-, -, -, -, hgood, hbad, -⟩, hranges⟩ := (Device.wf_present (by rw [hs]; rfl)).mp h
    exact State.adoptReport_update ((Device.occupied_iff _).mpr (by simp [hs])) ⟨rfl, rfl, rfl⟩ (by simp [hs]) hjam
      hbefore hmiss ⟨hgood, hbad⟩ hranges
  next hs =>
    have hrem : (s.slot i).state.rememberable = true := by rw [hs]; rfl
    obtain ⟨hjam, hbefore, -, ⟨hset, hnone, hverify, hoffset, hgood, -, hbad⟩, hranges⟩ := (Device.wf_present hrem).mp h
    have hbad := hbad hs
    have hne : (s.slot i).state ≠ .jamming := by simp [hs]
    split_ifs
    · exact .after_setSlot (State.enterDrifting_update
        (by simpa using h.drifted hrem (bad := (s.slot i).bad + 1) (by omega)) hne _)
    · refine .setSlot (Device.succeeds_present (Device.occupied_of_rememberable hrem) hrem ⟨rfl, rfl⟩ hjam hbefore hmiss
        ⟨hset, hnone, hverify, hoffset, hgood, ?_, fun _ => ?_⟩ hranges) id <;> simp only <;> omega
  all_goals exact .refl h

theorem State.testedReport_update (h : (s.slot i).WF)
    (hs : (s.slot i).state = .settling ∨ (s.slot i).state = .locked) (hmiss : (s.slot i).miss ≤ 7) :
    s.SlotUpdate i (s.slot i) (s.testedReport i label edge) := by
  unfold State.testedReport
  dsimp only
  split
  · exact State.consistentReport_update h hs (Nat.min_le_left _ _) _
  · exact State.inconsistentReport_update h hmiss

/-- An ABSENT record that has returned to one of the four states its tie suits (R98). -/
theorem Device.WF.returned (h : d.WF) (hs : d.state = .absent) (hmiss : d.miss ≤ 7) {st : DevState}
    (hst : st = .drifting ∨ st = .settling ∧ d.anchor.isSome = true) :
    d.Succeeds { d with state := st, before := none } := by
  obtain ⟨hjam, -, -, ⟨-, -, hverify, hoffset, hgood, hbad, -⟩, hranges⟩ := (Device.wf_absent hs).mp h
  have hrem : st.rememberable = true := by
    rcases hst with rfl | ⟨rfl, -⟩ <;> rfl
  refine Device.succeeds_present ((Device.occupied_iff d).mpr (by simp [hs])) hrem ⟨rfl, rfl⟩ hjam rfl hmiss
    ⟨?_, ?_, hverify, hoffset, hgood, hbad, ?_⟩ hranges
  all_goals rcases hst with rfl | ⟨rfl, ha⟩ <;> simp
  exact ha

theorem State.returnReport_update (h : (s.slot i).WF) (hs : (s.slot i).state = .absent) (hmiss : (s.slot i).miss ≤ 7) :
    s.SlotUpdate i (s.slot i) (s.returnReport i label edge) := by
  obtain ⟨hjam, -, -, ⟨-, -, -, -, hgood, hbad, -⟩, hranges⟩ := (Device.wf_absent hs).mp h
  have hne : (s.slot i).state ≠ .jamming := by simp [hs]
  have hocc : (s.slot i).occupied = true := (Device.occupied_iff _).mpr (by simp [hs])
  unfold State.returnReport
  dsimp only
  refine State.SlotUpdate.after_frame (t := s.sysEvent (.deviceState i (s.slot i).linkAddr .returned)) ?_ (by simp)
    (by simp)
  generalize s.sysEvent (.deviceState i (s.slot i).linkAddr .returned) = s1
  split_ifs with _ hadopt hcons
  · exact .setSlot (h.returned hs hmiss (.inl rfl)) (absurd · hne)
  · refine .after_setSlot (State.adoptReport_update hocc ?_ hne ?_ ?_ ?_ ?_ ?_) <;> simp only [State.setSlot_slot_same]
    · exact ⟨hocc.symm, rfl, rfl⟩
    · exact hjam
    · exact hmiss
    · exact ⟨hgood, hbad⟩
    · exact hranges
  all_goals
    have hreturned := h.returned hs hmiss (st := .settling)
      (.inr ⟨rfl, Option.isSome_iff_ne_none.mpr fun ha => hadopt (.inr ha)⟩)
    refine .of_setSlot hreturned.2 (absurd · hne) ?_
    generalize hs2 : s1.setSlot i { s.slot i with state := .settling, before := none } = s2 at hcons ⊢
    have hslot : s2.slot i = { s.slot i with state := .settling, before := none } := by simp [← hs2]
    rw [← hslot]
    have hwf : (s2.slot i).WF := hslot ▸ hreturned.1
  · exact State.consistentReport_update hwf (.inl (by rw [hslot])) (by decide) _
  · refine State.enterDrifting_update (hwf.drifted (by rw [hslot]; rfl) ?_) (by simp [hslot]) _
    exact (hwf.occupied_core (Device.occupied_of_rememberable (by rw [hslot]; rfl))).2.2.2

/-! ### REPORT arrival, misses and notices -/

theorem State.reportUpdate_update (h : (s.slot i).WF) (r : Report) :
    s.SlotUpdate i (s.slot i) (s.reportUpdate i r) := by
  unfold State.reportUpdate
  dsimp only
  generalize hd : ({ s.slot i with miss := 0, protectedFlag := r.protectedFlag, dualTrack := r.dualTrack } : Device) = d
  by_cases hempty : (s.slot i).state = .empty
  · simp only [hempty]
    exact .refl h
  have hsucc : (s.slot i).Succeeds d := hd ▸ h.reported ((Device.occupied_iff _).mpr hempty) _ _
  have hstate : d.state = (s.slot i).state := by simp [← hd]
  have hmiss : d.miss ≤ 7 := by simp [← hd]
  have hslot : (s.setSlot i d).slot i = d := by simp
  have hwf : ((s.setSlot i d).slot i).WF := hslot.symm ▸ hsucc.1
  have hgo : ∀ t : State, (s.setSlot i d).SlotUpdate i ((s.setSlot i d).slot i) t → s.SlotUpdate i (s.slot i) t :=
    fun t ht => .of_setSlot hsucc.2 hstate.trans (by rwa [hslot] at ht)
  split
  next => exact .refl h
  next hs =>
    have hs := hstate.trans hs
    obtain ⟨hjam, hbefore, -, ⟨-, -, -, -, hgood, hbad, -⟩, hranges⟩ :=
      (Device.wf_present (by rw [hs]; rfl)).mp hsucc.1
    exact hgo _ (State.adoptReport_update (by rw [hslot, Device.occupied_iff, hs]; simp) ⟨rfl, rfl, rfl⟩
      (by simp [hs]) (by simpa using hjam) (by simpa using hbefore) (by simpa using hmiss)
      (by simpa using ⟨hgood, hbad⟩) (by simpa using hranges))
  next hs =>
    exact hgo _ (State.testedReport_update hwf (.inl (by simpa using hstate.trans hs)) (by simpa using hmiss))
  next hs =>
    exact hgo _ (State.testedReport_update hwf (.inr (by simpa using hstate.trans hs)) (by simpa using hmiss))
  next => exact hgo _ (.refl hwf)
  next => exact hgo _ (State.jamReport_update hwf)
  next hs => exact hgo _ (State.returnReport_update hwf (by simpa using hstate.trans hs) (by simpa using hmiss))

theorem Device.WF.absentMissed (h : d.WF) (hs : d.state = .absent) {n : Nat} (hn : n ≤ 8) :
    d.Succeeds { d with miss := n } := by
  obtain ⟨hjam, hbefore, -, htie, hranges⟩ := (Device.wf_absent hs).mp h
  exact ⟨(Device.wf_absent (d := { d with miss := n }) hs).mpr ⟨hjam, hbefore, hn, htie, hranges⟩, rfl, rfl, rfl⟩

/-- The eighth miss of a JAMMING record ends its jam NO ANSWER (R127). -/
theorem State.jamEnd_missed_update (h : d.WF) (hj : d.jam = some j) {n : Nat} (hn : n ≤ 8) :
    s.SlotUpdate i d ((s.setSlot i { d with miss := n }).jamEnd i .noAnswer) := by
  refine .after_setSlot (State.jamEnd_update (j := j) (by simpa using hj) (h.jam_wf hj) nofun nofun ?_)
  have hend := h.jamEnded hj (o := .noAnswer) (by decide)
  have he : ({ ({ d with miss := n } : Device).jamEnded j .noAnswer with jam := none } : Device) =
      { ({ d.jamEnded j .noAnswer with jam := none } : Device) with miss := n } := by
    simp only [Device.jamEnded]
    split <;> rfl
  simpa only [State.setSlot_slot_same, he] using hend.trans (hend.1.absentMissed rfl hn)

theorem State.deviceMiss_update (h : (s.slot i).WF) : s.SlotUpdate i (s.slot i) (s.deviceMiss i) := by
  unfold State.deviceMiss
  dsimp only
  split
  next => exact .refl h
  next => exact .refl h
  next hs =>
    obtain ⟨j, hj, -, -, hmiss, -⟩ := (Device.wf_jamming hs).mp h
    split_ifs
    · exact State.jamEnd_missed_update h hj (by omega)
    · exact .setSlot (h.missed ((Device.occupied_iff _).mpr (by simp [hs])) (by omega)) id
  all_goals
    next hs =>
      have hrem : (s.slot i).state.rememberable = true := by rw [hs]; rfl
      have hmiss := (h.occupied_core (Device.occupied_of_rememberable hrem)).2.1
      have hne : (s.slot i).state ≠ .jamming := by simp [hs]
      obtain ⟨-, -, hmiss, -⟩ := (Device.wf_present hrem).mp h
      split_ifs
      · exact .after_setSlot (State.enterAbsent_update
          (by simpa [hs] using h.absented hrem (miss := (s.slot i).miss + 1) (by omega)) hne)
      · exact .setSlot (h.missed (Device.occupied_of_rememberable hrem) (by omega)) (absurd · hne)

/-- The state before absence, or a remembered state, after a channel-stop notice (R103). -/
theorem stoppedState_cases (st : DevState) :
    stoppedState st = st ∧ st ≠ .settling ∧ st ≠ .locked ∨ stoppedState st = .drifting := by
  cases st <;> simp [stoppedState]

theorem State.stopNoticeAt_update (h : (s.slot i).WF) (c : Fin 16) :
    s.SlotUpdate i (s.slot i) (State.stopNoticeAt c s i) := by
  unfold State.stopNoticeAt
  dsimp only
  split_ifs
  · split
    case h_4 hs =>
      obtain ⟨hjam, ⟨b, hb, hrem, ha⟩, hmiss, htie, hranges⟩ := (Device.wf_absent hs).mp h
      refine .setSlot ⟨Iff.mpr (Device.wf_absent (by simpa using hs)) ⟨hjam, ⟨stoppedState b, by simp [hb], ?_, ?_⟩,
        hmiss, htie, hranges⟩, rfl, rfl, rfl⟩ id
      all_goals rcases stoppedState_cases b with ⟨he, -⟩ | he <;> rw [he]
      · exact hrem
      · rfl
      · exact ha
      · simp
    case h_5 hs =>
      obtain ⟨j, hj, hjwf, -⟩ := (Device.wf_jamming hs).mp h
      obtain ⟨hrem, hretries, hreports, hdelay⟩ := hjwf
      rw [hj]
      refine .setSlot (h.withJam hj (j' := { j with remembered := stoppedState j.remembered })
        ⟨?_, hretries, hreports, hdelay⟩ ?_) id
      all_goals rcases stoppedState_cases j.remembered with ⟨he, -⟩ | he <;> simp only [he]
      · exact hrem
      · rfl
      · exact .inl trivial
      · exact .inr trivial
    case h_6 => exact .refl h
    case h_7 => exact .refl h
    all_goals
      next hs =>
        have hrem : (s.slot i).state.rememberable = true := by rw [hs]; rfl
        exact State.enterDrifting_update
          (h.drifted hrem (h.occupied_core (Device.occupied_of_rememberable hrem)).2.2.2) (by simp [hs]) _
  · exact .refl h

end

end Sys2Proof.Machine
end

section
/-! Channel records (R42 to R62): every change of one leaves it well formed. -/

namespace Sys2Proof.Machine

/-! ## Settings -/

theorem Fmt.valid_moved {f : Fmt} {l : Label} (h : f.valid l = true) : f.valid (f.moved l) = true := by
  by_cases hs : f.skipped l = true
  · obtain ⟨-, -, -, hff⟩ := (f.skipped_iff l).mp hs
    obtain ⟨hh, hm, hsec, -⟩ := (f.valid_iff l).mp h
    rw [Fmt.moved_of_skipped hs, Fmt.valid_iff]
    refine ⟨hh, hm, hsec, ?_⟩
    revert hff
    cases f.base <;> simp [Base.dropCount, Base.fps]
  · rwa [Fmt.moved_of_not_skipped (by simpa using hs)]

theorem Fmt.not_skipped_moved (f : Fmt) (l : Label) : ¬f.skipped (f.moved l) = true := by
  by_cases hs : f.skipped l = true
  · rw [Fmt.moved_of_skipped hs, Fmt.skipped_iff]
    simp
  · rwa [Fmt.moved_of_not_skipped (by simpa using hs)]

/-- Every label that enters has an index of its format's day. -/
theorem Fmt.indexOf_moved_lt {f : Fmt} (hf : f.legal = true) {l : Label} (h : f.valid l = true) :
    f.indexOf (f.moved l) < f.fday := by
  obtain ⟨b, drop⟩ := f
  have hv := Fmt.valid_moved h
  cases drop with
  | false => exact Fmt.frameNumber_lt hv
  | true =>
    have hb : b.drops := by simpa [Fmt.legal, Base.drops] using hf
    exact (dropIndex_of_label hb hv (Fmt.not_skipped_moved _ l)).1

theorem Fmt.enter_lt {f : Fmt} (hf : f.legal = true) {l : Label} {n : Nat} {adjusted : Bool}
    (h : f.enter l = some (n, adjusted)) : n < f.fday := by
  cases hv : f.valid l with
  | false => simp [Fmt.enter_of_invalid hv] at h
  | true =>
    rw [Fmt.enter_of_valid hv] at h
    obtain ⟨rfl, -⟩ := Prod.mk.inj (Option.some.inj h)
    exact Fmt.indexOf_moved_lt hf hv

theorem channelSettings_wf {o : Order} {kind : ChanKind} {set : Settings} (h : channelSettings o = some (kind, set)) :
    set.WF := by
  unfold channelSettings at h
  dsimp only at h
  split at h
  next hrate =>
    split at h
    · simp at h
    next f hf =>
      split at h
      · simp at h
      next start adjusted hstart =>
        obtain ⟨-, rfl⟩ := Prod.mk.inj (Option.some.inj h)
        exact ⟨hrate, fmtOfCode_legal hf, Fmt.enter_lt (fmtOfCode_legal hf) hstart⟩
  · simp at h

/-! ## A channel that follows another -/

/-- What a channel's events keep: its bound count, its kind, and that it is well formed. -/
structure Channel.Succeeds (ch ch' : Channel) : Prop where
  bound : ch'.bound = ch.bound
  kind : ch'.kind = ch.kind
  wf : ch.WF → ch'.WF

section

variable {ch : Channel} {g : Segment}

theorem Channel.Succeeds.refl (ch : Channel) : ch.Succeeds ch := ⟨rfl, rfl, id⟩

theorem Channel.Succeeds.trans {a b c : Channel} (h : a.Succeeds b) (h' : b.Succeeds c) : a.Succeeds c :=
  ⟨h'.bound.trans h.bound, h'.kind.trans h.kind, h'.wf ∘ h.wf⟩

/-- The instant of an index at or past a segment's base is a natural number. -/
theorem Segment.instant_toNat {g : Segment} {k : Nat} (h : g.base ≤ k) :
    (g.instant k).toNat = g.origin + (k - g.base) * g.rate.n / g.rate.d := by
  have he : g.instant k = ((g.origin + (k - g.base) * g.rate.n / g.rate.d : Nat) : Int) := by
    rw [Segment.instant]
    push_cast [h]
    rfl
  rw [he, Int.toNat_natCast]

/-- A RUNNING channel's position: its last edge ST is the frame index's instant on the current segment (R44). -/
def Channel.OnSegment (ch : Channel) : Prop :=
  ∀ g, ch.cur = some g → g.base ≤ ch.frame ∧ ch.lastEdge = some (g.instant ch.frame).toNat

theorem Channel.onSegment_iff : ch.OnSegment ↔ ∀ g, ch.cur = some g →
    g.base ≤ ch.frame ∧ ch.lastEdge = some (g.origin + (ch.frame - g.base) * g.rate.n / g.rate.d) := by
  refine forall₂_congr fun g _ => and_congr_right fun hb => ?_
  rw [Segment.instant_toNat hb]

/-- The segments held have legal rates (R23). -/
def Channel.SegmentsWF (ch : Channel) : Prop :=
  (∀ g, ch.cur = some g → g.rate.legal = true) ∧ ∀ p, ch.prior = some p → p.seg.rate.legal = true

/-- A well-formed RUNNING channel. -/
theorem Channel.wf_running (hs : ch.state = .running) :
    ch.WF ↔ ch.startSt = none ∧ ch.cur.isSome = true ∧ ch.cfg.WF ∧ (∀ set, ch.staged = some (.full set) → set.WF) ∧
      ch.SegmentsWF ∧ ch.OnSegment := by
  rw [Channel.onSegment_iff]
  cases hst : ch.startSt <;> simp [Channel.WF, Channel.PartsWF, Channel.SegmentsWF, hs, hst, and_assoc]

/-- A well-formed channel outside RUNNING. -/
theorem Channel.wf_idle (hs : ch.state ≠ .running) :
    ch.WF ↔ (ch.stopPending = false ∧ ch.staged = none ∧ ch.pulse = none ∧ ch.tcWord = none) ∧
      (ch.startSt.isSome = true ↔ ch.state = .armed) ∧ ch.cfg.WF ∧ ch.SegmentsWF := by
  unfold Channel.WF Channel.PartsWF Channel.SegmentsWF
  cases ch.stopPending <;> cases ch.staged <;> simp [hs]
  tauto

/-! ## The channel's changes -/

/-- What leaves everything but the lines as it was. -/
theorem Channel.Succeeds.lines {pulse : Option Nat} {word : Option TimecodeWord} (h : ch.state = .running) :
    ch.Succeeds { ch with pulse := pulse, tcWord := word } where
  bound := rfl
  kind := rfl
  wf hwf := Iff.mpr (Channel.wf_running (by simpa using h)) ((Channel.wf_running h).mp hwf)

theorem Channel.succeeds_quiet (ch : Channel) : ch.Succeeds ch.quiet where
  bound := rfl
  kind := rfl
  wf h := by
    by_cases hs : ch.state = .running
    · exact Iff.mpr (Channel.wf_running (by simpa using hs)) ((Channel.wf_running hs).mp h)
    · obtain ⟨⟨hstop, hstaged, -, -⟩, hrest⟩ := (Channel.wf_idle hs).mp h
      exact (Channel.wf_idle (ch := ch.quiet) hs).mpr ⟨⟨hstop, hstaged, rfl, rfl⟩, hrest⟩

theorem Channel.succeeds_pulseEnd (ch : Channel) : ch.Succeeds { ch with pulse := none } where
  bound := rfl
  kind := rfl
  wf h := by
    by_cases hs : ch.state = .running
    · exact Iff.mpr (Channel.wf_running (by simpa using hs)) ((Channel.wf_running hs).mp h)
    · obtain ⟨⟨hstop, hstaged, -, hword⟩, hrest⟩ := (Channel.wf_idle hs).mp h
      exact (Channel.wf_idle (ch := { ch with pulse := none }) hs).mpr ⟨⟨hstop, hstaged, rfl, hword⟩, hrest⟩

theorem Channel.succeeds_drive (h : ch.state = .running) (edge : Nat) : ch.Succeeds (ch.drive edge) := by
  unfold Channel.drive
  split
  · exact .refl ch
  · exact .lines h

theorem Channel.succeeds_stopped (ch : Channel) : ch.Succeeds ch.stopped where
  bound := rfl
  kind := rfl
  wf h := (Channel.wf_idle (by simp)).mpr ⟨⟨rfl, rfl, rfl, rfl⟩, by simp, h.2.1, h.2.2.2.1, h.2.2.2.2.1⟩

theorem Channel.succeeds_stopPending (h : ch.state = .running) : ch.Succeeds { ch with stopPending := true } where
  bound := rfl
  kind := rfl
  wf hwf := Iff.mpr (Channel.wf_running (by simpa using h)) ((Channel.wf_running h).mp hwf)

/-- The next edge counted (R46). -/
theorem Channel.succeeds_count (h : ch.state = .running) {edge : Nat} (hnext : ch.nextEdge = some edge) :
    ch.Succeeds (ch.count edge) where
  bound := rfl
  kind := rfl
  wf hwf := by
    obtain ⟨hstart, hcur, hcfg, hstaged, hseg, hon⟩ := (Channel.wf_running h).mp hwf
    refine (Channel.wf_running (by simpa using h)).mpr ⟨hstart, hcur, hcfg, hstaged, hseg, fun g hg => ?_⟩
    have hg : ch.cur = some g := hg
    have hedge : (g.instant ((ch.frame : Int) + 1)).toNat = edge := by simpa [Channel.nextEdge, hg] using hnext
    exact ⟨(hon g hg).1.trans (Nat.le_succ _), by simp [← hedge]⟩

/-- A new segment that begins at the frame index and its edge. -/
theorem Channel.succeeds_latch (h : ch.state = .running) {edge : Nat} (hlast : ch.lastEdge = some edge) :
    ch.Succeeds (ch.latch edge) ∧ (ch.latch edge).state = .running := by
  unfold Channel.latch
  split
  next => exact ⟨.refl ch, h⟩
  next w _ =>
    refine ⟨⟨rfl, rfl, fun hwf => ?_⟩, h⟩
    obtain ⟨hstart, hcur, hcfg, -, hrest⟩ := (Channel.wf_running h).mp hwf
    exact Iff.mpr (Channel.wf_running (by simpa using h)) ⟨hstart, hcur, hcfg, nofun, hrest⟩
  next set hset =>
    refine ⟨⟨rfl, rfl, fun hwf => ?_⟩, h⟩
    obtain ⟨hstart, -, -, hstaged, ⟨hcur, hprior⟩, -⟩ := (Channel.wf_running h).mp hwf
    have hset := hstaged set hset
    refine Iff.mpr (Channel.wf_running (by simpa [Channel.newSegment] using h))
      ⟨hstart, rfl, hset, nofun, ⟨?_, ?_⟩, ?_⟩
    · rintro g hg
      obtain rfl := Option.some.inj hg
      exact hset.1
    · rintro p hp
      simp only [Channel.newSegment] at hp
      split at hp
      next old hold =>
        obtain rfl := Option.some.inj hp
        exact hcur old hold
      next => exact hprior p hp
    · rintro g hg
      obtain rfl := Option.some.inj hg
      exact ⟨Nat.le_refl _, by simpa [Segment.instant, Channel.newSegment] using hlast⟩

theorem Channel.succeeds_skipRest (h : ch.state = .running) (limit : Nat) :
    ch.Succeeds (ch.skipRest limit) ∧ (ch.skipRest limit).state = .running := by
  unfold Channel.skipRest
  split
  next => exact ⟨.refl ch, h⟩
  next g hg =>
    dsimp only
    split
    next hk =>
      refine ⟨⟨rfl, rfl, fun hwf => ?_⟩, h⟩
      obtain ⟨hstart, hcur, hcfg, hstaged, hseg, hon⟩ := (Channel.wf_running h).mp hwf
      refine Iff.mpr (Channel.wf_running (by simpa using h)) ⟨hstart, hcur, hcfg, hstaged, hseg, fun g' hg' => ?_⟩
      obtain rfl : g = g' := Option.some.inj (hg.symm.trans hg')
      obtain ⟨hb, -⟩ := hon g hg
      have hcast : ((g.edgeAt ((limit : Int) - 1)).toNat : Int) = g.edgeAt ((limit : Int) - 1) := by omega
      exact ⟨by simp only; omega, by simp [hcast]⟩
    next => exact ⟨.refl ch, h⟩

/-- A start on a new segment of the channel's own rate (R55, R56). -/
theorem Channel.succeeds_started (h : ch.state ≠ .running) {origin frame lastEdge : Nat}
    (hlast : lastEdge = origin + frame * ch.cfg.rate.n / ch.cfg.rate.d) :
    ch.Succeeds (ch.started origin frame lastEdge) ∧ (ch.started origin frame lastEdge).state = .running := by
  refine ⟨⟨rfl, rfl, fun hwf => ?_⟩, rfl⟩
  obtain ⟨⟨-, hstaged, -, -⟩, -, hcfg, hcur, hprior⟩ := (Channel.wf_idle h).mp hwf
  refine (Channel.wf_running rfl).mpr ⟨rfl, rfl, hcfg, ?_, ⟨?_, ?_⟩, ?_⟩
  · simp [Channel.started, Channel.newSegment, hstaged]
  · rintro g hg
    obtain rfl := Option.some.inj hg
    exact hcfg.1
  · rintro p hp
    simp only [Channel.started, Channel.newSegment] at hp
    split at hp
    next old hold =>
      obtain rfl := Option.some.inj hp
      exact hcur old hold
    next => exact hprior p hp
  · rintro g hg
    obtain rfl := Option.some.inj hg
    refine ⟨Nat.zero_le _, ?_⟩
    rw [Segment.instant_toNat (Nat.zero_le _)]
    simp [Channel.started, hlast]

theorem Channel.succeeds_armed (h : ch.state = .stopped) (t : Nat) :
    ch.Succeeds { ch with state := .armed, startSt := some t } where
  bound := rfl
  kind := rfl
  wf hwf := by
    obtain ⟨hlines, -, hrest⟩ := (Channel.wf_idle (by simp [h])).mp hwf
    exact Iff.mpr (Channel.wf_idle (by simp)) ⟨hlines, by simp, hrest⟩

theorem Channel.succeeds_stamp (ch : Channel) (w : Word) : ch.Succeeds (ch.stamp w) := by
  unfold Channel.stamp
  split
  case h_3 hs =>
    split
    all_goals
      refine ⟨rfl, rfl, fun hwf => ?_⟩
      obtain ⟨hstart, hcur, hcfg, hstaged, hrest⟩ := (Channel.wf_running hs).mp hwf
      refine Iff.mpr (Channel.wf_running (by simpa using hs)) ⟨hstart, hcur, hcfg, ?_, hrest⟩
    next set hset =>
      rintro set' hs'
      obtain rfl : { set with userWord := w } = set' := by simpa using hs'
      exact hstaged set hset
    · simp
    · simp
  all_goals
    next hs =>
      refine ⟨rfl, rfl, fun hwf => ?_⟩
      obtain ⟨hlines, hstart, hcfg, hseg⟩ := (Channel.wf_idle (by simp [hs])).mp hwf
      exact Iff.mpr (Channel.wf_idle (by simp [hs])) ⟨hlines, hstart, hcfg, hseg⟩

/-- A SET CHANNEL keeps a channel well formed; its kind changes at most to the one given (R52). -/
theorem Channel.configure_wf (h : ch.WF) (kind : ChanKind) {set : Settings} (hset : set.WF) :
    (ch.configure kind set).WF := by
  unfold Channel.configure
  split
  case h_3 hs =>
    obtain ⟨hstart, hcur, hcfg, -, hrest⟩ := (Channel.wf_running hs).mp h
    refine Iff.mpr (Channel.wf_running (by simpa using hs)) ⟨hstart, hcur, hcfg, ?_, hrest⟩
    rintro set' hs'
    obtain rfl : set = set' := by simpa using hs'
    exact hset
  all_goals
    next hs =>
      obtain ⟨hlines, hstart, -, hseg⟩ := (Channel.wf_idle (by simp [hs])).mp h
      exact Iff.mpr (Channel.wf_idle (by simp [hs])) ⟨hlines, hstart, hset, hseg⟩

end

end Sys2Proof.Machine
end

section
/-! The whole roster and the channels: what leaves the holder of every slot, every bound count and every channel's kind
as they were, and keeps the records, the urgent queue and the channels well formed. -/

namespace Sys2Proof.Machine

/-- Every device record is well formed by itself. -/
def State.RecordsWF (s : State) : Prop := ∀ i, (s.slot i).WF

/-- Every slot keeps its holder and every channel its bound count and kind, and what was well formed stays so. -/
structure State.HoldersStay (s t : State) : Prop where
  records : ∀ i, (s.slot i).Succeeds (t.slot i)
  urgent : s.UrgentWF → t.UrgentWF
  channels : ∀ c, (s.chan c).Succeeds (t.chan c)

theorem State.chan_congr {s t : State} (h : t.chans = s.chans) (c : Fin 16) : t.chan c = s.chan c := by
  rw [State.chan, h, State.chan]

section

variable {s t u : State} {i : Fin 48} {c : Fin 16}

theorem State.HoldersStay.wf (h : s.HoldersStay t) : t.RecordsWF := fun i => (h.records i).1

theorem State.HoldersStay.trans (h : s.HoldersStay t) (h' : t.HoldersStay u) : s.HoldersStay u :=
  ⟨fun i => (h.records i).trans (h'.records i), h'.urgent ∘ h.urgent, fun c => (h.channels c).trans (h'.channels c)⟩

/-- What leaves the slots, the channels and the link controller alone. -/
theorem State.RecordsWF.frame (h : s.RecordsWF) (hslots : t.slots = s.slots) (hurgent : t.lc.urgent = s.lc.urgent)
    (hchans : t.chans = s.chans) : s.HoldersStay t where
  records i := by
    rw [State.slot_congr hslots i]
    exact .refl (h i)
  urgent := by
    rintro ⟨hnodup, hall⟩
    exact ⟨hurgent ▸ hnodup, fun k hk => State.slot_congr hslots k ▸ hall k (hurgent ▸ hk)⟩
  channels c := State.chan_congr hchans c ▸ .refl _

theorem State.RecordsWF.refl (h : s.RecordsWF) : s.HoldersStay s := h.frame rfl rfl rfl

theorem State.HoldersStay.of_frame (h : s.HoldersStay t) (hslots : u.slots = t.slots)
    (hurgent : u.lc.urgent = t.lc.urgent) (hchans : u.chans = t.chans) : s.HoldersStay u :=
  h.trans (h.wf.frame hslots hurgent hchans)

/-- What changes one slot alone. -/
theorem State.SlotUpdate.stay (h : s.SlotUpdate i (s.slot i) t) (hall : s.RecordsWF) (hchans : t.chans = s.chans) :
    s.HoldersStay t where
  records k := by
    by_cases hk : k = i
    · exact hk ▸ h.record
    · rw [h.others k hk]
      exact .refl (hall k)
  urgent hu := h.urgent (State.urgentAs_self.mpr hu)
  channels c := State.chan_congr hchans c ▸ .refl _

/-- What changes one channel alone. -/
theorem State.RecordsWF.setChan (h : s.RecordsWF) {x : Channel} (hx : (s.chan c).Succeeds x) :
    s.HoldersStay (s.setChan c x) where
  records i := .refl (h i)
  urgent := id
  channels k := by
    by_cases hk : k = c
    · rw [hk, State.setChan_chan_same]
      exact hx
    · rw [State.setChan_chan_other s c k x hk]
      exact .refl _

/-- A list of changes one after the other. -/
theorem State.RecordsWF.foldl {α : Type} {f : State → α → State} (h : s.RecordsWF)
    (hf : ∀ (u : State) a, u.RecordsWF → u.HoldersStay (f u a)) (l : List α) : s.HoldersStay (l.foldl f s) := by
  induction l generalizing s with
  | nil => exact h.refl
  | cons a l ih => exact (hf s a h).trans (ih (hf s a h).wf)

/-! ## Marks -/

theorem State.stampChannels_stay (h : s.RecordsWF) (w : Word) (cs : List (Fin 16)) :
    s.HoldersStay (s.stampChannels w cs) := by
  induction cs generalizing s with
  | nil => exact h.refl
  | cons c cs ih =>
    unfold State.stampChannels
    split
    · have h1 := h.setChan (Channel.succeeds_stamp (s.chan c) w)
      exact h1.trans (ih h1.wf)
    · exact ih h

/-- The slot that a mark names is occupied. -/
def MarkOrigin.Occupied (s : State) : MarkOrigin → Prop
  | .slot i _ _ _ => (s.slot i).occupied = true
  | .host _ => True

theorem State.takeMark_stay (h : s.RecordsWF) (kind : Fin 16) {m : MarkOrigin} (hm : m.Occupied s) :
    s.HoldersStay (s.takeMark kind m) := by
  unfold State.takeMark
  split
  · unfold State.logMark
    dsimp only
    have h1 := h.frame (t := { s with lu := s.lu.stepTake (s.lu.actions.get kind).step }) rfl rfl rfl
    have h2 := h1.trans (State.stampChannels_stay h1.wf (s.lu.stepTake (s.lu.actions.get kind).step).takeWord
      (s.lu.actions.get kind).watch)
    generalize State.stampChannels _ _ _ = s2 at h2 ⊢
    have h3 := h2.of_frame (u := s2.submit (s2.markRecord kind (s.lu.actions.get kind).watch m)) (by simp) (by simp)
      (by simp)
    generalize s2.submit _ = s3 at h3 ⊢
    have h4 : s.HoldersStay (s3.countMark m) := by
      unfold State.countMark
      cases m with
      | slot i label sub adjusted =>
        have hocc : (s3.slot i).occupied = true := (h3.records i).2.1.trans hm
        exact h3.trans (State.SlotUpdate.stay (.setSlot ((h3.wf i).marked hocc _) id) h3.wf (by simp))
      | host st => exact h3
    split
    · exact h4.of_frame (by simp) (by simp) (by simp)
    · exact h4
  · exact h.frame rfl rfl rfl

theorem State.takeEntry_stay (h : s.RecordsWF) (hocc : (s.slot i).occupied = true) (e : MarkEntry) :
    s.HoldersStay (State.takeEntry i s e) := by
  unfold State.takeEntry
  split
  · exact State.takeMark_stay h _ hocc
  · exact h.frame rfl rfl rfl

theorem State.takeEntries_stay (h : s.RecordsWF) (hocc : (s.slot i).occupied = true) (es : List MarkEntry) :
    s.HoldersStay (es.foldl (State.takeEntry i) s) := by
  induction es generalizing s with
  | nil => exact h.refl
  | cons e es ih =>
    have h1 := State.takeEntry_stay h hocc e
    exact h1.trans (ih h1.wf ((h1.records i).2.1.trans hocc))

theorem State.reportArrival_stay (h : s.RecordsWF) (hocc : (s.slot i).occupied = true) (r : Report) :
    s.HoldersStay (s.reportArrival i r) := by
  have h1 := (State.reportUpdate_update (h i) r).stay h (by simp)
  exact h1.trans (State.takeEntries_stay h1.wf ((h1.records i).2.1.trans hocc) r.marks)

/-! ## Channel-stop notices, steps of studio time and the channels' events -/

theorem State.stopNotice_stay (h : s.RecordsWF) (c : Fin 16) : s.HoldersStay (s.stopNotice c) :=
  h.foldl (fun _ i hu => (State.stopNoticeAt_update (hu i) c).stay hu (State.stopNoticeAt_frame c _ i).2.1) _

theorem State.rosterStep_slot (s : State) (d : Nat) (i : Fin 48) : (s.rosterStep d).slot i = (s.slot i).shift d := by
  simp [State.rosterStep, State.slot, Vector.get]
  rfl

@[simp] theorem Device.shift_state (d : Device) (step : Nat) : (d.shift step).state = d.state := by
  unfold Device.shift
  dsimp only
  split <;> rfl

theorem State.rosterStep_stay (h : s.RecordsWF) (d : Nat) : s.HoldersStay (s.rosterStep d) where
  records i := by
    rw [State.rosterStep_slot]
    exact (h i).shifted d
  urgent := by
    rintro ⟨hnodup, hall⟩
    refine ⟨hnodup, fun k hk => ?_⟩
    rw [State.rosterStep_slot, Device.shift_state]
    exact hall k hk
  channels c := .refl (s.chan c)

theorem State.stopChannel_stay (h : s.RecordsWF) (c : Fin 16) : s.HoldersStay (s.stopChannel c) := by
  have h1 := (h.setChan (s.chan c).succeeds_stopped).of_frame
    (u := (s.setChan c (s.chan c).stopped).sysEvent (.channelEvent c .stop (s.chan c).eventSegment)) (by simp) (by simp)
    (by simp)
  exact h1.trans (State.stopNotice_stay h1.wf c)

theorem State.emitEdge_stay (h : s.RecordsWF) (hrun : (s.chan c).state = .running) {edge : Nat}
    (hnext : (s.chan c).nextEdge = some edge) : s.HoldersStay (s.emitEdge c edge) := by
  unfold State.emitEdge
  dsimp only
  split
  · exact State.stopChannel_stay h c
  · have hcount := Channel.succeeds_count hrun hnext
    obtain ⟨hlatch, hstate⟩ := Channel.succeeds_latch (ch := (s.chan c).count edge) (by simpa using hrun) (edge := edge)
      (by simp)
    exact (h.setChan (hcount.trans (hlatch.trans (Channel.succeeds_drive hstate edge)))).of_frame (by simp) (by simp)
      (by simp)

theorem State.armedStart_stay (h : s.RecordsWF) (harmed : (s.chan c).state = .armed) (start : Nat) :
    s.HoldersStay (s.armedStart c start) := by
  obtain ⟨hstarted, hstate⟩ := Channel.succeeds_started (ch := s.chan c) (by simp [harmed]) (origin := start)
    (frame := 0) (lastEdge := start) (by simp)
  exact (h.setChan (hstarted.trans (Channel.succeeds_drive hstate start))).of_frame (by simp [State.armedStart])
    (by simp [State.armedStart]) (by simp [State.armedStart])

theorem State.lateStart_stay (h : s.RecordsWF) (hstopped : (s.chan c).state = .stopped) (t0 : Nat) :
    s.HoldersStay (s.lateStart c t0) := by
  unfold State.lateStart
  dsimp only
  obtain ⟨hstarted, -⟩ := Channel.succeeds_started (ch := s.chan c) (by simp [hstopped]) (origin := t0)
    (frame := ((s.tb.st - t0 + 1) * (s.chan c).cfg.rate.d - 1) / (s.chan c).cfg.rate.n) rfl
  exact (h.setChan hstarted).of_frame (by simp) (by simp) (by simp)

theorem State.skipEdges_stay (h : s.RecordsWF) (hrun : (s.chan c).state = .running) (stamp limit : Nat) :
    s.HoldersStay (s.skipEdges c stamp limit) := by
  unfold State.skipEdges
  dsimp only
  split
  · exact h.refl
  next edge hnext =>
    split_ifs
    · exact State.stopChannel_stay h c
    · have hcount := Channel.succeeds_count hrun hnext
      obtain ⟨hlatch, hstate⟩ := Channel.succeeds_latch (ch := (s.chan c).count edge) (by simpa using hrun)
        (edge := edge) (by simp)
      obtain ⟨hskip, -⟩ := Channel.succeeds_skipRest hstate limit
      exact (h.setChan (hcount.trans (hlatch.trans (hskip.trans (Channel.succeeds_quiet _))))).of_frame (by simp)
        (by simp) (by simp)
    · exact h.setChan (s.chan c).succeeds_quiet

theorem State.channelStep_stay (h : s.RecordsWF) (stamp limit : Nat) (c : Fin 16) :
    s.HoldersStay (State.channelStep stamp limit s c) := by
  unfold State.channelStep
  dsimp only
  split
  · exact h.refl
  next hrun => exact State.skipEdges_stay h hrun stamp limit
  next harmed =>
    split
    next t _ =>
      split
      · obtain ⟨hstarted, hstate⟩ := Channel.succeeds_started (ch := s.chan c) (by simp [harmed]) (origin := t)
          (frame := 0) (lastEdge := t) (by simp)
        obtain ⟨hskip, -⟩ := Channel.succeeds_skipRest hstate limit
        exact (h.setChan (hstarted.trans (hskip.trans (Channel.succeeds_quiet _)))).of_frame (by simp) (by simp)
          (by simp)
      · exact h.refl
    · exact h.refl

theorem State.settleChannel_stay (h : s.RecordsWF) (c : Fin 16) : s.HoldersStay (s.settleChannel c) := by
  unfold State.settleChannel
  dsimp only
  split
  · exact h.refl
  next hrun =>
    split
    next edge hnext =>
      split
      · exact State.emitEdge_stay h hrun hnext
      · exact h.refl
    · exact h.refl
  next harmed =>
    split
    · split
      · exact State.armedStart_stay h harmed _
      · exact h.refl
    · exact h.refl

/-! ## Reference edges -/

/-- What is kept by each event that a reference edge can bring, down to the steps at each channel, is kept by it. -/
theorem State.refEdge_induction {P : State → Prop} (htb : ∀ u x, P u → P { u with tb := x })
    (hchanged : ∀ (u : State) old, P u → P (u.refChanged old)) (hsettle : ∀ (u : State) c, P u → P (u.settleChannel c))
    (hstep : ∀ (u : State) d, P u → P (u.sysEvent (.timeStep d)))
    (hchannel : ∀ u stamp limit c, P u → P (State.channelStep stamp limit u c))
    (hroster : ∀ (u : State) d, P u → P (u.rosterStep d)) (s : State) (h : P s) : P s.refEdge := by
  have hfold : ∀ {f : State → Fin 16 → State}, (∀ u c, P u → P (f u c)) →
      ∀ (l : List (Fin 16)) u, P u → P (l.foldl f u) := by
    rintro f hf l
    induction l with
    | nil => exact fun u hu => hu
    | cons c l ih => exact fun u hu => ih _ (hf u c hu)
  have hmiss : ∀ u, P u → P u.dueMiss := by
    rintro u hu
    by_cases hdue : u.tb.missDue = true
    · rw [State.dueMiss_of_due hdue]
      unfold State.refMiss
      dsimp only
      split
      · exact hchanged _ _ (htb _ _ hu)
      · exact htb _ _ hu
    · rwa [State.dueMiss_of_not_due (by simpa using hdue)]
  have hacquire : ∀ u first, P u → P (u.enterAcquiring first) := fun u first hu => hchanged _ _ (htb _ _ hu)
  have halign : ∀ u stamp, P u → P (u.align stamp) := by
    rintro u stamp hu
    unfold State.align
    split
    · exact hchanged _ _ (htb _ _ hu)
    · exact hchanged _ _ (hroster _ _ (hfold (hchannel · stamp _ ·) _ _ (hstep _ _ (htb _ _ (hfold hsettle _ _ hu)))))
  have h1 : P s.settleMisses := hmiss _ (hmiss _ (hmiss _ h))
  rcases s.refEdge_cases with he | ⟨_, he⟩ | ⟨_, p, _, he⟩ | ⟨_, he⟩ <;> rw [he]
  · exact h1
  · unfold State.edgeAcquiring
    dsimp only
    split
    · exact halign _ _ (htb _ _ h1)
    · exact htb _ _ h1
  · unfold State.edgeMatched
    dsimp only
    split_ifs
    · exact htb _ _ h1
    · exact hacquire _ _ (htb _ _ h1)
    · exact htb _ _ h1
  · exact hacquire _ _ h1

theorem State.refChanged_stay (h : s.RecordsWF) (old : RefState) : s.HoldersStay (s.refChanged old) :=
  h.frame (by simp) (by simp) (by simp)

theorem State.refEdge_stay (h : s.RecordsWF) : s.HoldersStay s.refEdge := by
  refine State.refEdge_induction (P := s.HoldersStay) ?_ ?_ ?_ ?_ ?_ ?_ s h.refl
  · exact fun u x hu => hu.of_frame rfl rfl rfl
  · exact fun u old hu => hu.trans (State.refChanged_stay hu.wf old)
  · exact fun u c hu => hu.trans (State.settleChannel_stay hu.wf c)
  · exact fun u d hu => hu.of_frame (by simp) (by simp) (by simp)
  · exact fun u stamp limit c hu => hu.trans (State.channelStep_stay hu.wf stamp limit c)
  · exact fun u d hu => hu.trans (State.rosterStep_stay hu.wf d)

end

end Sys2Proof.Machine
end

section
/-! The population of the slots: what each command keeps of the roster's invariant, the urgent queue's and the bound
counts (R64, R81, R89, R90). -/

namespace Sys2Proof.Machine

section

variable {s t u : State} {i : Fin 48} {c : Fin 16}

/-! ## Turns of the link (R80 to R84) -/

theorem State.beginTurn_stay (h : s.RecordsWF) (i : Fin 48) (urgent : Bool) : s.HoldersStay (s.beginTurn i urgent) where
  records k := .refl (h k)
  urgent := by
    rintro ⟨hnodup, hall⟩
    cases urgent with
    | false => exact ⟨hnodup, hall⟩
    | true => exact ⟨hnodup.erase i, fun k hk => hall k (List.mem_of_mem_erase hk)⟩
  channels k := .refl _

theorem JamContext.WF.setTaken {j : JamContext} (h : j.WF) (st label : Nat) : (j.setTaken st label).WF := by
  obtain ⟨hrem, hretries, -, hdelay⟩ := h
  exact ⟨hrem, hretries, Nat.le_refl 5, hdelay⟩

theorem State.setTurn_stay (h : s.RecordsWF) {j : JamContext} (hj : (s.slot i).jam = some j) (addr : Nat) :
    s.HoldersStay (s.setTurn i j addr) := by
  unfold State.setTurn
  dsimp only
  split
  next label _ =>
    have hset := (h i).withJam hj (((h i).jam_wf hj).setTaken s.tb.st label) (.inl rfl)
    exact (State.SlotUpdate.stay (.setSlot hset id) h (by simp)).of_frame (by simp) (by simp [State.send]) (by simp)
  next =>
    have hend := State.jamEnd_failed_update (h i) hj (o := .sourceStopped) (by decide)
    exact (hend.stay h (by simp)).of_frame (by simp) (by simp [State.sendCall, State.send]) (by simp)

theorem State.takeTurn_stay (h : s.RecordsWF) : s.HoldersStay s.takeTurn := by
  have hcall : ∀ i urgent addr, s.HoldersStay ((s.beginTurn i urgent).sendCall addr) := fun i urgent addr =>
    (State.beginTurn_stay h i urgent).of_frame (by simp) (by simp [State.sendCall, State.send]) (by simp)
  unfold State.takeTurn
  split
  next i _ =>
    unfold State.urgentTurn
    dsimp only
    split
    next j hj =>
      split
      · have hbegin := State.beginTurn_stay h i true
        exact hbegin.trans (State.setTurn_stay hbegin.wf hj _)
      · exact hcall _ _ _
    · exact hcall _ _ _
  · exact hcall _ _ _
  · exact h.frame rfl rfl rfl

theorem State.deliverMiss_stay (h : s.RecordsWF) (turn : Turn) : s.HoldersStay (s.deliverMiss turn) := by
  unfold State.deliverMiss
  split
  · exact (State.deviceMiss_update (h turn.slot)).stay h (by simp)
  · exact h.refl

theorem State.answerDelivery_stay (h : s.RecordsWF) (turn : Turn) (stamp : Nat) (gen : BitVec 16) (chars : List RxChar)
    (quiet : Bool) : s.HoldersStay (s.answerDelivery turn stamp gen chars quiet) := by
  unfold State.answerDelivery
  split_ifs with _ haddr
  · have h1 := h.frame (t := { s with lc := { s.lc with garbled := s.lc.garbled + 1 } }) rfl rfl rfl
    exact h1.trans (State.deliverMiss_stay h1.wf turn)
  · exact h.frame rfl rfl rfl
  · exact h.refl
  · exact State.reportArrival_stay h (by simp_all [State.holdsAddress]) _

theorem State.putBack_stay (h : s.RecordsWF) (turn : Turn) : s.HoldersStay (s.putBack turn) := by
  unfold State.putBack
  split
  next hc =>
    simp only [Bool.and_eq_true, beq_iff_eq, Bool.not_eq_true', List.contains_eq_mem, decide_eq_false_iff_not] at hc
    obtain ⟨⟨-, hjam⟩, hnot⟩ := hc
    refine ⟨fun k => .refl (h k), ?_, fun k => .refl _⟩
    rintro ⟨hnodup, hall⟩
    refine ⟨hnodup.append (by simp) (by simpa using hnot), fun k hk => ?_⟩
    rcases List.mem_append.mp hk with hk | hk
    · exact hall k hk
    · rwa [List.mem_singleton.mp hk]
  next => exact h.refl

/-! ## The roster's and the log unit's orders -/

theorem State.rosterReport_stay (h : s.RecordsWF) (i : Fin 48) (code : Result) :
    s.HoldersStay (s.rosterReport i code) :=
  ((State.setLastResult_update (h i) (some code)).stay h (by simp)).of_frame (by simp [State.rosterReport])
    (by simp [State.rosterReport]) (by simp [State.rosterReport])

/-- An order that changes its slot's record and terminates. -/
theorem State.SlotUpdate.report_stay (h : s.SlotUpdate i (s.slot i) t) (hall : s.RecordsWF)
    (hchans : t.chans = s.chans) (code : Result) : s.HoldersStay (t.rosterReport i code) :=
  (h.stay hall hchans).trans (State.rosterReport_stay (h.stay hall hchans).wf i code)

theorem setDeviceOrder_stay (h : s.RecordsWF) (o : Order) : s.HoldersStay (setDeviceOrder o s) := by
  unfold setDeviceOrder
  split
  · exact h.frame (by simp) (by simp) (by simp)
  next i _ =>
    split
    · exact State.rosterReport_stay h i _
    next delay window recovery source hfields =>
      obtain ⟨hdelay, hwindow⟩ := setDeviceFields_bounds hfields
      dsimp only
      split_ifs with hempty hcls
      · exact State.rosterReport_stay h i _
      · exact State.rosterReport_stay h i _
      · have h1 := (h i).configured ((Device.occupied_iff _).mpr hempty) (recovery := recovery) source hwindow hcls
        refine State.SlotUpdate.report_stay (.setSlot (h1.trans (h1.1.delaySet hdelay)) ?_) h (by simp) _
        rintro hs
        simp [Device.setDelay, hs]

theorem adoptOrder_stay (h : s.RecordsWF) (o : Order) : s.HoldersStay (adoptOrder o s) := by
  unfold adoptOrder
  split
  · exact h.frame (by simp) (by simp) (by simp)
  next i _ =>
    split_ifs with hempty hjam
    · exact State.rosterReport_stay h i _
    · exact State.rosterReport_stay h i _
    · exact State.SlotUpdate.report_stay (.setSlot ((h i).readopted ⟨hempty, hjam⟩) (absurd · hjam)) h (by simp) _

theorem State.jamCheck_ok {o : Order} {p : Fin 16 × Nat} (h : s.jamCheck i o = .ok p) :
    (s.slot i).state.rememberable = true ∧ p.2 ≤ 3 := by
  unfold State.jamCheck at h
  dsimp only at h
  split at h
  · cases h
  next given retries hfields =>
    have hretries : retries ≤ 3 := by
      unfold jamFields at hfields
      split at hfields
      · split at hfields
        next hle => cases hfields; exact hle
        next => cases hfields
      · cases hfields
    split_ifs at h with hempty hjamming habsent
    split at h
    · cases h
    · split_ifs at h
      cases h
      refine ⟨?_, hretries⟩
      cases hs : (s.slot i).state <;> simp_all [DevState.rememberable]

theorem State.startJam_update (h : (s.slot i).WF) (hs : (s.slot i).state.rememberable = true) (source : Fin 16)
    (origin : JamOrigin) {retries : Nat} (hr : retries ≤ 3) (waiting : Bool) :
    s.SlotUpdate i (s.slot i) (s.startJam i source origin retries waiting) :=
  .urgentInsert (.setSlot (h.jamStarted hs source origin hr waiting) fun _ => rfl) (by simp)

theorem jamOrder_stay (h : s.RecordsWF) (o : Order) : s.HoldersStay (jamOrder o s) := by
  unfold jamOrder
  split
  · exact h.frame (by simp) (by simp) (by simp)
  next i _ =>
    split
    · exact State.rosterReport_stay h i _
    next source retries hcheck =>
      obtain ⟨hrem, hretries⟩ := State.jamCheck_ok hcheck
      have h1 := State.setLastResult_update (h i) none
      have h2 := h1.trans (State.startJam_update h1.record.1 (by simpa [State.setLastResult] using hrem) source .order
        hretries o.waitFlag)
      dsimp only
      split
      · exact (h2.stay h (by simp)).of_frame (by simp) (by simp) (by simp)
      · exact h2.report_stay h (by simp) _

theorem exchangeOrder_stay (h : s.RecordsWF) (o : Order) : s.HoldersStay (exchangeOrder o s) := by
  unfold exchangeOrder
  split
  · exact h.frame (by simp) (by simp) (by simp)
  next i _ =>
    dsimp only
    split
    · exact State.rosterReport_stay h i _
    · split
      · exact State.rosterReport_stay h i _
      · exact (State.SlotUpdate.stay (.setSlot ((h i).shown true none) id) h (by simp)).of_frame (by simp) (by simp)
          (by simp)

theorem State.orderMark_occupied {stForm : Bool} {w0 w1 sub : Word} {m : MarkOrigin}
    (h : s.orderMark stForm w0 w1 sub = .ok m) : m.Occupied s := by
  unfold State.orderMark at h
  split at h
  · cases h
    trivial
  · split at h
    · cases h
    · split_ifs at h with _ hempty
      split at h
      · cases h
      · cases h
        exact (Device.occupied_iff _).mpr hempty

theorem injectMarkOrder_stay (h : s.RecordsWF) (o : Order) : s.HoldersStay (injectMarkOrder o s) := by
  unfold injectMarkOrder
  split
  · exact h.frame (by simp) (by simp) (by simp)
  next kind _ =>
    split
    · exact h.frame (by simp) (by simp) (by simp)
    next m hm =>
      exact (State.takeMark_stay h kind (State.orderMark_occupied hm)).of_frame (by simp) (by simp) (by simp)

/-! ## Aborts and engine clear -/

/-- A jam that is no longer waited for. -/
theorem Device.WF.notWaiting {d : Device} (h : d.WF) :
    d.Succeeds { d with jam := d.jam.map fun j => { j with waiting := false } } := by
  cases hj : d.jam with
  | none =>
    have he : ({ d with jam := (none : Option JamContext).map fun j => { j with waiting := false } } : Device) = d := by
      rw [Option.map_none, ← hj]
    rw [he]
    exact .refl h
  | some j =>
    have hjwf : j.WF := h.jam_wf hj
    exact h.withJam hj (j' := { j with waiting := false }) hjwf (.inl rfl)

theorem State.dropKept_stay (h : s.RecordsWF) : s.HoldersStay s.dropKept := by
  unfold State.dropKept
  split
  · exact State.SlotUpdate.stay (.setSlot (h _).notWaiting id) h (by simp)
  · split
    next e _ =>
      split
      · exact State.HoldersStay.of_frame (t := s.clearHold e.slot)
          (State.SlotUpdate.stay (.setSlot (h e.slot).clearedHold id) h (by simp)) (by simp) (by simp) (by simp)
      · exact h.frame rfl rfl rfl
    · exact h.refl
  · exact h.refl

theorem State.clearEngine_stay (h : s.RecordsWF) : s.HoldersStay s.clearEngine := by
  have h1 := h.frame (t := s.cutEngine) (by simp) (by simp) (by simp)
  have h2 := h1.trans (State.dropKept_stay h1.wf)
  exact h2.of_frame (by simp [State.clearEngine]) (by simp [State.clearEngine]) (by simp [State.clearEngine])

end

end Sys2Proof.Machine
end

section
/-! ENROL, RELEASE and an EXCHANGE's swap, which change the holder of a slot; the invariants O48, O40 and O27. -/

namespace Sys2Proof.Machine

section

variable {s t u : State} {i : Fin 48} {c : Fin 16}

/-! ## What every step keeps -/

/-- The invariants of the roster, the urgent queue, the bound counts and the channels, the roster's being the premise of
the others. -/
def State.KeepsPopulation (s t : State) : Prop :=
  s.RosterWF → t.RosterWF ∧ (s.UrgentWF → t.UrgentWF) ∧ (s.BoundWF → t.BoundWF) ∧
    ((∀ c, (s.chan c).WF) → ∀ c, (t.chan c).WF)

theorem State.RosterWF.records (h : s.RosterWF) : s.RecordsWF := h.1

theorem State.KeepsPopulation.trans (h : s.KeepsPopulation t) (h' : t.KeepsPopulation u) : s.KeepsPopulation u := by
  intro hs
  obtain ⟨hr, hu, hb, hc⟩ := h hs
  obtain ⟨hr', hu', hb', hc'⟩ := h' hr
  exact ⟨hr', hu' ∘ hu, hb' ∘ hb, hc' ∘ hc⟩

theorem State.boundSlots_congr (h : ∀ i, (s.slot i).SameHolder (t.slot i)) (c : Fin 16) :
    t.boundSlots c = s.boundSlots c := by
  refine List.countP_congr fun i _ => ?_
  obtain ⟨hocc, -, hbound⟩ := h i
  rw [hocc, hbound]

theorem State.HoldersStay.keepsPopulation (h : s.RecordsWF → s.HoldersStay t) : s.KeepsPopulation t := by
  intro hs
  have h := h hs.records
  refine ⟨⟨h.wf, fun i j hi hj ha => ?_⟩, h.urgent, fun hb c => ?_, fun hc c => (h.channels c).wf (hc c)⟩
  · obtain ⟨hocc, haddr, -⟩ := (h.records i).2
    obtain ⟨hocc', haddr', -⟩ := (h.records j).2
    exact hs.2 i j (hocc ▸ hi) (hocc' ▸ hj) (haddr ▸ haddr' ▸ ha)
  · obtain ⟨hbound, hkind, -⟩ := h.channels c
    rw [State.boundSlots_congr fun i => (h.records i).2, hbound, hkind]
    exact hb c

theorem State.KeepsPopulation.refl (s : State) : s.KeepsPopulation s := fun h => ⟨h, id, id, id⟩

theorem State.KeepsPopulation.of_frame (h : s.KeepsPopulation t) (hslots : u.slots = t.slots)
    (hurgent : u.lc.urgent = t.lc.urgent) (hchans : u.chans = t.chans) : s.KeepsPopulation u :=
  h.trans (State.HoldersStay.keepsPopulation fun hr => hr.frame hslots hurgent hchans)

/-! ## A slot that takes another record -/

/-- How much of a bound count is the record's own: 1 when it is occupied and bound to the channel. -/
def Device.bindsTo (d : Device) (c : Fin 16) : Nat := if d.occupied && d.boundTo == some c then 1 else 0

theorem State.boundSlots_setSlot (s : State) (i : Fin 48) (x : Device) (c : Fin 16) :
    (s.setSlot i x).boundSlots c + (s.slot i).bindsTo c = s.boundSlots c + x.bindsTo c := by
  have hperm : List.Perm (List.finRange 48) (i :: (List.finRange 48).erase i) :=
    List.perm_cons_erase (List.mem_finRange i)
  have hrest : ((List.finRange 48).erase i).countP
        (fun k => ((s.setSlot i x).slot k).occupied && ((s.setSlot i x).slot k).boundTo == some c) =
      ((List.finRange 48).erase i).countP (fun k => (s.slot k).occupied && (s.slot k).boundTo == some c) := by
    refine List.countP_congr fun k hk => ?_
    have hki : k ≠ i := fun he => (List.nodup_finRange 48).not_mem_erase (he ▸ hk)
    rw [State.setSlot_slot_other s i k x hki]
  simp only [State.boundSlots]
  rw [hperm.countP_eq, hperm.countP_eq (p := fun k => (s.slot k).occupied && _), List.countP_cons, List.countP_cons,
    hrest, State.setSlot_slot_same, Device.bindsTo, Device.bindsTo]
  omega

/-- The bound counts follow the record that a slot takes, and no SAMPLE channel is bound (R64). -/
theorem State.BoundWF.replace (h : s.BoundWF) (hslot : ∀ k, t.slot k = (s.setSlot i x).slot k)
    (hcount : ∀ c, (t.chan c).bound + (s.slot i).bindsTo c = (s.chan c).bound + x.bindsTo c)
    (hkind : ∀ c, (t.chan c).kind = (s.chan c).kind)
    (hpicture : ∀ c, x.boundTo = some c → (s.chan c).kind = .picture) : t.BoundWF := by
  intro c
  have hsum := s.boundSlots_setSlot i x c
  have hsame : t.boundSlots c = (s.setSlot i x).boundSlots c :=
    State.boundSlots_congr (fun k => by rw [hslot k]; exact ⟨rfl, rfl, rfl⟩) c
  have hc := hcount c
  obtain ⟨hb, hp⟩ := h c
  refine ⟨by omega, fun hne => ?_⟩
  rw [hkind c]
  by_cases hx : x.boundTo = some c
  · exact hpicture c hx
  · refine hp fun hz => hne ?_
    have : x.bindsTo c = 0 := by simp [Device.bindsTo, hx]
    omega

/-- Another record in a slot keeps the roster well formed when no other slot holds its address (R90). -/
theorem State.RosterWF.replace (h : s.RosterWF) {x : Device} (hx : x.WF)
    (haddr : x.occupied = true → s.addressTaken i x.linkAddr = false)
    (hslot : ∀ k, t.slot k = (s.setSlot i x).slot k) : t.RosterWF := by
  have hfree : x.occupied = true → ∀ k ≠ i, (s.slot k).occupied = true → (s.slot k).linkAddr ≠ x.linkAddr := by
    rintro hocc k hk hko ha
    have := haddr hocc
    simp only [State.addressTaken, List.any_eq_false, List.mem_finRange, true_implies, Bool.and_eq_true, bne_iff_ne,
      beq_iff_eq, not_and] at this
    exact this k ⟨hk, hko⟩ ha
  refine ⟨fun k => ?_, fun j k hj hk ha => ?_⟩
  · rw [hslot]
    by_cases hk : k = i
    · rw [hk, State.setSlot_slot_same]
      exact hx
    · rw [State.setSlot_slot_other s i k x hk]
      exact h.1 k
  · rw [hslot] at hj hk ha
    rw [hslot] at ha
    by_cases hji : j = i <;> by_cases hki : k = i
    · rw [hji, hki]
    · rw [hji] at hj ha
      rw [State.setSlot_slot_same] at hj ha
      rw [State.setSlot_slot_other s i k x hki] at hk ha
      exact absurd ha.symm (hfree hj k hki hk)
    · rw [hki] at hk ha
      rw [State.setSlot_slot_same] at hk ha
      rw [State.setSlot_slot_other s i j x hji] at hj ha
      exact absurd ha (hfree hk j hji hj)
    · rw [State.setSlot_slot_other s i j x hji] at hj ha
      rw [State.setSlot_slot_other s i k x hki] at hk ha
      exact h.2 j k hj hk ha

/-- A well-formed record counts for the channel it names: an EMPTY one names none (R90). -/
theorem Device.WF.bindsTo {d : Device} (h : d.WF) (c : Fin 16) :
    d.bindsTo c = if d.boundTo = some c then 1 else 0 := by
  cases hocc : d.occupied with
  | true => simp [Device.bindsTo, hocc]
  | false =>
    obtain ⟨-, -, -, -, -, hempty, -⟩ := h
    have hb : d.boundTo = none := by rw [hempty hocc]; rfl
    simp [Device.bindsTo, hocc, hb]

theorem State.raiseBound_chan (s : State) (b : Option (Fin 16)) (c : Fin 16) :
    (s.raiseBound b).chan c = { s.chan c with bound := (s.chan c).bound + if b = some c then 1 else 0 } := by
  cases b with
  | none => rfl
  | some k =>
    by_cases hk : c = k
    · simp [State.raiseBound, hk]
    · rw [State.raiseBound, State.setChan_chan_other s k c _ hk, if_neg (by simpa using Ne.symm hk)]
      rfl

theorem State.lowerBound_chan (s : State) (b : Option (Fin 16)) (c : Fin 16) :
    (s.lowerBound b).chan c = { s.chan c with bound := (s.chan c).bound - if b = some c then 1 else 0 } := by
  cases b with
  | none => rfl
  | some k =>
    by_cases hk : c = k
    · simp [State.lowerBound, hk]
    · rw [State.lowerBound, State.setChan_chan_other s k c _ hk, if_neg (by simpa using Ne.symm hk)]
      rfl

/-- A slot that takes another record, its urgent entry gone and the bound counts following. -/
theorem State.RosterWF.replaced {x : Device} (h : s.RosterWF) (hx : x.WF)
    (haddr : x.occupied = true → s.addressTaken i x.linkAddr = false)
    (hslot : ∀ k, t.slot k = (s.setSlot i x).slot k)
    (hurgent : s.UrgentWF → t.lc.urgent.Nodup ∧ ∀ k ∈ t.lc.urgent, k ∈ s.lc.urgent ∧ k ≠ i)
    (hchan : ∀ c, t.chan c = { s.chan c with bound := (t.chan c).bound })
    (hcount : s.BoundWF → ∀ c, (t.chan c).bound + (s.slot i).bindsTo c = (s.chan c).bound + x.bindsTo c)
    (hpicture : s.bindable x.boundTo = true) :
    t.RosterWF ∧ (s.UrgentWF → t.UrgentWF) ∧ (s.BoundWF → t.BoundWF) ∧
      ((∀ c, (s.chan c).WF) → ∀ c, (t.chan c).WF) := by
  refine ⟨h.replace hx haddr hslot, fun hu => ?_, fun hb => ?_, fun hc c => ?_⟩
  · obtain ⟨hnodup, hmem⟩ := hurgent hu
    refine ⟨hnodup, fun k hk => ?_⟩
    obtain ⟨hk, hki⟩ := hmem k hk
    rw [hslot, State.setSlot_slot_other s i k x hki]
    exact hu.2 k hk
  · refine hb.replace hslot (hcount hb) (fun c => by rw [hchan]) fun c hc => ?_
    simpa [State.bindable, hc] using hpicture
  · rw [hchan]
    exact hc c

/-- Its successor's bound count takes the place of the record's. -/
theorem State.BoundWF.one_le (h : s.BoundWF) (hwf : (s.slot i).WF) (c : Fin 16) :
    (if (s.slot i).boundTo = some c then 1 else 0) ≤ (s.chan c).bound := by
  have hsum := s.boundSlots_setSlot i Device.emptyRecord c
  rw [hwf.bindsTo, show Device.emptyRecord.bindsTo c = 0 from rfl] at hsum
  rw [(h c).1]
  omega

/-! ## ENROL, RELEASE and the swap (R107, R110, R116) -/

theorem State.rosterReport_population (s : State) (i : Fin 48) (code : Result) :
    s.KeepsPopulation (s.rosterReport i code) :=
  State.HoldersStay.keepsPopulation fun h => State.rosterReport_stay h i code

theorem State.report_population (s : State) (code : Result) : s.KeepsPopulation (s.report code) :=
  State.HoldersStay.keepsPopulation fun h => h.frame (by simp) (by simp) (by simp)

theorem enrolOrder_population (s : State) (o : Order) : s.KeepsPopulation (enrolOrder o s) := by
  unfold enrolOrder
  split
  · exact s.report_population _
  next i _ =>
    split
    · exact s.rosterReport_population i _
    next d hd =>
      obtain ⟨hwf, hstate, hempty, haddr, hbind⟩ := State.enrolCheck_ok hd
      refine State.KeepsPopulation.trans (fun hs => ?_) (State.rosterReport_population _ i _)
      have hne : (s.slot i).state ≠ .jamming := by
        intro hj
        simp [Device.occupied, hj] at hempty
      refine hs.replaced (i := i) hwf (fun _ => haddr) (fun k => State.slot_congr (by simp) k) (fun hu => ?_)
        (fun c => by rw [State.raiseBound_chan]; rfl) (fun _ c => ?_) hbind
      · exact ⟨by simpa using hu.1, fun k hk => ⟨by simpa using hk, fun he =>
          hne (he ▸ hu.2 k (by simpa using hk))⟩⟩
      · rw [State.raiseBound_chan, hwf.bindsTo, Device.bindsTo, hempty]
        rfl

/-- What an abandoned jam leaves for a RELEASE to clear. -/
theorem State.jamAbandon_slot (s : State) (i k : Fin 48) :
    ((s.jamAbandon i).slot k = if k = i then { s.slot i with jam := none } else s.slot k) := by
  unfold State.jamAbandon
  split
  next hj =>
    split
    next hk => rw [hk, ← hj]
    next => rfl
  next =>
    dsimp only
    rw [State.sysEvent_slot, State.urgentRemove_slot]
    split
    next hk => rw [hk, State.setSlot_slot_same]
    next hk => rw [State.setSlot_slot_other s i k _ hk]

theorem State.jamAbandon_urgent (s : State) (i : Fin 48) : (s.jamAbandon i).lc.urgent.Sublist s.lc.urgent := by
  unfold State.jamAbandon
  split
  · exact List.Sublist.refl _
  · simp [State.urgentRemove]

/-- The state in which a RELEASE frees the bound count: no jam context and no urgent entry in the slot. -/
theorem State.jamCleared (s : State) (i : Fin 48) {t : State} (ht : t = (s.jamAbandon i).urgentRemove i) :
    (∀ k, t.slot k = if k = i then { s.slot i with jam := none } else s.slot k) ∧ t.chans = s.chans ∧
      (s.lc.urgent.Nodup → t.lc.urgent.Nodup ∧ ∀ k ∈ t.lc.urgent, k ∈ s.lc.urgent ∧ k ≠ i) := by
  subst ht
  refine ⟨fun k => ?_, by simp, fun hnodup => ?_⟩
  · rw [State.urgentRemove_slot, State.jamAbandon_slot]
  · have hsub := s.jamAbandon_urgent i
    refine ⟨(hnodup.sublist hsub).filter _, fun k hk => ?_⟩
    obtain ⟨hk, hki⟩ := List.mem_filter.mp hk
    exact ⟨hsub.mem hk, by simpa using hki⟩

theorem releaseOrder_population (s : State) (o : Order) : s.KeepsPopulation (releaseOrder o s) := by
  unfold releaseOrder
  split
  · exact s.report_population _
  next i _ =>
    split
    · exact s.rosterReport_population i _
    · dsimp only
      refine State.KeepsPopulation.trans (fun hs => ?_) (State.rosterReport_population _ i _)
      obtain ⟨hslot, hchans, hurgent⟩ := s.jamCleared i rfl
      generalize (s.jamAbandon i).urgentRemove i = s1 at hslot hchans hurgent ⊢
      have hwf : (s.slot i).WF := hs.1 i
      have hempty := Device.emptyRecord_wf false ((s1.lowerBound (s1.slot i).boundTo).slot i).lastResult
      have hchan : ∀ c, ((s1.lowerBound (s1.slot i).boundTo).emptySlot i).chan c =
          { s.chan c with bound := (s.chan c).bound - if (s.slot i).boundTo = some c then 1 else 0 } := by
        intro c
        have hbound : (s1.slot i).boundTo = (s.slot i).boundTo := by rw [hslot, if_pos rfl]
        rw [State.chan_congr (State.emptySlot_frame _ i).2.1, State.lowerBound_chan, hbound, State.chan_congr hchans]
      refine hs.replaced (i := i) hempty nofun (fun k => ?_) (fun hu => ?_) (fun c => by rw [hchan])
        (fun hb c => ?_) rfl
      · by_cases hk : k = i
        · rw [hk, State.emptySlot, State.setSlot_slot_same, State.setSlot_slot_same]
          rfl
        · rw [State.emptySlot, State.setSlot_slot_other _ i k _ hk, State.setSlot_slot_other _ i k _ hk,
            State.slot_congr (s := s1) (by simp), hslot, if_neg hk]
      · simpa using hurgent hu.1
      · rw [hchan, hwf.bindsTo, hempty.bindsTo]
        have := hb.one_le hwf c
        simp only [Device.emptyRecord, reduceCtorEq, if_false]
        omega

theorem State.swapBound_chan (s : State) (old new : Option (Fin 16)) (c : Fin 16) :
    ∃ n, (s.swapBound old new).chan c = { s.chan c with bound := n } ∧
      ((if old = some c then 1 else 0) ≤ (s.chan c).bound →
        n + (if old = some c then 1 else 0) = (s.chan c).bound + (if new = some c then 1 else 0)) := by
  unfold State.swapBound
  split
  next he => exact ⟨(s.chan c).bound, rfl, fun _ => by rw [he]⟩
  next =>
    refine ⟨_, by rw [State.raiseBound_chan, State.lowerBound_chan], fun hle => ?_⟩
    simp only
    omega

theorem State.exchangeSwap_population {e : Exchange} {image : List Word} {d : Device}
    (hd : s.validateImage e.slot image = .ok d) (hjam : (s.slot e.slot).state ≠ .jamming) :
    s.KeepsPopulation (s.exchangeSwap e d) := by
  intro hs
  have hok : d.WF ∧ (d.occupied = true → s.addressTaken e.slot d.linkAddr = false) ∧ s.bindable d.boundTo = true := by
    rcases State.validateImage_ok hd with rfl | ⟨st, hst, himage⟩
    · exact ⟨Device.emptyRecord_wf false none, nofun, rfl⟩
    · obtain ⟨-, -, -, -, -, -, haddr, -, -, -, -, hbind, -⟩ := State.imageCheck_ok himage
      exact ⟨State.imageCheck_wf hst himage, fun _ => haddr, hbind⟩
  obtain ⟨hwf, haddr, hbind⟩ := hok
  have hx := (hwf.shown (s.slot e.slot).held (s.slot e.slot).lastResult).1
  have hold : (s.slot e.slot).WF := hs.1 e.slot
  unfold State.exchangeSwap
  dsimp only
  have hchan := fun c => State.swapBound_chan
    (s.setSlot e.slot { d with held := (s.slot e.slot).held, lastResult := (s.slot e.slot).lastResult })
    (s.slot e.slot).boundTo d.boundTo c
  refine hs.replaced (i := e.slot) hx haddr (fun k => State.slot_congr (by simp) k) (fun hu => ?_) (fun c => ?_)
    (fun hb c => ?_) hbind
  · exact ⟨by simpa using hu.1, fun k hk => ⟨by simpa using hk, fun he =>
      hjam (he ▸ hu.2 k (by simpa using hk))⟩⟩
  · obtain ⟨n, hn, -⟩ := hchan c
    rw [State.chan_congr (State.setExchange_frame _ _).2.1, hn]
    rfl
  · obtain ⟨n, hn, hsum⟩ := hchan c
    rw [State.chan_congr (State.setExchange_frame _ _).2.1, hn, hold.bindsTo, hx.bindsTo]
    exact hsum (hb.one_le hold c)

/-! ## Orders, ends of service and the exchange -/

/-- A roster order, whatever its kind. -/
theorem rosterOrder_population (s : State) (o : Order) : s.KeepsPopulation (rosterOrder o s) := by
  unfold rosterOrder
  split
  · exact enrolOrder_population s o
  · exact State.HoldersStay.keepsPopulation (setDeviceOrder_stay · o)
  · exact releaseOrder_population s o
  · exact State.HoldersStay.keepsPopulation (adoptOrder_stay · o)
  · exact State.HoldersStay.keepsPopulation (exchangeOrder_stay · o)
  · exact State.HoldersStay.keepsPopulation (jamOrder_stay · o)
  all_goals exact .refl s

theorem State.handHeld_population (s : State) : s.KeepsPopulation s.handHeld := by
  unfold State.handHeld
  split
  · exact rosterOrder_population s _
  · exact .refl s

theorem State.endExchange_population (s : State) (e : Exchange) (code : Result) :
    s.KeepsPopulation (s.endExchange e code) := by
  have h1 : s.KeepsPopulation (((s.clearHold e.slot).setLastResult e.slot (some code)).setExchange none) := by
    refine State.HoldersStay.keepsPopulation fun h => ?_
    have hclear : s.SlotUpdate e.slot (s.slot e.slot) (s.clearHold e.slot) := .setSlot (h e.slot).clearedHold id
    exact ((hclear.trans (State.setLastResult_update hclear.record.1 (some code))).stay h (by simp)).of_frame (by simp)
      (by simp) (by simp)
  unfold State.endExchange
  dsimp only
  split
  · exact h1.trans (State.handHeld_population _)
  · exact h1.trans (State.report_population _ code)

theorem State.serviceEnded_population (s : State) (i : Fin 48) : s.KeepsPopulation (s.serviceEnded i) := by
  unfold State.serviceEnded
  split
  · split_ifs
    · exact s.endExchange_population _ _
    · exact (State.KeepsPopulation.refl s).of_frame (by simp) (by simp) (by simp)
    · exact .refl s
  · exact .refl s

theorem State.endTurn_population (s : State) (turn : Turn) : s.KeepsPopulation (s.endTurn turn) := by
  refine State.KeepsPopulation.trans ?_ (State.serviceEnded_population _ _)
  exact (State.HoldersStay.keepsPopulation (State.putBack_stay · turn)).of_frame rfl rfl rfl

theorem State.exchangeRead_population (s : State) (e : Exchange) (got : List Word) :
    s.KeepsPopulation (s.exchangeRead e got) := by
  unfold State.exchangeRead
  split
  · exact s.endExchange_population _ _
  next hjam =>
    split
    · exact s.endExchange_population _ _
    next d hd => exact State.exchangeSwap_population hd hjam

theorem State.abortKept_population (s : State) (k : Kept) : s.KeepsPopulation (s.abortKept k) := by
  cases k with
  | jam i =>
    refine State.HoldersStay.keepsPopulation fun h => ?_
    have hnot := (h i).notWaiting
    have hjam := State.SlotUpdate.setSlot (s := s) (i := i) (hnot.trans (hnot.1.result (some .aborted))) id
    exact (hjam.stay h (by simp)).of_frame (by simp [State.abortKept, State.abortJam])
      (by simp [State.abortKept, State.abortJam]) (by simp [State.abortKept, State.abortJam])
  | exchange =>
    show s.KeepsPopulation s.abortExchange
    unfold State.abortExchange
    split
    · split
      · exact s.endExchange_population _ _
      · exact .refl s
    · exact .refl s
  | flushLog =>
    show s.KeepsPopulation s.abortFlush
    exact (State.KeepsPopulation.refl s).of_frame (by simp) (by simp) (by simp)

theorem State.abortChain_population (s : State) : s.KeepsPopulation s.abortChain := by
  have hset := (State.KeepsPopulation.refl s).of_frame (u := s.setStopAfter) (by simp) (by simp) (by simp)
  have hreport := hset.trans (s.setStopAfter.report_population .aborted)
  unfold State.abortChain
  split
  · exact .refl s
  · split
    · exact .refl s
    · split
      · exact hreport
      · exact (State.KeepsPopulation.refl s).of_frame (by simp) (by simp) (by simp)
    · exact hreport
    · exact hreport
    · exact hset
    · exact hset
    · exact hset
    · exact hset.trans (State.abortKept_population _ _)

/-! ## SET CHANNEL and the other channel orders -/

theorem Channel.configure_bound (ch : Channel) (kind : ChanKind) (set : Settings) :
    (ch.configure kind set).bound = ch.bound ∧
      ((ch.configure kind set).kind = kind ∨ (ch.configure kind set).kind = ch.kind) := by
  unfold Channel.configure
  split
  · exact ⟨rfl, .inl rfl⟩
  · exact ⟨rfl, .inl rfl⟩
  · exact ⟨rfl, .inr rfl⟩

theorem setChannelOrder_population (s : State) (o : Order) : s.KeepsPopulation (setChannelOrder o s) := by
  unfold setChannelOrder
  split
  next c kind set _ hset =>
    dsimp only
    split_ifs with _ _ hbound
    · exact s.report_population _
    · exact s.report_population _
    · exact s.report_population _
    · refine State.KeepsPopulation.trans (t := s.setChan c ((s.chan c).configure kind set))
        (fun hs => ⟨hs, id, fun hb k => ?_, fun hc k => ?_⟩) (State.report_population _ .done)
      · have hslots : (s.setChan c ((s.chan c).configure kind set)).boundSlots k = s.boundSlots k := rfl
        rw [hslots]
        by_cases hk : k = c
        · obtain ⟨he, hkind⟩ := (s.chan c).configure_bound kind set
          rw [hk, State.setChan_chan_same, he]
          obtain ⟨hcount, hpicture⟩ := hb c
          refine ⟨hcount, fun hne => ?_⟩
          rcases hkind with hkind | hkind <;> rw [hkind]
          · by_contra hp
            exact hbound ⟨hp, hne⟩
          · exact hpicture hne
        · rw [State.setChan_chan_other s c k _ hk]
          exact hb k
      · by_cases hk : k = c
        · rw [hk, State.setChan_chan_same]
          exact Channel.configure_wf (hc c) kind (channelSettings_wf hset)
        · rw [State.setChan_chan_other s c k _ hk]
          exact hc k
  · exact s.report_population _

theorem startChannelOrder_population (s : State) (o : Order) : s.KeepsPopulation (startChannelOrder o s) := by
  unfold startChannelOrder
  split
  · exact s.report_population _
  next c _ =>
    split
    · exact s.report_population _
    next hstopped =>
      have hstopped : (s.chan c).state = .stopped := not_not.mp hstopped
      dsimp only
      split
      · exact (State.HoldersStay.keepsPopulation fun h => h.setChan (Channel.succeeds_armed hstopped _)).trans
          (State.report_population _ _)
      · exact (State.HoldersStay.keepsPopulation fun h => State.lateStart_stay h hstopped _).trans
          (State.report_population _ _)

theorem stopChannelOrder_population (s : State) (o : Order) : s.KeepsPopulation (stopChannelOrder o s) := by
  unfold stopChannelOrder
  split
  · exact s.report_population _
  next c _ =>
    split
    · exact s.report_population _
    · exact (State.HoldersStay.keepsPopulation (State.stopChannel_stay · c)).trans (State.report_population _ _)
    next hrun =>
      exact (State.HoldersStay.keepsPopulation fun h => h.setChan (Channel.succeeds_stopPending hrun)).trans
        (State.report_population _ _)

/-! ## Every command -/

@[simp] theorem Link.tick_urgent (lc : Link) : lc.tick.urgent = lc.urgent := by
  unfold Link.tick
  split <;> rfl

theorem CommandEffect.keepsPopulation {cmd : Instr} (h : CommandEffect s cmd t) : s.KeepsPopulation t := by
  cases h with
  | referenceEdge => exact State.HoldersStay.keepsPopulation State.refEdge_stay
  | abort => exact s.abortChain_population
  | engineClear => exact State.HoldersStay.keepsPopulation State.clearEngine_stay
  | setChannel o => exact setChannelOrder_population s o
  | startChannel o => exact startChannelOrder_population s o
  | stopChannel o => exact stopChannelOrder_population s o
  | injectMark o => exact State.HoldersStay.keepsPopulation (injectMarkOrder_stay · o)
  | rosterOrder o => exact rosterOrder_population s o
  | channelEdge c edge hrun hnext => exact State.HoldersStay.keepsPopulation (State.emitEdge_stay · hrun hnext)
  | armedStart c start harmed => exact State.HoldersStay.keepsPopulation (State.armedStart_stay · harmed start)
  | pulseEnd c => exact State.HoldersStay.keepsPopulation fun h => h.setChan (Channel.succeeds_pulseEnd _)
  | nextTurn => exact State.HoldersStay.keepsPopulation State.takeTurn_stay
  | setTurnEnd turn => exact s.endTurn_population turn
  | answerEnd stamp gen turn chars quiet =>
    exact (State.HoldersStay.keepsPopulation (State.answerDelivery_stay · turn stamp gen chars quiet)).trans
      (State.endTurn_population _ turn)
  | windowClose turn =>
    exact (State.HoldersStay.keepsPopulation (State.deliverMiss_stay · turn)).trans (State.endTurn_population _ turn)
  | exchangeRead e got => exact s.exchangeRead_population e got
  | exchangeWritten e area image =>
    have hwrite : s.KeepsPopulation { s with mem := Memory.writeAll s.mem (wordsAt area image) } := fun h =>
      ⟨h, id, id, id⟩
    exact hwrite.trans (State.endExchange_population _ e .done)
  | _ => exact (State.KeepsPopulation.refl s).of_frame (by simp) (by simp [State.send]) (by simp)

theorem State.reset_slot (i : Fin 48) : State.reset.slot i = Device.emptyRecord := by
  simp [State.reset, State.slot, Vector.get]

theorem State.reset_chan (c : Fin 16) : State.reset.chan c = Channel.reset := by
  simp [State.reset, State.chan, Vector.get]

theorem State.reset_population :
    State.reset.RosterWF ∧ State.reset.UrgentWF ∧ State.reset.BoundWF ∧ ∀ c, (State.reset.chan c).WF := by
  refine ⟨⟨fun i => ?_, fun i j hi => ?_⟩, ⟨List.nodup_nil, by simp [State.reset, Link.reset]⟩, fun c => ?_,
    fun c => ?_⟩
  · rw [State.reset_slot]
    exact Device.emptyRecord_wf false none
  · rw [State.reset_slot] at hi
    exact absurd hi (by decide)
  · rw [State.reset_chan]
    refine ⟨?_, by simp [Channel.reset]⟩
    simp [State.boundSlots, State.reset_slot, Device.occupied, Device.emptyRecord, Channel.reset]
  · rw [State.reset_chan]
    refine (Channel.wf_idle (by simp [Channel.reset])).mpr ⟨⟨rfl, rfl, rfl, rfl⟩, by simp [Channel.reset], ?_, ?_⟩
    · exact ⟨by decide, by decide, by decide⟩
    · exact ⟨nofun, nofun⟩

theorem step_keepsPopulation (h : step s = .next t) : s.KeepsPopulation t := by
  rcases step_cases h with rfl | ⟨a, b, rest, he⟩ | ⟨c, rest, he⟩
  · exact (State.KeepsPopulation.refl s).of_frame (by simp) (by simp) (by simp)
  · rw [exec_reset_answer he]
    obtain ⟨hr, hu, hb, hc⟩ := State.reset_population
    exact fun _ => ⟨hr, fun _ => hu, fun _ => hb, fun _ => hc⟩
  · have hqueue : s.KeepsPopulation { s with pending := rest } := fun h => ⟨h, id, id, id⟩
    exact hqueue.trans (CommandEffect.keepsPopulation he)

end

/-! ## The three invariants -/

/-- Settles O48. -/
theorem rosterInvariant : Obligations.RosterInvariant := by
  intro s t hs h
  exact (step_keepsPopulation h hs).1

/-- Settles O40: the queue lists distinct slots, of which there are 48. -/
theorem urgentInvariant : Obligations.UrgentInvariant := by
  intro s t hs hu h
  obtain ⟨-, hurgent, -⟩ := step_keepsPopulation h hs
  have hwf := hurgent hu
  refine ⟨hwf, fun i hi => by simp [hwf.2 i hi], ?_⟩
  simpa using hwf.1.length_le_card

/-- Settles O27. -/
theorem channelInvariant : Obligations.ChannelInvariant := by
  intro s t hs hc hb h
  obtain ⟨-, -, hbound, hchans⟩ := step_keepsPopulation h hs
  exact ⟨hchans hc, hbound hb⟩

end Sys2Proof.Machine
end

section
/-! What the blocks do aside from the order in hand and the memory operations: records are submitted, causes raised, and
records of devices, channels, time base and link change. The log unit, the page writer and the order engine see of all
that only the records submitted. -/

namespace Sys2Proof.Machine

/-- The record has a jam whose order is waited for. -/
def Device.Waits (d : Device) : Prop := ∃ j, d.jam = some j ∧ j.waiting = true

/-- From `t` to `u` the log unit, the page writer, the exchange, the window's size and the engine but for its causes and
mask stay as they are, and no jam begins to be waited for. -/
structure State.SameHands (t u : State) : Prop where
  waits : ∀ i, (u.slot i).Waits → (t.slot i).Waits
  exch : u.exch = t.exch
  lu : u.lu = t.lu
  pw : u.pw = t.pw
  straps : u.straps = t.straps
  chain : u.oe.chain = t.oe.chain
  step : u.oe.step = t.oe.step
  block : u.oe.block = t.oe.block

/-- `t` can come of `s` by records submitted, the log unit's counters moved, and what `SameHands` allows. -/
inductive State.Aside (s : State) : State → Prop
  | refl : s.Aside s
  | submit {t : State} (h : s.Aside t) (r : TakeRecord) (hr : t.lu.WF → r.body.watch.length ≤ 4) : s.Aside (t.submit r)
  | counters {t : State} (h : s.Aside t) (lu : LogUnit) (hlu : t.lu.WF → lu.WF) (hqueue : lu.queue = t.lu.queue) :
    s.Aside { t with lu := lu }
  | rest {t u : State} (h : s.Aside t) (hsame : t.SameHands u) : s.Aside u

section

variable {s t u : State} {i : Fin 48} {c : Fin 16} {x : Device}

theorem State.Aside.trans (h : s.Aside t) (h' : t.Aside u) : s.Aside u := by
  induction h' with
  | refl => exact h
  | submit _ r hr ih => exact ih.submit r hr
  | counters _ lu hlu hqueue ih => exact ih.counters lu hlu hqueue
  | rest _ hsame ih => exact ih.rest hsame

theorem State.Aside.setSlot (h : s.Aside t) (hx : x.Waits → (t.slot i).Waits) : s.Aside (t.setSlot i x) :=
  h.rest
    { waits := fun k => by
        by_cases hk : k = i
        · rw [hk, State.setSlot_slot_same]
          exact hx
        · rw [State.setSlot_slot_other t i k x hk]
          exact id
      exch := by simp, lu := by simp, pw := by simp, straps := by simp, chain := by simp, step := by simp
      block := by simp }

/-- What changes none of the slots either. -/
theorem State.Aside.elsewhere (h : s.Aside t) (hslots : u.slots = t.slots) (hexch : u.exch = t.exch) (hlu : u.lu = t.lu)
    (hpw : u.pw = t.pw) (hstraps : u.straps = t.straps) (hchain : u.oe.chain = t.oe.chain)
    (hstep : u.oe.step = t.oe.step) (hblock : u.oe.block = t.oe.block) : s.Aside u :=
  h.rest ⟨fun k => by rw [State.slot_congr hslots]; exact id, hexch, hlu, hpw, hstraps, hchain, hstep, hblock⟩

theorem State.Aside.raise (h : s.Aside t) (c : Cause) : s.Aside (t.raise c) :=
  h.elsewhere rfl rfl rfl rfl rfl rfl rfl rfl

theorem State.Aside.setChan (h : s.Aside t) (c : Fin 16) (x : Channel) : s.Aside (t.setChan c x) :=
  h.elsewhere rfl rfl rfl rfl rfl rfl rfl rfl

theorem State.Aside.link (h : s.Aside t) (lc : Link) : s.Aside { t with lc := lc } :=
  h.elsewhere rfl rfl rfl rfl rfl rfl rfl rfl

theorem State.Aside.clock (h : s.Aside t) (tb : TimeBase) : s.Aside { t with tb := tb } :=
  h.elsewhere rfl rfl rfl rfl rfl rfl rfl rfl

theorem State.Aside.event (h : s.Aside t) (ev : SysEvent) : s.Aside (t.sysEvent ev) :=
  h.submit _ fun _ => Nat.zero_le 4

/-- A list of changes one after the other. -/
theorem State.Aside.foldl {α : Type} {f : State → α → State} (hf : ∀ (u : State) a, u.Aside (f u a)) (l : List α)
    (h : s.Aside t) : s.Aside (l.foldl f t) := by
  induction l generalizing t with
  | nil => exact h
  | cons a l ih => exact ih (h.trans (hf t a))

/-! ## The roster (R81 to R104) -/

theorem Device.waits_congr {d : Device} (h : x.jam = d.jam) : x.Waits → d.Waits := by
  rintro ⟨j, hj, hw⟩
  exact ⟨j, h ▸ hj, hw⟩

theorem Device.not_waits {d : Device} (h : x.jam = none) : x.Waits → d.Waits := by
  rintro ⟨j, hj, -⟩
  simp [h] at hj

theorem Device.waits_some {d : Device} {j : JamContext} (h : x.jam = some j) (hw : j.waiting = true → d.Waits) :
    x.Waits → d.Waits := by
  rintro ⟨j', hj', hw'⟩
  obtain rfl : j = j' := Option.some.inj (h.symm.trans hj')
  exact hw hw'

theorem State.Aside.urgentInsert (h : s.Aside t) (i : Fin 48) : s.Aside (t.urgentInsert i) := by
  unfold State.urgentInsert
  split
  · exact h
  · exact h.link _

theorem State.recover_aside (s : State) (i : Fin 48) (taken : RecoveryTaken) : s.Aside (s.recover i taken) := by
  unfold State.recover
  dsimp only
  split
  · exact .refl
  · exact .refl
  · exact State.Aside.refl.setSlot (Device.waits_congr rfl)
  · split
    · exact (State.Aside.refl.setSlot (Device.waits_some rfl (by simp [JamContext.start]))).urgentInsert i
    · exact .refl

theorem State.enterDrifting_aside (s : State) (i : Fin 48) (reason : DriftReason) :
    s.Aside (s.enterDrifting i reason) := by
  unfold State.enterDrifting
  dsimp only
  refine State.Aside.trans (.event (.raise (State.Aside.refl.setSlot ?_) _) _) (State.recover_aside _ i _)
  exact Device.waits_congr rfl

theorem State.enterAbsent_aside (s : State) (i : Fin 48) (b : DevState) : s.Aside (s.enterAbsent i b) := by
  unfold State.enterAbsent
  dsimp only
  refine .event (.raise (State.Aside.refl.setSlot ?_) _) _
  exact Device.waits_congr rfl

theorem State.adoptReport_aside (s : State) (i : Fin 48) (label edge : Nat) : s.Aside (s.adoptReport i label edge) := by
  unfold State.adoptReport
  split
  · exact State.Aside.refl.setSlot (Device.waits_congr rfl)
  · exact State.Aside.refl.setSlot (Device.waits_congr rfl)

theorem Device.changeDelay_jam (d : Device) (delay : Nat) : (d.changeDelay delay).jam = d.jam := by
  unfold Device.changeDelay
  split <;> rfl

/-- The steps of a jam's end before its outcome is delivered (R128). -/
theorem State.jamStateRecords_aside (s : State) (i : Fin 48) (j : JamContext) (o : JamOutcome) :
    s.Aside ((s.jamStateRecords i j o).applyPendingDelay i j) := by
  have h1 : s.Aside (s.jamStateRecords i j o) := by
    unfold State.jamStateRecords
    split
    · exact s.enterDrifting_aside i _
    · split
      · exact s.enterAbsent_aside i _
      · exact .refl
  unfold State.applyPendingDelay
  split
  · exact h1.setSlot (Device.waits_congr (Device.changeDelay_jam _ _))
  · exact h1

theorem State.jamAbandon_aside (s : State) (i : Fin 48) : s.Aside (s.jamAbandon i) := by
  unfold State.jamAbandon
  split
  · exact .refl
  · exact ((State.Aside.refl.setSlot (Device.not_waits rfl)).link _).event _

theorem State.jamRetry_aside {j : JamContext} (hj : j.waiting = true → (s.slot i).Waits) :
    s.Aside (s.jamRetry i j) := by
  unfold State.jamRetry
  refine .urgentInsert (State.Aside.refl.setSlot (Device.waits_some rfl ?_)) i
  exact hj

@[simp] theorem Device.measure_jam (d : Device) (label edge : Nat) : (d.measure label edge).1.jam = d.jam := by
  unfold Device.measure
  dsimp only
  repeat' split
  all_goals rfl

theorem State.consistentReport_aside (s : State) (i : Fin 48) (label edge good : Nat) (mayLock : Bool) :
    s.Aside (s.consistentReport i label edge good mayLock) := by
  unfold State.consistentReport
  dsimp only
  generalize hr : (if s.tracks { s.slot i with bad := 0, good := good } then
      Device.measure { s.slot i with bad := 0, good := good } label edge
    else ({ s.slot i with bad := 0, good := good }, false) : Device × Bool) = r
  have hjam : r.1.jam = (s.slot i).jam := by
    rw [← hr]
    split <;> simp
  have h1 : s.Aside (s.setSlot i r.1) := State.Aside.refl.setSlot (Device.waits_congr hjam)
  split_ifs
  · exact h1.trans (State.enterDrifting_aside _ i _)
  · exact (h1.setSlot (x := { r.1 with state := .locked })
      (by rw [State.setSlot_slot_same]; exact Device.waits_congr rfl)).event _
  · exact h1

theorem State.inconsistentReport_aside (s : State) (i : Fin 48) (label edge : Nat) :
    s.Aside (s.inconsistentReport i label edge) := by
  have h1 : s.Aside (s.setSlot i { s.slot i with bad := (s.slot i).bad + 1 }) :=
    State.Aside.refl.setSlot (Device.waits_congr rfl)
  unfold State.inconsistentReport
  dsimp only
  split
  · exact s.adoptReport_aside i label edge
  · split
    · exact h1.trans (State.enterDrifting_aside _ i _)
    · exact h1
  all_goals exact .refl

theorem State.testedReport_aside (s : State) (i : Fin 48) (label edge : Nat) :
    s.Aside (s.testedReport i label edge) := by
  unfold State.testedReport
  dsimp only
  split
  · exact s.consistentReport_aside i label edge _ _
  · exact s.inconsistentReport_aside i label edge

theorem State.returnReport_aside (s : State) (i : Fin 48) (label edge : Nat) :
    s.Aside (s.returnReport i label edge) := by
  have h1 : s.Aside (s.sysEvent (.deviceState i (s.slot i).linkAddr .returned)) := State.Aside.refl.event _
  have hset : ∀ st, s.Aside ((s.sysEvent (.deviceState i (s.slot i).linkAddr .returned)).setSlot i
      { s.slot i with state := st, before := none }) := fun st =>
    h1.setSlot (by rw [State.sysEvent_slot]; exact Device.waits_congr rfl)
  unfold State.returnReport
  dsimp only
  split_ifs
  · exact hset _
  · exact (hset _).trans (State.adoptReport_aside _ i label edge)
  · exact (hset _).trans (State.consistentReport_aside _ i label edge _ _)
  · exact (hset _).trans (State.enterDrifting_aside _ i _)

theorem State.stopNoticeAt_aside (c : Fin 16) (s : State) (i : Fin 48) : s.Aside (State.stopNoticeAt c s i) := by
  unfold State.stopNoticeAt
  dsimp only
  split
  · split
    case h_4 => exact State.Aside.refl.setSlot (Device.waits_congr rfl)
    case h_5 =>
      refine State.Aside.refl.setSlot ?_
      rintro ⟨j, hj, hw⟩
      obtain ⟨j0, hj0, rfl⟩ := Option.map_eq_some_iff.mp hj
      exact ⟨j0, hj0, hw⟩
    case h_6 => exact .refl
    case h_7 => exact .refl
    all_goals exact s.enterDrifting_aside i _
  · exact .refl

theorem State.Aside.rosterStep (h : s.Aside t) (d : Nat) : s.Aside (t.rosterStep d) := by
  refine h.rest ⟨fun k => ?_, by simp, by simp, by simp, by simp, by simp, by simp, by simp⟩
  rw [State.rosterStep_slot]
  obtain ⟨_, _, _, _, he⟩ := (t.slot k).shift_eq d
  rw [he]
  rintro ⟨j, hj, hw⟩
  obtain ⟨j0, hj0, rfl⟩ := Option.map_eq_some_iff.mp hj
  exact ⟨j0, hj0, hw⟩

/-! ## Marks (R140, R141) -/

theorem LogUnit.WF.stepTake {lu : LogUnit} (h : lu.WF) (step : TakeStep) : (lu.stepTake step).WF := by
  obtain ⟨hslate, htake, hrest⟩ := h
  cases step with
  | none => exact ⟨hslate, htake, hrest⟩
  | nextTake =>
    refine ⟨hslate, ?_, hrest⟩
    simp only [LogUnit.stepTake]
    split <;> omega
  | nextSlate =>
    refine ⟨?_, by simp [LogUnit.stepTake], hrest⟩
    simp only [LogUnit.stepTake]
    split <;> omega

theorem State.watchEntries_length (s : State) (watch : List (Fin 16)) (st : Option Nat) :
    (s.watchEntries watch st).length ≤ watch.length := by
  unfold State.watchEntries
  split
  · exact Nat.zero_le _
  · exact List.length_filterMap_le _ _

theorem State.stampChannels_aside (s : State) (w : Word) (cs : List (Fin 16)) : s.Aside (s.stampChannels w cs) := by
  induction cs generalizing s with
  | nil => exact .refl
  | cons c cs ih =>
    unfold State.stampChannels
    split
    · exact (State.Aside.refl.setChan _ _).trans (ih _)
    · exact ih s

theorem State.Aside.discardMark (h : s.Aside t) : s.Aside t.discardMark := h.counters _ id rfl

theorem State.takeMark_aside (s : State) (kind : Fin 16) (m : MarkOrigin) : s.Aside (s.takeMark kind m) := by
  unfold State.takeMark
  split
  · unfold State.logMark
    dsimp only
    have hqueue : (s.lu.stepTake (s.lu.actions.get kind).step).queue = s.lu.queue := by
      cases (s.lu.actions.get kind).step <;> rfl
    have hactions : (s.lu.stepTake (s.lu.actions.get kind).step).actions = s.lu.actions := by
      cases (s.lu.actions.get kind).step <;> rfl
    have h1 := State.Aside.refl.counters (s := s) (s.lu.stepTake (s.lu.actions.get kind).step) (·.stepTake _) hqueue
    have h2 := h1.trans (State.stampChannels_aside _ (s.lu.stepTake (s.lu.actions.get kind).step).takeWord
      (s.lu.actions.get kind).watch)
    have hlu : (State.stampChannels { s with lu := s.lu.stepTake (s.lu.actions.get kind).step }
        (s.lu.stepTake (s.lu.actions.get kind).step).takeWord (s.lu.actions.get kind).watch).lu.actions =
        s.lu.actions := by simp
    generalize State.stampChannels _ _ _ = s2 at h2 hlu ⊢
    have h3 := h2.submit (s2.markRecord kind (s.lu.actions.get kind).watch m) (by
      rintro ⟨-, -, -, hwatch, -⟩
      exact (State.watchEntries_length _ _ _).trans (hlu ▸ (hwatch kind).1))
    generalize s2.submit _ = s3 at h3 ⊢
    have h4 : s.Aside (s3.countMark m) := by
      cases m with
      | slot i _ _ _ => exact h3.setSlot (Device.waits_congr rfl)
      | host => exact h3
    split
    · exact h4.raise _
    · exact h4
  · exact State.Aside.refl.discardMark

theorem State.takeEntry_aside (i : Fin 48) (s : State) (e : MarkEntry) : s.Aside (State.takeEntry i s e) := by
  unfold State.takeEntry
  split
  · exact s.takeMark_aside _ _
  · exact State.Aside.refl.discardMark

/-! ## The channels (R46 to R62) -/

theorem State.stopChannel_aside (s : State) (c : Fin 16) : s.Aside (s.stopChannel c) :=
  State.Aside.foldl (State.stopNoticeAt_aside c) _ ((State.Aside.refl.setChan _ _).event _)

theorem State.Aside.retimeRecord (h : s.Aside t) (c : Fin 16) (old : Channel) : s.Aside (t.retimeRecord c old) := by
  unfold State.retimeRecord
  split
  · exact h.event _
  · exact h

theorem State.emitEdge_aside (s : State) (c : Fin 16) (edge : Nat) : s.Aside (s.emitEdge c edge) := by
  unfold State.emitEdge
  dsimp only
  split
  · exact s.stopChannel_aside c
  · exact (State.Aside.refl.setChan _ _).retimeRecord c _

theorem State.armedStart_aside (s : State) (c : Fin 16) (start : Nat) : s.Aside (s.armedStart c start) :=
  (State.Aside.refl.setChan _ _).event _

theorem State.lateStart_aside (s : State) (c : Fin 16) (t0 : Nat) : s.Aside (s.lateStart c t0) :=
  (State.Aside.refl.setChan _ _).event _

theorem State.channelStep_aside (stamp limit : Nat) (s : State) (c : Fin 16) :
    s.Aside (State.channelStep stamp limit s c) := by
  unfold State.channelStep
  dsimp only
  split
  · exact .refl
  · unfold State.skipEdges
    dsimp only
    split
    · exact .refl
    · split_ifs
      · exact s.stopChannel_aside c
      · exact (State.Aside.refl.setChan _ _).retimeRecord c _
      · exact State.Aside.refl.setChan _ _
  · split
    · split
      · exact (State.Aside.refl.setChan _ _).event _
      · exact .refl
    · exact .refl

theorem State.settleChannel_aside (s : State) (c : Fin 16) : s.Aside (s.settleChannel c) := by
  unfold State.settleChannel
  dsimp only
  split
  · exact .refl
  · split
    · split
      · exact s.emitEdge_aside c _
      · exact .refl
    · exact .refl
  · split
    · split
      · exact s.armedStart_aside c _
      · exact .refl
    · exact .refl

/-! ## The time base -/

theorem State.Aside.refChanged (h : s.Aside t) (old : RefState) : s.Aside (t.refChanged old) := (h.raise _).event _

theorem State.refEdge_aside (s : State) : s.Aside s.refEdge := by
  refine State.refEdge_induction (P := s.Aside) ?_ ?_ ?_ ?_ ?_ ?_ s .refl
  · exact fun _ x hu => hu.clock x
  · exact fun _ old hu => hu.refChanged old
  · exact fun u c hu => hu.trans (u.settleChannel_aside c)
  · exact fun _ _ hu => hu.event _
  · exact fun u stamp limit c hu => hu.trans (State.channelStep_aside stamp limit u c)
  · exact fun _ d hu => hu.rosterStep d

theorem State.refMiss_aside (s : State) : s.Aside s.refMiss := by
  unfold State.refMiss
  dsimp only
  split
  · exact (State.Aside.refl.clock _).refChanged _
  · exact State.Aside.refl.clock _

/-! ## Ends of jams -/

/-- The end of a jam: the context goes, what follows is aside, and the outcome is delivered (R128). -/
theorem State.jamEnd_parts {j : JamContext} (hj : (s.slot i).jam = some j) (o : JamOutcome) :
    ∃ x t, x.jam = none ∧ (s.setSlot i x).Aside t ∧ s.jamEnd i o = t.deliverOutcome i j o := by
  refine ⟨{ (s.slot i).jamEnded j o with jam := none }, _, rfl, ?_, by rw [State.jamEnd, hj]⟩
  exact ((State.Aside.refl.link _).event _).trans (State.jamStateRecords_aside _ i j o)

/-- What can happen in an event of the link or the roster aside from its own order and exchange: what is `Aside`, and
ends of jams, each of which may deliver its outcome to the order that waits for it (R129). -/
inductive State.Happens (s : State) : State → Prop
  | refl : s.Happens s
  | aside {t u : State} (h : s.Happens t) (h' : t.Aside u) : s.Happens u
  | jamEnd {t : State} (h : s.Happens t) (i : Fin 48) (o : JamOutcome) : s.Happens (t.jamEnd i o)

theorem State.Aside.happens (h : s.Aside t) : s.Happens t := State.Happens.refl.aside h

theorem State.Happens.trans (h : s.Happens t) (h' : t.Happens u) : s.Happens u := by
  induction h' with
  | refl => exact h
  | aside _ h' ih => exact ih.aside h'
  | jamEnd _ i o ih => exact ih.jamEnd i o

theorem State.jamPass_happens (s : State) (i : Fin 48) (label edge : Nat) : s.Happens (s.jamPass i label edge) := by
  unfold State.jamPass
  dsimp only
  split
  all_goals
    refine State.Happens.jamEnd (State.Aside.happens (State.Aside.refl.setSlot ?_)) i _
    exact Device.waits_congr rfl

theorem State.jamFail_happens {j : JamContext} (hj : (s.slot i).jam = some j) : s.Happens (s.jamFail i j) := by
  have hset : ∀ n, s.Aside (s.setSlot i { s.slot i with jam := some { j with reports := n } }) := fun n =>
    State.Aside.refl.setSlot (Device.waits_some rfl fun hw => ⟨j, hj, hw⟩)
  unfold State.jamFail
  dsimp only
  split_ifs
  · exact (hset _).happens
  · exact (hset 0).happens.jamEnd i _
  · refine ((hset 0).trans (State.jamRetry_aside fun hw => ?_)).happens
    exact ⟨{ j with reports := 0 }, by rw [State.setSlot_slot_same], hw⟩
  · exact (hset 0).happens.jamEnd i _

theorem State.jamReport_happens (s : State) (i : Fin 48) (label edge : Nat) : s.Happens (s.jamReport i label edge) := by
  unfold State.jamReport
  dsimp only
  split
  · exact .refl
  next j hj =>
    split_ifs
    · exact State.Happens.refl.jamEnd i _
    · exact .refl
    · split
      · split_ifs
        · exact .refl
        · exact s.jamPass_happens i label edge
        · exact State.jamFail_happens hj
      · exact .refl

theorem State.reportUpdate_happens (s : State) (i : Fin 48) (r : Report) : s.Happens (s.reportUpdate i r) := by
  have h1 : s.Aside (s.setSlot i
      { s.slot i with miss := 0, protectedFlag := r.protectedFlag, dualTrack := r.dualTrack }) :=
    State.Aside.refl.setSlot (Device.waits_congr rfl)
  unfold State.reportUpdate
  dsimp only
  split
  · exact .refl
  · exact (h1.trans (State.adoptReport_aside _ i _ _)).happens
  · exact (h1.trans (State.testedReport_aside _ i _ _)).happens
  · exact (h1.trans (State.testedReport_aside _ i _ _)).happens
  · exact h1.happens
  · exact h1.happens.trans (State.jamReport_happens _ i _ _)
  · exact (h1.trans (State.returnReport_aside _ i _ _)).happens

theorem State.reportArrival_happens (s : State) (i : Fin 48) (r : Report) : s.Happens (s.reportArrival i r) :=
  (s.reportUpdate_happens i r).aside (State.Aside.foldl (State.takeEntry_aside i) _ .refl)

theorem State.deviceMiss_happens (s : State) (i : Fin 48) : s.Happens (s.deviceMiss i) := by
  have h1 : s.Aside (s.setSlot i { s.slot i with miss := (s.slot i).miss + 1 }) :=
    State.Aside.refl.setSlot (Device.waits_congr rfl)
  unfold State.deviceMiss
  dsimp only
  split
  · exact .refl
  · exact .refl
  · split
    · exact h1.happens.jamEnd i _
    · exact h1.happens
  all_goals
    split
    · exact (h1.trans (State.enterAbsent_aside _ i _)).happens
    · exact h1.happens

theorem State.deliverMiss_happens (s : State) (turn : Turn) : s.Happens (s.deliverMiss turn) := by
  unfold State.deliverMiss
  split
  · exact s.deviceMiss_happens _
  · exact .refl

theorem State.answerDelivery_happens (s : State) (turn : Turn) (stamp : Nat) (gen : BitVec 16) (chars : List RxChar)
    (quiet : Bool) : s.Happens (s.answerDelivery turn stamp gen chars quiet) := by
  unfold State.answerDelivery
  split_ifs
  · exact (State.Aside.refl.link _).happens.trans (State.deliverMiss_happens _ turn)
  · exact (State.Aside.refl.link _).happens
  · exact .refl
  · exact s.reportArrival_happens _ _

theorem State.setTurn_happens {j : JamContext} (hj : (s.slot i).jam = some j) (addr : Nat) :
    s.Happens (s.setTurn i j addr) := by
  unfold State.setTurn
  dsimp only
  split
  next label _ =>
    exact ((State.Aside.refl.setSlot (x := { s.slot i with jam := some (j.setTaken s.tb.st label) })
      (Device.waits_some rfl fun hw => ⟨j, hj, hw⟩)).link _).happens
  next => exact (State.Happens.refl.jamEnd i .sourceStopped).aside (State.Aside.refl.link _)

theorem State.takeTurn_happens (s : State) : s.Happens s.takeTurn := by
  have hbegin : ∀ i urgent, s.Aside (s.beginTurn i urgent) := fun i urgent => State.Aside.refl.link _
  have hcall : ∀ i urgent addr, s.Happens ((s.beginTurn i urgent).sendCall addr) := fun i urgent addr =>
    ((hbegin i urgent).link _).happens
  unfold State.takeTurn
  split
  next i _ =>
    unfold State.urgentTurn
    dsimp only
    split
    next j hj =>
      split
      · exact (hbegin i true).happens.trans (State.setTurn_happens (s := s.beginTurn i true) hj _)
      · exact hcall _ _ _
    · exact hcall _ _ _
  · exact hcall _ _ _
  · exact (State.Aside.refl.link _).happens

theorem State.putBack_aside (s : State) (turn : Turn) : s.Aside (s.putBack turn) := by
  unfold State.putBack
  split
  · exact State.Aside.refl.link _
  · exact .refl

end

end Sys2Proof.Machine
end

section
/-! The log unit's invariant and the page stock's (R135 to R150, R159), which every step keeps, each by itself. -/

namespace Sys2Proof.Machine

section

variable {s t u : State}

/-! ## The record queue -/

/-- A record appended with the sequence counter's value and the lost run before it goes on from the tail (R149). -/
theorem LogUnit.SeqWF.append {lu : LogUnit} (h : lu.SeqWF) (r : TakeRecord) :
    LogUnit.SeqWF
      { lu with queue := lu.queue ++ [{ r with seq := lu.seq, lostBefore := lu.lostRun }], lostRun := 0,
                seq := lu.seq + 1 } := by
  obtain ⟨hnext, hlast⟩ := h
  refine ⟨fun n a b ha hb => ?_, fun a ha => ?_⟩
  · rcases Nat.lt_trichotomy (n + 1) lu.queue.length with hn | hn | hn
    · rw [List.getElem?_append_left hn] at hb
      rw [List.getElem?_append_left (by omega)] at ha
      exact hnext n a b ha hb
    · rw [List.getElem?_append_left (by omega)] at ha
      rw [hn, List.getElem?_concat_length] at hb
      obtain rfl := Option.some.inj hb
      refine hlast a ?_
      rw [List.getLast?_eq_getElem?, ← hn, Nat.add_sub_cancel]
      exact ha
    · rw [List.getElem?_eq_none (by simp; omega)] at hb
      cases hb
  · rw [List.getLast?_concat] at ha
    obtain rfl := Option.some.inj ha
    simp

/-- A record lost at the full queue adds to the lost run (R150). -/
theorem LogUnit.SeqWF.lost {lu : LogUnit} (h : lu.SeqWF) (total : Word) :
    LogUnit.SeqWF { lu with seq := lu.seq + 1, lostRun := lu.lostRun + 1, lostTotal := total } :=
  ⟨h.1, fun r hr => by
    have := h.2 r hr
    simp only
    rw [this]
    ac_rfl⟩

/-- The head leaves the queue (R162). -/
theorem LogUnit.SeqWF.pop {lu : LogUnit} (h : lu.SeqWF) {r : TakeRecord} {rest : List TakeRecord}
    (hq : lu.queue = r :: rest) : LogUnit.SeqWF { lu with queue := rest } := by
  obtain ⟨hnext, hlast⟩ := h
  rw [hq] at hnext hlast
  refine ⟨fun n a b ha hb => hnext (n + 1) a b ha hb, fun a ha => hlast a ?_⟩
  rw [List.getLast?_cons]
  exact congrArg some (by rw [ha]; rfl)

theorem LogUnit.WF.submit (h : s.lu.WF) {r : TakeRecord} (hr : r.body.watch.length ≤ 4) : (s.submit r).lu.WF := by
  obtain ⟨hslate, htake, hlen, hact, hwatch, hseq⟩ := h
  by_cases hroom : s.lu.queue.length < 64
  · rw [State.submit_lu_room s r hroom]
    refine ⟨hslate, htake, by simpa using hroom, hact, fun a ha => ?_, hseq.append r⟩
    rcases List.mem_append.mp ha with ha | ha
    · exact hwatch a ha
    · rw [List.mem_singleton.mp ha]
      exact hr
  · rw [State.submit_full s r hroom]
    exact ⟨hslate, htake, hlen, hact, hwatch, hseq.lost _⟩

theorem State.Aside.lu_wf (h : s.Aside t) (hs : s.lu.WF) : t.lu.WF := by
  induction h with
  | refl => exact hs
  | submit _ r hr ih => exact LogUnit.WF.submit ih (hr ih)
  | counters _ lu hlu _ ih => exact hlu ih
  | rest _ hsame ih => exact hsame.lu ▸ ih

/-! ## The page stock -/

/-- The stock's invariant reads the page writer alone. -/
theorem State.StockWF.congr (h : s.StockWF) (hpw : t.pw = s.pw) : t.StockWF := by
  unfold State.StockWF State.pageInUse at h ⊢
  rwa [hpw]

/-- What leaves the stock alone and puts no other page in use. -/
theorem State.StockWF.of_inUse (h : s.StockWF) (hstock : t.pw.stock = s.pw.stock)
    (huse : ∀ a, s.pageInUse a = false → t.pageInUse a = false) : t.StockWF := by
  obtain ⟨hlen, hnodup, hfree⟩ := h
  exact ⟨hstock ▸ hlen, hstock ▸ hnodup, fun a ha => huse a (hfree a (hstock ▸ ha))⟩

theorem State.pageInUse_eq_false {a : Nat} :
    s.pageInUse a = false ↔ (∀ p, s.pw.page = some p → p.addr ≠ a) ∧
      ∀ page cleared, s.pw.activity = .claiming page cleared → page ≠ a := by
  unfold State.pageInUse
  cases s.pw.page <;> cases s.pw.activity <;> simp

theorem State.StockWF.setActivity (h : s.StockWF) {a : Activity} (ha : ∀ page cleared, a ≠ .claiming page cleared) :
    (s.setActivity a).StockWF := by
  refine h.of_inUse rfl fun x hx => ?_
  rw [State.pageInUse_eq_false] at hx ⊢
  exact ⟨hx.1, fun page cleared he => absurd he (ha page cleared)⟩

theorem State.StockWF.endFlush (h : s.StockWF) (code : Result) (detail : Nat) : (s.endFlush code detail).StockWF :=
  h.of_inUse rfl fun _ hx => hx

theorem State.StockWF.chooseWork (h : s.StockWF) (b : Bool) : (s.chooseWork b).StockWF := by
  rcases s.chooseWork_cases b with ⟨_, he⟩ | ⟨_, _, p, _, _, he⟩ | ⟨_, _, page, stock, _, hpage, hstock, he⟩ |
    ⟨_, _, _, _, _, he⟩ <;> rw [he]
  · exact h.setActivity nofun
  · refine h.setActivity fun page cleared => ?_
    split <;> exact nofun
  · obtain ⟨hlen, hnodup, -⟩ := h
    rw [hstock] at hlen hnodup
    obtain ⟨hnot, hnodup⟩ := List.nodup_cons.mp hnodup
    have hpw : (s.beginClaim page stock).pw = { s.pw with activity := .claiming page false, stock := stock } := by
      unfold State.beginClaim
      dsimp only
      split <;> rfl
    unfold State.StockWF
    rw [hpw]
    refine ⟨(Nat.le_succ _).trans hlen, hnodup, fun a ha => State.pageInUse_eq_false.mpr ?_⟩
    rw [hpw]
    refine ⟨fun p hp => ?_, fun p c hp => ?_⟩
    · simp [hpage] at hp
    · obtain ⟨rfl, -⟩ := Activity.claiming.inj hp
      exact fun he => hnot (he ▸ ha)
  · have h1 : (if b then s.setActivity .starved else (s.setActivity .starved).raise .stock).StockWF := by
      split
      · exact h.setActivity nofun
      · exact (h.setActivity (a := .starved) nofun).congr rfl
    unfold State.enterStarved
    dsimp only
    split
    · exact h1.endFlush _ _
    · exact h1

theorem State.StockWF.choose (h : s.StockWF) (b : Bool) : (s.choose b).StockWF := by
  rcases s.choose_cases b with ⟨_, _, he⟩ | ⟨_, _, he⟩ | ⟨_, he⟩ <;> rw [he]
  · exact (h.endFlush .done 0).chooseWork b
  · exact h.setActivity nofun
  · exact h.chooseWork b

theorem State.StockWF.submit (h : s.StockWF) (r : TakeRecord) : (s.submit r).StockWF := by
  unfold State.submit
  dsimp only
  split_ifs
  · refine State.StockWF.choose ?_ false
    exact h.congr rfl
  · exact h.congr rfl
  · exact h.congr rfl

theorem State.Aside.stock_wf (h : s.Aside t) (hs : s.StockWF) : t.StockWF := by
  induction h with
  | refl => exact hs
  | submit _ r _ ih => exact ih.submit r
  | counters _ lu _ _ ih => exact ih.congr rfl
  | rest _ hsame ih => exact ih.congr hsame.pw

/-- GIVE PAGES adds only addresses that it accepts (R159). -/
theorem State.stockWith_wf (s : State) {stock : List Nat} (l : List Nat)
    (h : stock.length ≤ 32 ∧ stock.Nodup ∧ ∀ a ∈ stock, s.pageInUse a = false) :
    (s.stockWith stock l).length ≤ 32 ∧ (s.stockWith stock l).Nodup ∧
      ∀ a ∈ s.stockWith stock l, s.pageInUse a = false := by
  induction l generalizing stock with
  | nil => exact h
  | cons a l ih =>
    unfold State.stockWith
    split
    next hok =>
      simp only [State.pageAcceptable, Bool.and_eq_true, Bool.not_eq_true', List.contains_eq_mem,
        decide_eq_false_iff_not, decide_eq_true_eq] at hok
      obtain ⟨⟨⟨-, hnot⟩, hfree⟩, hroom⟩ := hok
      obtain ⟨-, hnodup, hall⟩ := h
      refine ih ⟨by simpa using hroom, hnodup.append (by simp) (by simpa using hnot), fun x hx => ?_⟩
      rcases List.mem_append.mp hx with hx | hx
      · exact hall x hx
      · rwa [List.mem_singleton.mp hx]
    next => exact ih h

/-! ## What every step keeps of the log -/

/-- The log unit's invariant and the stock's, each by itself. -/
def State.KeepsLog (s t : State) : Prop := (s.lu.WF → t.lu.WF) ∧ (s.StockWF → t.StockWF)

theorem State.KeepsLog.trans (h : s.KeepsLog t) (h' : t.KeepsLog u) : s.KeepsLog u := ⟨h'.1 ∘ h.1, h'.2 ∘ h.2⟩

theorem State.KeepsLog.of_frame (hlu : t.lu = s.lu) (hpw : t.pw = s.pw) : s.KeepsLog t :=
  ⟨fun h => hlu ▸ h, fun h => h.congr hpw⟩

theorem State.KeepsLog.refl (s : State) : s.KeepsLog s := ⟨id, id⟩

theorem State.Aside.keepsLog (h : s.Aside t) : s.KeepsLog t := ⟨h.lu_wf, h.stock_wf⟩

theorem State.KeepsLog.choose (h : s.KeepsLog t) (b : Bool) : s.KeepsLog (t.choose b) :=
  ⟨fun hs => by simpa using h.1 hs, fun hs => (h.2 hs).choose b⟩

theorem State.KeepsLog.raise (h : s.KeepsLog t) (c : Cause) : s.KeepsLog (t.raise c) := h.trans (.of_frame rfl rfl)

theorem State.KeepsLog.report (h : s.KeepsLog t) (code : Result) (detail : Nat := 0)
    (results : List (Nat × Word) := []) : s.KeepsLog (t.report code detail results) :=
  h.trans (.of_frame rfl rfl)

theorem State.jamEnd_keepsLog (s : State) (i : Fin 48) (o : JamOutcome) : s.KeepsLog (s.jamEnd i o) := by
  cases hj : (s.slot i).jam with
  | none =>
    rw [State.jamEnd, hj]
    exact .refl s
  | some j =>
    obtain ⟨x, t, -, ht, he⟩ := State.jamEnd_parts hj o
    have h1 : s.KeepsLog (s.setSlot i x) := .of_frame rfl rfl
    rw [he]
    exact (h1.trans ht.keepsLog).trans (.of_frame (by simp) (by simp))

theorem State.Happens.keepsLog (h : s.Happens t) : s.KeepsLog t := by
  induction h with
  | refl => exact .refl s
  | aside _ h' ih => exact ih.trans h'.keepsLog
  | jamEnd _ i o ih => exact ih.trans (State.jamEnd_keepsLog _ i o)

/-! ## Orders, ends of service and aborts -/

theorem rosterOrder_keepsLog (s : State) (o : Order) : s.KeepsLog (rosterOrder o s) := by
  unfold rosterOrder
  split
  case h_3 =>
    unfold releaseOrder
    split
    · exact .of_frame (by simp) (by simp)
    next i _ =>
      split
      · exact .of_frame (by simp) (by simp)
      · exact (s.jamAbandon_aside i).keepsLog.trans (.of_frame (by simp) (by simp))
  all_goals exact .of_frame (by simp) (by simp)

theorem State.endExchange_keepsLog (s : State) (e : Exchange) (code : Result) : s.KeepsLog (s.endExchange e code) := by
  have h1 : s.KeepsLog (((s.clearHold e.slot).setLastResult e.slot (some code)).setExchange none) := .of_frame rfl rfl
  unfold State.endExchange
  dsimp only
  split
  · unfold State.handHeld
    split
    · exact h1.trans (rosterOrder_keepsLog _ _)
    · exact h1
  · exact h1.report code

theorem State.serviceEnded_keepsLog (s : State) (i : Fin 48) : s.KeepsLog (s.serviceEnded i) := by
  unfold State.serviceEnded
  split
  · split_ifs
    · exact s.endExchange_keepsLog _ _
    · exact .of_frame rfl rfl
    · exact .refl s
  · exact .refl s

theorem State.endTurn_keepsLog (s : State) (turn : Turn) : s.KeepsLog (s.endTurn turn) := by
  refine State.KeepsLog.trans ?_ (State.serviceEnded_keepsLog _ turn.slot)
  exact ((s.putBack_aside turn).link _).keepsLog

theorem State.exchangeRead_keepsLog (s : State) (e : Exchange) (got : List Word) :
    s.KeepsLog (s.exchangeRead e got) := by
  unfold State.exchangeRead
  split
  · exact s.endExchange_keepsLog e _
  · split
    · exact s.endExchange_keepsLog e _
    · exact .of_frame (by simp) (by simp)

theorem State.KeepsLog.endFlush (h : s.KeepsLog t) (code : Result) (detail : Nat) :
    s.KeepsLog (t.endFlush code detail) :=
  ⟨h.1, fun hs => (h.2 hs).endFlush code detail⟩

theorem State.abortChain_keepsLog (s : State) : s.KeepsLog s.abortChain := by
  unfold State.abortChain
  split
  · exact .refl s
  · split
    · exact .refl s
    · split <;> exact .of_frame rfl rfl
    · exact .of_frame rfl rfl
    · exact .of_frame rfl rfl
    · exact .of_frame rfl rfl
    · exact .of_frame rfl rfl
    · exact .of_frame rfl rfl
    next k _ =>
      have hset : s.KeepsLog s.setStopAfter := .of_frame rfl rfl
      cases k with
      | jam i => exact .of_frame rfl rfl
      | exchange =>
        refine hset.trans ?_
        show s.setStopAfter.KeepsLog s.setStopAfter.abortExchange
        unfold State.abortExchange
        split
        · split
          · exact State.endExchange_keepsLog _ _ _
          · exact .refl _
        · exact .refl _
      | flushLog =>
        refine hset.trans ?_
        show s.setStopAfter.KeepsLog s.setStopAfter.abortFlush
        unfold State.abortFlush
        split
        · exact ⟨id, fun h => h.of_inUse rfl fun _ hx => hx⟩
        · exact (State.KeepsLog.refl _).endFlush _ _

theorem State.clearEngine_keepsLog (s : State) : s.KeepsLog s.clearEngine := by
  refine ⟨fun h => ?_, fun _ => ?_⟩
  · simpa [State.clearEngine] using h
  · have hstock : s.clearEngine.pw.stock = [] := by
      unfold State.clearEngine State.pageWriterClear
      dsimp only
      split
      case h_5 =>
        split
        · simp [State.setActivity]
        · rfl
      all_goals rfl
    unfold State.StockWF
    rw [hstock]
    exact ⟨Nat.zero_le _, List.nodup_nil, nofun⟩

theorem setReferenceOrder_keepsLog (s : State) (o : Order) : s.KeepsLog (setReferenceOrder o s) := by
  unfold setReferenceOrder
  split
  · exact .of_frame rfl rfl
  · dsimp only
    split_ifs
    · exact .of_frame rfl rfl
    · exact ((((State.Aside.refl.clock _).clock _).refChanged _).keepsLog).report _
    · exact .of_frame rfl rfl
    · exact (((State.Aside.refl.clock _).clock _).refChanged _).keepsLog.report _

theorem startChannelOrder_keepsLog (s : State) (o : Order) : s.KeepsLog (startChannelOrder o s) := by
  unfold startChannelOrder
  split
  · exact .of_frame rfl rfl
  · split
    · exact .of_frame rfl rfl
    · dsimp only
      split
      · exact .of_frame rfl rfl
      · exact (s.lateStart_aside _ _).keepsLog.report _

theorem stopChannelOrder_keepsLog (s : State) (o : Order) : s.KeepsLog (stopChannelOrder o s) := by
  unfold stopChannelOrder
  split
  · exact .of_frame rfl rfl
  · split
    · exact .of_frame rfl rfl
    · exact (s.stopChannel_aside _).keepsLog.report _
    · exact .of_frame rfl rfl

/-- The watch list that a SET ACTION carries. -/
theorem actionOf_watch {o : Order} {kind : Fin 16} {a : Action} (h : actionOf o = some (kind, a)) :
    a.watch.length ≤ 4 ∧ a.watch.Nodup := by
  unfold actionOf at h
  split at h
  · split at h
    next hcount =>
      split at h
      next watch hwatch =>
        obtain ⟨-, rfl⟩ := Prod.mk.inj (Option.some.inj h)
        obtain ⟨hnodup, hmap⟩ := distinctChannels_eq_some_iff.mp hwatch
        refine ⟨?_, List.Nodup.of_map Fin.val (hmap ▸ hnodup)⟩
        have hlen : watch.length = (channelBytes (o.p 3) (o.p 2).toNat).length := by rw [← hmap, List.length_map]
        exact hlen.trans_le (List.length_take_le' _ _)
      next => cases h
    next => cases h
  · cases h

theorem setActionOrder_keepsLog (s : State) (o : Order) : s.KeepsLog (setActionOrder o s) := by
  unfold setActionOrder
  split
  next kind a ha =>
    refine ⟨fun h => ?_, fun h => h.congr rfl⟩
    obtain ⟨hslate, htake, hlen, hact, hrest⟩ := h
    refine ⟨hslate, htake, hlen, fun k => ?_, hrest⟩
    by_cases hk : k = kind
    · subst hk
      simpa [Vector.get] using actionOf_watch ha
    · have he : (s.lu.actions.set kind.val a kind.isLt).get k = s.lu.actions.get k := by
        have hne : kind.val ≠ k.val := fun he => hk (Fin.ext he.symm)
        exact Vector.getElem_set_ne kind.isLt k.isLt hne
      have hk' := hact k
      rw [← he] at hk'
      exact hk'
  next => exact .of_frame rfl rfl

theorem setTakeOrder_keepsLog (s : State) (o : Order) : s.KeepsLog (setTakeOrder o s) := by
  unfold setTakeOrder
  split
  next hle => exact ⟨fun ⟨_, _, hrest⟩ => ⟨hle.1, hle.2, hrest⟩, fun h => h.congr rfl⟩
  next => exact .of_frame rfl rfl

theorem injectMarkOrder_keepsLog (s : State) (o : Order) : s.KeepsLog (injectMarkOrder o s) := by
  unfold injectMarkOrder
  split
  · exact .of_frame rfl rfl
  · split
    · exact .of_frame rfl rfl
    · exact (s.takeMark_aside _ _).keepsLog.report _ _

theorem givePagesOrder_keepsLog (s : State) (o : Order) : s.KeepsLog (givePagesOrder o s) := by
  unfold givePagesOrder
  dsimp only
  split
  · exact .of_frame rfl rfl
  · generalize ((o.params.drop 1).take (o.p 0).toNat).map BitVec.toNat = given
    have h1 : s.KeepsLog { s with pw := { s.pw with stock := s.stockWith s.pw.stock given } } :=
      ⟨id, fun h => s.stockWith_wf given h⟩
    split
    · exact (h1.report _ _).choose false
    · exact h1.report _ _

theorem flushLogOrder_keepsLog (s : State) (o : Order) : s.KeepsLog (flushLogOrder o s) := by
  have h1 : s.KeepsLog (State.keep { s with pw := { s.pw with
      flush := some ⟨s.lu.queue.getLast?.map TakeRecord.seq, false⟩ } } .flushLog) :=
    ⟨id, fun h => h.of_inUse rfl fun _ hx => hx⟩
  unfold flushLogOrder
  dsimp only
  split
  · exact h1.choose false
  · exact h1.endFlush _ _
  · exact h1

/-! ## The page writer's events -/

theorem State.claimEmpty_keepsLog {page : Nat} {cleared : Bool} (hact : s.pw.activity = .claiming page cleared) :
    s.KeepsLog (s.claimEmpty page cleared) := by
  have h1 : s.KeepsLog
      { s with
        mem := Memory.writeAll s.mem (s.claimWrites page)
        pw := { s.pw with page := some ⟨page, s.pw.pageSeq, 0, 0⟩, pageSeq := s.pw.pageSeq + 1 } } := by
    refine ⟨id, fun h => h.of_inUse rfl fun a ha => ?_⟩
    rw [State.pageInUse_eq_false] at ha ⊢
    obtain ⟨-, hclaim⟩ := ha
    refine ⟨fun p hp => ?_, hclaim⟩
    obtain rfl := Option.some.inj hp
    exact hclaim page cleared hact
  unfold State.claimEmpty
  dsimp only
  split
  · exact ⟨h1.1, fun h => (h1.2 h).setActivity nofun⟩
  · exact h1.choose false

theorem State.recordDone_keepsLog {p : OpenPage} {r : TakeRecord} {rest : List TakeRecord}
    (hpage : s.pw.page = some p) (hqueue : s.lu.queue = r :: rest) (made : Nat) :
    s.KeepsLog (s.recordDone p r rest made) := by
  unfold State.recordDone
  refine State.KeepsLog.choose ?_ false
  refine ⟨fun h => ?_, fun h => h.of_inUse rfl fun a ha => ?_⟩
  · obtain ⟨hslate, htake, hlen, hact, hwatch, hseq⟩ := h
    rw [hqueue] at hlen hwatch
    exact ⟨hslate, htake, (Nat.le_succ _).trans hlen, hact, fun a ha => hwatch a (List.mem_cons_of_mem _ ha),
      hseq.pop hqueue⟩
  · rw [State.pageInUse_eq_false] at ha ⊢
    obtain ⟨hopen, hclaim⟩ := ha
    refine ⟨fun q hq => ?_, hclaim⟩
    obtain rfl := Option.some.inj hq
    exact hopen p hpage

theorem State.closeDone_keepsLog (s : State) (p : OpenPage) (why : CloseWhy) (cleared : Bool) :
    s.KeepsLog (s.closeDone p why cleared) := by
  have h1 : s.KeepsLog
      { s with mem := Memory.writeAll s.mem (closeWrites p), pw := { s.pw with page := none } } := by
    refine ⟨id, fun h => h.of_inUse rfl fun a ha => ?_⟩
    rw [State.pageInUse_eq_false] at ha ⊢
    exact ⟨nofun, ha.2⟩
  unfold State.closeDone State.afterClose
  split
  · exact (h1.raise .page).choose cleared
  · split
    · exact (h1.endFlush _ _).choose cleared
    · exact h1.choose cleared
  · exact h1.choose true

/-! ## Every command -/

theorem CommandEffect.keepsLog {cmd : Instr} (h : CommandEffect s cmd t) : s.KeepsLog t := by
  cases h with
  | referenceEdge => exact s.refEdge_aside.keepsLog
  | referenceMiss => exact s.refMiss_aside.keepsLog
  | abort => exact s.abortChain_keepsLog
  | engineClear => exact s.clearEngine_keepsLog
  | setReference o => exact setReferenceOrder_keepsLog s o
  | startChannel o => exact startChannelOrder_keepsLog s o
  | stopChannel o => exact stopChannelOrder_keepsLog s o
  | setAction o => exact setActionOrder_keepsLog s o
  | setTake o => exact setTakeOrder_keepsLog s o
  | injectMark o => exact injectMarkOrder_keepsLog s o
  | givePages o => exact givePagesOrder_keepsLog s o
  | flushLog o => exact flushLogOrder_keepsLog s o
  | rosterOrder o => exact rosterOrder_keepsLog s o
  | channelEdge c edge => exact (s.emitEdge_aside c edge).keepsLog
  | armedStart c start => exact (s.armedStart_aside c start).keepsLog
  | nextTurn => exact s.takeTurn_happens.keepsLog
  | setTurnEnd turn => exact s.endTurn_keepsLog turn
  | answerEnd stamp gen turn chars quiet =>
    exact (s.answerDelivery_happens turn stamp gen chars quiet).keepsLog.trans (State.endTurn_keepsLog _ turn)
  | windowClose turn => exact (s.deliverMiss_happens turn).keepsLog.trans (State.endTurn_keepsLog _ turn)
  | exchangeRead e got => exact s.exchangeRead_keepsLog e got
  | exchangeWritten e area image =>
    have hwrite : s.KeepsLog { s with mem := Memory.writeAll s.mem (wordsAt area image) } := .of_frame rfl rfl
    exact hwrite.trans (State.endExchange_keepsLog _ e .done)
  | claimEmpty page cleared hact => exact State.claimEmpty_keepsLog hact
  | claimRefused page cleared =>
    unfold State.claimRefused
    refine State.KeepsLog.choose ?_ cleared
    exact ⟨id, fun h => h.of_inUse rfl fun _ hx => hx⟩
  | recordWritten made p r rest _ hpage hqueue => exact State.recordDone_keepsLog hpage hqueue made
  | pageClosed why cleared p => exact s.closeDone_keepsLog p why cleared
  | _ => exact .of_frame (by simp) (by simp)

theorem LogUnit.reset_wf : LogUnit.reset.WF := by
  have hqueue : LogUnit.reset.queue = [] := rfl
  refine ⟨by decide, by decide, by decide, fun kind => ?_, by simp [hqueue], by simp [hqueue], by simp [hqueue]⟩
  simp [LogUnit.reset, Action.reset, Vector.get]

theorem State.reset_stockWF : State.reset.StockWF := ⟨by decide, List.nodup_nil, nofun⟩

theorem step_keepsLog (h : step s = .next t) : s.KeepsLog t := by
  rcases step_cases h with rfl | ⟨a, b, rest, he⟩ | ⟨c, rest, he⟩
  · refine ⟨fun hs => by simpa using hs, fun hs => ?_⟩
    rcases s.wordAccess_pw with hpw | ⟨made, _, _, _, _, _, _, _, hpw⟩
    · exact hs.congr hpw
    · exact (hs.setActivity (a := .writing (made + 1)) nofun).congr hpw
  · rw [exec_reset_answer he]
    exact ⟨fun _ => LogUnit.reset_wf, fun _ => State.reset_stockWF⟩
  · have hqueue : s.KeepsLog { s with pending := rest } := .of_frame rfl rfl
    exact hqueue.trans (CommandEffect.keepsLog he)

end

/-- Settles O56. -/
theorem logInvariant : Obligations.LogInvariant := fun _ _ h => step_keepsLog h

end Sys2Proof.Machine
end

section
/-! What the part has in hand (R156, R170, R174): the areas and the kept order, and that what happens aside keeps both. -/

namespace Sys2Proof.Machine

section

variable {s t u : State} {i : Fin 48}

/-! ## The window -/

theorem State.inWindow_iff {a n : Nat} : s.inWindow a n = true ↔ a + n ≤ s.windowSize := by simp [State.inWindow]

theorem State.inWindow_congr (h : t.straps = s.straps) (a n : Nat) : t.inWindow a n = s.inWindow a n := by
  unfold State.inWindow State.windowSize
  rw [h]

theorem State.isPage_congr (h : t.straps = s.straps) (a : Nat) : t.isPage a = s.isPage a := by
  simp only [State.isPage, State.inWindow_congr h]

/-! ## The areas, by what is going on -/

/-- The page writer's pages: those of the stock, and the open page with counts that fit it. -/
def State.PagesWF (s : State) : Prop :=
  (∀ a ∈ s.pw.stock, s.isPage a = true) ∧
  ∀ p, s.pw.page = some p → s.isPage p.addr = true ∧ p.used ≤ 252 ∧ 8 * p.records ≤ p.used

theorem State.PageAreasWF.pages (h : s.PageAreasWF) : s.PagesWF := ⟨h.1, h.2.1⟩

theorem State.pageAreas_idle (ha : s.pw.activity = .idle) : s.PageAreasWF ↔ s.PagesWF ∧ s.lu.queue = [] := by
  simp [State.PageAreasWF, State.PagesWF, ha, and_assoc]

theorem State.pageAreas_claiming {a : Nat} {b : Bool} (ha : s.pw.activity = .claiming a b) :
    s.PageAreasWF ↔ s.PagesWF ∧ s.isPage a = true ∧ s.pw.page = none ∧ s.lu.queue ≠ [] := by
  simp [State.PageAreasWF, State.PagesWF, ha, and_assoc]

theorem State.pageAreas_writing {n : Nat} (ha : s.pw.activity = .writing n) :
    s.PageAreasWF ↔ s.PagesWF ∧ ∃ p r rest, s.pw.page = some p ∧ s.lu.queue = r :: rest ∧ p.fits r = true ∧
      n ≤ r.length := by
  simp [State.PageAreasWF, State.PagesWF, ha, and_assoc]

theorem State.pageAreas_closing {w : CloseWhy} {b : Bool} (ha : s.pw.activity = .closing w b) :
    s.PageAreasWF ↔ s.PagesWF ∧ s.pw.page.isSome = true := by
  simp [State.PageAreasWF, State.PagesWF, ha, and_assoc]

theorem State.pageAreas_starved (ha : s.pw.activity = .starved) :
    s.PageAreasWF ↔ s.PagesWF ∧ s.pw.page = none ∧ s.pw.stock = [] ∧ s.lu.queue ≠ [] := by
  simp [State.PageAreasWF, State.PagesWF, ha, and_assoc]

theorem State.PagesWF.congr (h : s.PagesWF) (hstock : t.pw.stock = s.pw.stock) (hpage : t.pw.page = s.pw.page)
    (hstraps : t.straps = s.straps) : t.PagesWF := by
  simp only [State.PagesWF, hstock, hpage, State.isPage_congr hstraps]
  exact h

theorem State.PageAreasWF.congr (h : s.PageAreasWF) (hstock : t.pw.stock = s.pw.stock) (hpage : t.pw.page = s.pw.page)
    (hact : t.pw.activity = s.pw.activity) (hqueue : t.lu.queue = s.lu.queue) (hstraps : t.straps = s.straps) :
    t.PageAreasWF := by
  unfold State.PageAreasWF at h ⊢
  simp only [hstock, hpage, hact, hqueue, State.isPage_congr hstraps]
  exact h

theorem State.EngineAreasWF.congr (h : s.EngineAreasWF) (hstep : t.oe.step = s.oe.step)
    (hblock : t.oe.block = s.oe.block) (hstraps : t.straps = s.straps) : t.EngineAreasWF := by
  unfold State.EngineAreasWF at h ⊢
  simp only [hstep, hblock, State.inWindow_congr hstraps]
  exact h

theorem State.ExchangeAreasWF.congr (h : s.ExchangeAreasWF) (hexch : t.exch = s.exch) (hstraps : t.straps = s.straps) :
    t.ExchangeAreasWF := by
  unfold State.ExchangeAreasWF at h ⊢
  simp only [hexch, State.inWindow_congr hstraps]
  exact h

/-- The engine's areas while it terminates with result words in the window. -/
theorem State.engineAreas_terminating {results : List (Nat × Word)} {code : Result} {detail : Nat}
    (hstep : s.oe.step = .terminating results code detail) :
    s.EngineAreasWF ↔ s.inWindow s.oe.block 16 = true ∧ ∀ p ∈ results, s.inWindow p.1 4 = true := by
  simp [State.EngineAreasWF, hstep]

theorem State.engineAreas_waiting {k : Kept} (hstep : s.oe.step = .waiting k) :
    s.EngineAreasWF ↔ s.inWindow s.oe.block 16 = true := by
  simp [State.EngineAreasWF, hstep]

/-- While an order is in hand, terminating or waiting, the block's header lies in the window. -/
theorem State.EngineAreasWF.block (h : s.EngineAreasWF) (hnone : s.oe.step ≠ .none)
    (hfetch : ∀ got, s.oe.step ≠ .fetching got) : s.inWindow s.oe.block 16 = true := by
  unfold State.EngineAreasWF at h
  split at h
  · exact absurd ‹_› hnone
  · exact absurd ‹_› (hfetch _)
  · exact h.1
  · exact h.1
  · rw [State.inWindow_iff] at h ⊢
    omega
  · exact h
  · exact h
  · exact h.1

/-! ## What is in hand -/

/-- The areas in the window and the kept order agree with the part's state (R170, R174). -/
def State.HandsWF (s : State) : Prop := s.AreasWF ∧ s.KeptWF

theorem State.keptWF_iff :
    s.KeptWF ↔ (s.oe.chain ≠ .running → s.oe.step = .none) ∧
      (∀ e, s.exch = some e → e.dropped = false → s.oe.step = .waiting .exchange) ∧
      (∀ i, (s.slot i).Waits → s.oe.step = .waiting (.jam i)) ∧
      (s.pw.flush.isSome = true → s.oe.step = .waiting .flushLog) := by
  unfold State.KeptWF Device.Waits
  refine and_congr_right fun _ => and_congr_right fun _ => and_congr_left fun _ => ?_
  exact ⟨fun h i ⟨j, hj, hw⟩ => h i j hj hw, fun h i j hj hw => h i ⟨j, hj, hw⟩⟩

/-- No owner keeps an order, and the block in hand lies in the window: the engine may terminate or wait. -/
structure State.Released (s : State) : Prop where
  hands : s.HandsWF
  running : s.oe.chain = .running
  block : s.inWindow s.oe.block 16 = true
  exch : ∀ e, s.exch = some e → e.dropped = true
  jams : ∀ i, ¬(s.slot i).Waits
  flush : s.pw.flush = none

/-- With a step that is no waiting, nothing is kept. -/
theorem State.HandsWF.released_of_block (h : s.HandsWF) (hnone : s.oe.step ≠ .none) (hwait : ∀ k, s.oe.step ≠ .waiting k)
    (hblock : s.inWindow s.oe.block 16 = true) : s.Released := by
  obtain ⟨hrun, hexch, hjams, hflush⟩ := State.keptWF_iff.mp h.2
  refine ⟨h, not_not.mp fun hr => hnone (hrun hr), hblock, fun e he => ?_, fun i hw => hwait _ (hjams i hw), ?_⟩
  · by_contra hd
    exact hwait _ (hexch e he (by simpa using hd))
  · by_contra hf
    exact hwait _ (hflush (Option.isSome_iff_ne_none.mpr hf))

theorem State.HandsWF.released (h : s.HandsWF) (hnone : s.oe.step ≠ .none) (hfetch : ∀ got, s.oe.step ≠ .fetching got)
    (hwait : ∀ k, s.oe.step ≠ .waiting k) : s.Released :=
  h.released_of_block hnone hwait (h.1.1.block hnone hfetch)

/-- From a step that is no waiting the engine may go on to any step whose areas lie in the window. -/
theorem State.HandsWF.setStep (h : s.HandsWF) (hwait : ∀ k, s.oe.step ≠ .waiting k) {oe : Engine}
    (hrun : oe.chain ≠ .running → oe.step = .none) (hengine : State.EngineAreasWF { s with oe := oe }) :
    State.HandsWF { s with oe := oe } := by
  obtain ⟨⟨-, hexchange, hpages⟩, hkept⟩ := h
  obtain ⟨-, hexch, hjams, hflush⟩ := State.keptWF_iff.mp hkept
  exact ⟨⟨hengine, hexchange.congr rfl rfl, hpages.congr rfl rfl rfl rfl rfl⟩,
    State.keptWF_iff.mpr ⟨hrun, fun e he hd => absurd (hexch e he hd) (hwait _),
      fun i hw => absurd (hjams i hw) (hwait _), fun hf => absurd (hflush hf) (hwait _)⟩⟩

/-- With nothing kept the engine may take any step whose areas lie in the window. -/
theorem State.Released.setStep (h : s.Released) {oe : Engine} (hchain : oe.chain = .running)
    (hengine : State.EngineAreasWF { s with oe := oe }) : State.HandsWF { s with oe := oe } := by
  obtain ⟨⟨⟨-, hexchange, hpages⟩, -⟩, -, hblock, hexch, hjams, hflush⟩ := h
  refine ⟨⟨hengine, hexchange.congr rfl rfl, hpages.congr rfl rfl rfl rfl rfl⟩,
    State.keptWF_iff.mpr ⟨absurd hchain, fun e he hd => ?_, fun i hw => absurd hw (hjams i), fun hf => ?_⟩⟩
  · simp [hexch e he] at hd
  · simp [hflush] at hf

/-- With nothing kept the engine may terminate, its result words in the window (R175). -/
theorem State.Released.terminating (h : s.Released) {results : List (Nat × Word)} {code : Result} {detail : Nat}
    (hresults : ∀ p ∈ results, s.inWindow p.1 4 = true) : (s.report code detail results).HandsWF :=
  h.setStep h.running ((State.engineAreas_terminating rfl).mpr ⟨h.block, hresults⟩)

theorem State.Released.report (h : s.Released) (code : Result) (detail : Nat := 0) : (s.report code detail).HandsWF :=
  h.terminating (by simp)

/-! ## The page writer's choice -/

/-- What the choice is made from: the pages in the window, and all but the activity in order. -/
structure State.ChoiceWF (s : State) : Prop where
  engine : s.EngineAreasWF
  package : s.ExchangeAreasWF
  pages : s.PagesWF
  kept : s.KeptWF

theorem State.HandsWF.choiceWF (h : s.HandsWF) : s.ChoiceWF := ⟨h.1.1, h.1.2.1, h.1.2.2.pages, h.2⟩

/-- A noted flush set is that of the FLUSH LOG that the engine waits for (R174). -/
theorem State.ChoiceWF.flushing (h : s.ChoiceWF) (hflush : s.pw.flush.isSome = true) :
    s.oe.step = .waiting .flushLog :=
  (State.keptWF_iff.mp h.kept).2.2.2 hflush

theorem State.ChoiceWF.flushing_of_left (h : s.ChoiceWF) {n : Nat} (hleft : s.flushLeft = some n) :
    s.oe.step = .waiting .flushLog := by
  obtain ⟨f, hf, -⟩ := Option.map_eq_some_iff.mp hleft
  exact h.flushing (by rw [hf]; rfl)

/-- A FLUSH LOG that ends leaves nothing kept (R165, R166). -/
theorem State.ChoiceWF.endFlush (h : s.ChoiceWF) (hstep : s.oe.step = .waiting .flushLog) (code : Result)
    (detail : Nat) : (s.endFlush code detail).ChoiceWF := by
  obtain ⟨hengine, hexchange, hpages, hkept⟩ := h
  obtain ⟨hrun, hexch, hjams, -⟩ := State.keptWF_iff.mp hkept
  have hblock := (State.engineAreas_waiting hstep).mp hengine
  refine ⟨(State.engineAreas_terminating rfl).mpr ⟨hblock, by simp⟩, hexchange.congr rfl rfl, hpages.congr rfl rfl rfl,
    State.keptWF_iff.mpr ⟨fun hne => ?_, fun e he hd => ?_, fun i hw => ?_, nofun⟩⟩
  · exact absurd (hrun hne) (by simp [hstep])
  · exact absurd (hexch e he hd) (by simp [hstep])
  · exact absurd (hjams i hw) (by simp [hstep])

/-- A page writer that agrees with its pages and the queue, its flush set standing. -/
theorem State.ChoiceWF.writer (h : s.ChoiceWF) {pw : PageWriter}
    (hflush : pw.flush.isSome = true → s.pw.flush.isSome = true)
    (hp : State.PageAreasWF { s with pw := pw }) : State.HandsWF { s with pw := pw } := by
  obtain ⟨hrun, hexch, hjams, hfl⟩ := State.keptWF_iff.mp h.kept
  exact ⟨⟨h.engine.congr rfl rfl rfl, h.package.congr rfl rfl, hp⟩,
    State.keptWF_iff.mpr ⟨hrun, hexch, hjams, fun hf => hfl (hflush hf)⟩⟩

theorem State.ChoiceWF.setActivity (h : s.ChoiceWF) {a : Activity} (ha : (s.setActivity a).PageAreasWF) :
    (s.setActivity a).HandsWF :=
  h.writer id ha

theorem State.HandsWF.raise (h : s.HandsWF) (c : Cause) : (s.raise c).HandsWF :=
  ⟨⟨h.1.1.congr rfl rfl rfl, h.1.2.1.congr rfl rfl, h.1.2.2.congr rfl rfl rfl rfl rfl⟩, h.2⟩

theorem State.HandsWF.endFlush (h : s.HandsWF) (hstep : s.oe.step = .waiting .flushLog) (code : Result)
    (detail : Nat) : (s.endFlush code detail).HandsWF := by
  obtain ⟨hengine, hexchange, -, hkept⟩ := h.choiceWF.endFlush hstep code detail
  exact ⟨⟨hengine, hexchange, h.1.2.2.congr rfl rfl rfl rfl rfl⟩, hkept⟩

theorem State.ChoiceWF.chooseWork (h : s.ChoiceWF) (b : Bool) : (s.chooseWork b).HandsWF := by
  have hp := h.pages
  rcases s.chooseWork_cases b with ⟨hq, he⟩ | ⟨r, rest, p, hq, hpage, he⟩ | ⟨r, rest, page, stock, hq, hpage, hstock, he⟩ |
    ⟨r, rest, hq, hpage, hstock, he⟩ <;> rw [he]
  · exact h.setActivity ((State.pageAreas_idle rfl).mpr ⟨hp.congr rfl rfl rfl, hq⟩)
  · split
    next hfits =>
      exact h.setActivity ((State.pageAreas_writing rfl).mpr ⟨hp.congr rfl rfl rfl, p, r, rest, hpage, hq, hfits,
        Nat.zero_le _⟩)
    next => exact h.setActivity ((State.pageAreas_closing rfl).mpr ⟨hp.congr rfl rfl rfl, by simp [State.setActivity, hpage]⟩)
  · obtain ⟨hall, -⟩ := hp
    rw [hstock] at hall
    have hpages : State.PagesWF { s with pw := { s.pw with activity := .claiming page false, stock := stock } } :=
      ⟨fun x hx => hall x (List.mem_cons_of_mem _ hx), fun p hp => by simp [hpage] at hp⟩
    have h1 := h.writer (pw := { s.pw with activity := .claiming page false, stock := stock }) id
      ((State.pageAreas_claiming rfl).mpr ⟨hpages, hall page (List.mem_cons_self ..), hpage, by simp [hq]⟩)
    unfold State.beginClaim
    dsimp only
    split
    · exact h1.raise .stock
    · exact h1
  · have h1 : (s.setActivity .starved).HandsWF :=
      h.setActivity ((State.pageAreas_starved rfl).mpr ⟨hp.congr rfl rfl rfl, hpage, hstock, by simp [State.setActivity, hq]⟩)
    have h2 : (if b then s.setActivity .starved else (s.setActivity .starved).raise .stock).HandsWF := by
      split
      · exact h1
      · exact h1.raise .stock
    unfold State.enterStarved
    dsimp only
    split
    next hleft => exact h2.endFlush (h2.choiceWF.flushing_of_left hleft) _ _
    next => exact h2

theorem State.ChoiceWF.choose (h : s.ChoiceWF) (b : Bool) : (s.choose b).HandsWF := by
  rcases s.choose_cases b with ⟨hleft, _, he⟩ | ⟨hleft, hrecords, he⟩ | ⟨_, he⟩ <;> rw [he]
  · exact (h.endFlush (h.flushing_of_left hleft) _ _).chooseWork b
  · refine h.setActivity ((State.pageAreas_closing rfl).mpr ⟨h.pages.congr rfl rfl rfl, ?_⟩)
    by_contra hno
    have hpage : s.pw.page = none := Option.not_isSome_iff_eq_none.mp hno
    exact hrecords (by rw [hpage]; rfl)
  · exact h.chooseWork b

/-! ## What happens aside -/

/-- Records waiting at the end of the queue change no activity but the idle one. -/
theorem State.PageAreasWF.enqueue (h : s.PageAreasWF) (hidle : s.pw.activity ≠ .idle) {lu : LogUnit} {r : TakeRecord}
    (hq : lu.queue = s.lu.queue ++ [r]) : State.PageAreasWF { s with lu := lu } := by
  have hp : State.PagesWF { s with lu := lu } := h.pages.congr rfl rfl rfl
  have hne : ({ s with lu := lu } : State).lu.queue ≠ [] := by simp [hq]
  cases ha : s.pw.activity with
  | idle => exact absurd ha hidle
  | claiming a b =>
    obtain ⟨-, hpage, hnone, -⟩ := (State.pageAreas_claiming ha).mp h
    exact Iff.mpr (State.pageAreas_claiming ha) ⟨hp, hpage, hnone, hne⟩
  | writing n =>
    obtain ⟨-, p, r0, rest, hpage, hqueue, hfits, hn⟩ := (State.pageAreas_writing ha).mp h
    exact Iff.mpr (State.pageAreas_writing ha) ⟨hp, p, r0, rest ++ [r], hpage, by simp [hq, hqueue], hfits, hn⟩
  | closing w b =>
    obtain ⟨-, hsome⟩ := (State.pageAreas_closing ha).mp h
    exact Iff.mpr (State.pageAreas_closing ha) ⟨hp, hsome⟩
  | starved =>
    obtain ⟨-, hnone, hstock, -⟩ := (State.pageAreas_starved ha).mp h
    exact Iff.mpr (State.pageAreas_starved ha) ⟨hp, hnone, hstock, hne⟩

theorem State.HandsWF.submit (h : s.HandsWF) (r : TakeRecord) : (s.submit r).HandsWF := by
  obtain ⟨⟨hengine, hexchange, hpages⟩, hkept⟩ := h
  unfold State.submit
  dsimp only
  split_ifs with hroom hidle
  · refine State.ChoiceWF.choose ?_ false
    exact ⟨hengine.congr rfl rfl rfl, hexchange.congr rfl rfl, hpages.pages.congr rfl rfl rfl, hkept⟩
  · exact ⟨⟨hengine.congr rfl rfl rfl, hexchange.congr rfl rfl, hpages.enqueue hidle rfl⟩, hkept⟩
  · exact ⟨⟨hengine.congr rfl rfl rfl, hexchange.congr rfl rfl, hpages.congr rfl rfl rfl rfl rfl⟩, hkept⟩

theorem State.Aside.hands (h : s.Aside t) (hs : s.HandsWF) : t.HandsWF := by
  induction h with
  | refl => exact hs
  | submit _ r _ ih => exact ih.submit r
  | counters _ lu _ hqueue ih =>
    obtain ⟨⟨hengine, hexchange, hpages⟩, hkept⟩ := ih
    exact ⟨⟨hengine.congr rfl rfl rfl, hexchange.congr rfl rfl, hpages.congr rfl rfl rfl hqueue rfl⟩, hkept⟩
  | rest _ hsame ih =>
    obtain ⟨⟨hengine, hexchange, hpages⟩, hkept⟩ := ih
    obtain ⟨hwaits, hexch, hlu, hpw, hstraps, hchain, hstep, hblock⟩ := hsame
    obtain ⟨hrun, hex, hjams, hfl⟩ := State.keptWF_iff.mp hkept
    refine ⟨⟨hengine.congr hstep hblock hstraps, hexchange.congr hexch hstraps,
      hpages.congr (by rw [hpw]) (by rw [hpw]) (by rw [hpw]) (by rw [hlu]) hstraps⟩, State.keptWF_iff.mpr ?_⟩
    rw [hchain, hstep, hexch, hpw]
    exact ⟨hrun, hex, fun i hw => hjams i (hwaits i hw), hfl⟩

/-- A choice that ends no FLUSH LOG leaves the engine where it was. -/
theorem State.choose_unflushed (hflush : s.pw.flush = none) (b : Bool) :
    (s.choose b).pw.flush = none ∧ (s.choose b).oe.chain = s.oe.chain ∧ (s.choose b).oe.block = s.oe.block ∧
      (s.choose b).oe.step = s.oe.step := by
  have hleft : s.flushLeft = none := by rw [State.flushLeft, hflush]; rfl
  rcases s.choose_cases b with ⟨h0, _, _⟩ | ⟨h0, _, _⟩ | ⟨_, he⟩
  · simp [hleft] at h0
  · simp [hleft] at h0
  · rw [he]
    rcases s.chooseWork_cases b with ⟨_, he⟩ | ⟨_, _, p, _, _, he⟩ | ⟨_, _, page, stock, _, _, _, he⟩ |
      ⟨_, _, _, _, _, he⟩ <;> rw [he]
    · exact ⟨hflush, rfl, rfl, rfl⟩
    · exact ⟨hflush, rfl, rfl, rfl⟩
    · unfold State.beginClaim
      dsimp only
      split <;> exact ⟨hflush, rfl, rfl, rfl⟩
    · have hleft' : (if b then s.setActivity .starved else (s.setActivity .starved).raise .stock).flushLeft = none := by
        split <;> exact hleft
      unfold State.enterStarved
      dsimp only
      rw [hleft']
      dsimp only
      split <;> exact ⟨hflush, rfl, rfl, rfl⟩

/-- A record submitted with no FLUSH LOG waiting keeps the engine's step. -/
theorem State.Released.submit (h : s.Released) (r : TakeRecord) : (s.submit r).Released := by
  obtain ⟨hhands, hrun, hblock, hexch, hjams, hflush⟩ := h
  have hchoice (lu : LogUnit) : (State.choose { s with lu := lu } false).pw.flush = none ∧
      (State.choose { s with lu := lu } false).oe.chain = s.oe.chain ∧
      (State.choose { s with lu := lu } false).oe.block = s.oe.block := by
    obtain ⟨hf, hc, hb, -⟩ := State.choose_unflushed (s := { s with lu := lu }) hflush false
    exact ⟨hf, hc, hb⟩
  have hengine : (s.submit r).pw.flush = none ∧ (s.submit r).oe.chain = s.oe.chain ∧
      (s.submit r).oe.block = s.oe.block := by
    unfold State.submit
    dsimp only
    split_ifs
    · exact hchoice _
    · exact ⟨hflush, rfl, rfl⟩
    · exact ⟨hflush, rfl, rfl⟩
  obtain ⟨hf, hc, hb⟩ := hengine
  obtain ⟨-, -, -, hslots, hex, -, hstraps, -⟩ := s.submit_frame r
  refine ⟨hhands.submit r, hc.trans hrun, ?_, ?_, fun i => ?_, hf⟩
  · rw [hb, State.inWindow_congr hstraps]
    exact hblock
  · rw [hex]
    exact hexch
  · rw [State.slot_congr hslots]
    exact hjams i

theorem State.Aside.released (h : s.Aside t) (hs : s.Released) : t.Released := by
  induction h with
  | refl => exact hs
  | submit _ r _ ih => exact ih.submit r
  | counters h' lu hlu hqueue ih =>
    exact ⟨((State.Aside.refl.counters lu hlu hqueue).hands ih.hands), ih.running, ih.block, ih.exch, ih.jams, ih.flush⟩
  | rest h' hsame ih =>
    have hhands := (State.Aside.refl.rest hsame).hands ih.hands
    obtain ⟨hwaits, hexch, -, hpw, hstraps, hchain, -, hblock⟩ := hsame
    refine ⟨hhands, hchain.trans ih.running, ?_, ?_, fun i hw => ih.jams i (hwaits i hw), ?_⟩
    · rw [hblock, State.inWindow_congr hstraps]
      exact ih.block
    · rw [hexch]
      exact ih.exch
    · rw [hpw]
      exact ih.flush

end

end Sys2Proof.Machine
end

section
/-! What is in hand stays in hand through the ends of jams, the orders and the exchange (R105, R112 to R117, R174). -/

namespace Sys2Proof.Machine

section

variable {s t u : State} {i : Fin 48}

/-! ## Ends of jams -/

theorem State.Aside.setLastResult (h : s.Aside t) (i : Fin 48) (r : Option Result) : s.Aside (t.setLastResult i r) :=
  h.setSlot (Device.waits_congr rfl)

/-- With the order kept for a jam, nothing is kept once the jam's context is gone (R128, R174). -/
theorem State.HandsWF.released_of_jam (h : s.HandsWF) (hstep : s.oe.step = .waiting (.jam i)) {x : Device}
    (hx : ¬x.Waits) : (s.setSlot i x).Released := by
  obtain ⟨hrun, hexch, hjams, hflush⟩ := State.keptWF_iff.mp h.2
  refine ⟨(State.Aside.refl.setSlot fun hw => absurd hw hx).hands h, not_not.mp fun hr => ?_,
    (State.engineAreas_waiting hstep).mp h.1.1, fun e he => ?_, fun k hw => ?_, ?_⟩
  · exact absurd (hrun hr) (by simp [hstep])
  · by_contra hd
    exact absurd (hexch e he (by simpa using hd)) (by simp [hstep])
  · by_cases hk : k = i
    · subst hk
      rw [setSlot_slot_same] at hw
      exact hx hw
    · rw [setSlot_slot_other _ _ _ _ hk] at hw
      exact hk (by simpa [hstep, eq_comm] using hjams k hw)
  · by_contra hf
    exact absurd (hflush (Option.isSome_iff_ne_none.mpr hf)) (by simp [hstep])

theorem State.HandsWF.jamEnd (h : s.HandsWF) (i : Fin 48) (o : JamOutcome) : (s.jamEnd i o).HandsWF := by
  cases hj : (s.slot i).jam with
  | none => rwa [State.jamEnd, hj]
  | some j =>
    obtain ⟨x, t, hx, ht, he⟩ := State.jamEnd_parts hj o
    rw [he]
    unfold State.deliverOutcome
    dsimp only
    split
    next hwait =>
      have hstep := (State.keptWF_iff.mp h.2).2.2.1 i ⟨j, hj, hwait⟩
      have hx' : ¬x.Waits := fun ⟨j', hj', _⟩ => by simp [hx] at hj'
      exact ((ht.setLastResult i _).released (h.released_of_jam hstep hx')).report _
    next =>
      have hstart := State.Aside.refl.setSlot (i := i) (Device.not_waits hx) (s := s)
      exact ((((hstart.trans ht).setLastResult i _).hands h).raise .device)

theorem State.Happens.hands (h : s.Happens t) (hs : s.HandsWF) : t.HandsWF := by
  induction h with
  | refl => exact hs
  | aside _ h' ih => exact h'.hands ih
  | jamEnd _ i o ih => exact ih.jamEnd i o

/-! ## Orders of the roster -/

theorem State.Released.rosterReport (h : s.Released) (i : Fin 48) (code : Result) : (s.rosterReport i code).HandsWF :=
  ((State.Aside.refl.setLastResult i _).released h).report _

theorem enrolOrder_hands (h : s.Released) (o : Order) : (enrolOrder o s).HandsWF := by
  unfold enrolOrder
  split
  · exact h.report _
  next i _ =>
    split
    · exact h.rosterReport i _
    next d hd =>
      obtain ⟨⟨hparts, -⟩, hstate, -⟩ := State.enrolCheck_ok hd
      have hjam : d.jam = none := by
        rw [← Option.not_isSome_iff_eq_none, hparts.1, hstate]
        nofun
      have haside : s.Aside ((s.setSlot i d).raiseBound d.boundTo) := by
        unfold State.raiseBound
        split
        · exact (State.Aside.refl.setSlot (Device.not_waits hjam)).setChan _ _
        · exact State.Aside.refl.setSlot (Device.not_waits hjam)
      exact (haside.released h).rosterReport i _

/-- A path delay leaves the jam of a record waited for or not. -/
theorem Device.setDelay_waits {d d' : Device} (h : d'.jam = d.jam) (delay : Nat) : (d'.setDelay delay).Waits → d.Waits := by
  unfold Device.setDelay
  split
  · rintro ⟨j', hj', hw⟩
    obtain ⟨j, hj, rfl⟩ := Option.map_eq_some_iff.mp hj'
    exact ⟨j, h ▸ hj, hw⟩
  · split
    · exact Device.waits_congr h
    · exact Device.waits_congr ((d'.changeDelay_jam delay).trans h)

theorem State.Aside.setDelay (h : s.Aside t) {i : Fin 48} {d : Device} (hd : d.jam = (t.slot i).jam) (delay : Nat) :
    s.Aside (t.setSlot i (d.setDelay delay)) :=
  h.setSlot (Device.setDelay_waits hd delay)

theorem setDeviceOrder_hands (h : s.Released) (o : Order) : (setDeviceOrder o s).HandsWF := by
  unfold setDeviceOrder
  split
  · exact h.report _
  next i _ =>
    split
    · exact h.rosterReport i _
    · dsimp only
      split_ifs
      · exact h.rosterReport i _
      · exact h.rosterReport i _
      · refine State.Released.rosterReport (State.Aside.released (State.Aside.refl.setDelay ?_ _) h) i _
        rfl

theorem State.Aside.lowerBound (h : s.Aside t) (c : Option (Fin 16)) : s.Aside (t.lowerBound c) := by
  unfold State.lowerBound
  split
  · exact h.setChan _ _
  · exact h

theorem State.Aside.raiseBound (h : s.Aside t) (c : Option (Fin 16)) : s.Aside (t.raiseBound c) := by
  unfold State.raiseBound
  split
  · exact h.setChan _ _
  · exact h

theorem State.Aside.emptySlot (h : s.Aside t) (i : Fin 48) : s.Aside (t.emptySlot i) :=
  h.setSlot (Device.not_waits (x := { Device.emptyRecord with lastResult := (t.slot i).lastResult }) rfl)

/-- A record that holds the jam it held. -/
theorem State.Aside.setRecord (h : s.Aside t) {i : Fin 48} {x : Device} (hx : x.jam = (t.slot i).jam) :
    s.Aside (t.setSlot i x) :=
  h.setSlot (Device.waits_congr hx)

theorem releaseOrder_hands (h : s.Released) (o : Order) : (releaseOrder o s).HandsWF := by
  unfold releaseOrder
  split
  · exact h.report _
  next i _ =>
    split
    · exact h.rosterReport i _
    · have haside : s.Aside ((s.jamAbandon i).urgentRemove i) := (s.jamAbandon_aside i).link _
      exact (((haside.lowerBound _).emptySlot i).released h).rosterReport i _

theorem adoptOrder_hands (h : s.Released) (o : Order) : (adoptOrder o s).HandsWF := by
  unfold adoptOrder
  split
  · exact h.report _
  next i _ =>
    split_ifs
    · exact h.rosterReport i _
    · exact h.rosterReport i _
    · refine ((State.Aside.refl.setSlot (Device.waits_congr ?_)).released h).rosterReport i _
      unfold Device.readopt
      split <;> rfl

/-- A jam that is waited for: it is the kept order's (R121). -/
theorem State.Released.keepJam (h : s.Released) (i : Fin 48) (x : Device) :
    (((s.setSlot i x).urgentInsert i).keep (.jam i)).HandsWF := by
  obtain ⟨⟨⟨-, hexchange, hpages⟩, -⟩, hrun, hblock, hexch, hjams, hflush⟩ := h
  have hf : (((s.setSlot i x).urgentInsert i).keep (.jam i)).oe.chain = s.oe.chain ∧
      (((s.setSlot i x).urgentInsert i).keep (.jam i)).oe.block = s.oe.block := by simp [State.keep]
  refine ⟨⟨(State.engineAreas_waiting rfl).mpr ?_, hexchange.congr (by simp) (by simp),
    hpages.congr (by simp) (by simp) (by simp) (by simp) (by simp)⟩, State.keptWF_iff.mpr
      ⟨fun hr => absurd (hf.1.trans hrun) hr, fun e he hd => ?_, fun k hw => ?_, fun hfl => ?_⟩⟩
  · rw [hf.2, State.inWindow_congr (s := s) (by simp)]
    exact hblock
  · simp [hexch e (by simpa using he)] at hd
  · by_cases hk : k = i
    · rw [hk]
      rfl
    · have hslot : (((s.setSlot i x).urgentInsert i).keep (.jam i)).slot k = s.slot k := by
        rw [State.slot_congr (s := s.setSlot i x) (by simp), State.setSlot_slot_other s i k x hk]
      rw [hslot] at hw
      exact absurd hw (hjams k)
  · rw [show (((s.setSlot i x).urgentInsert i).keep (.jam i)).pw.flush = s.pw.flush by simp, hflush] at hfl
    cases hfl

theorem jamOrder_hands (h : s.Released) (o : Order) : (jamOrder o s).HandsWF := by
  unfold jamOrder
  split
  · exact h.report _
  next i _ =>
    split
    · exact h.rosterReport i _
    next c retries _ =>
      have h' : (s.setLastResult i none).Released := (State.Aside.refl.setLastResult i _).released h
      dsimp only
      split
      · exact h'.keepJam i _
      next hwait =>
        have hnot : ∀ d : Device, ¬Device.Waits { d with
            state := .jamming, jam := some (.start c .order d.state retries o.waitFlag) } := by
          rintro d ⟨j, hj, hw⟩
          cases hj
          exact hwait hw
        exact (((State.Aside.refl.setSlot fun hw => absurd hw (hnot _)).urgentInsert i).released h').rosterReport i _

/-- An exchange that begins is the kept order's (R113). -/
theorem State.Released.keepExchange (h : s.Released) {e : Exchange} (he : (s.setExchange (some e)).ExchangeAreasWF) :
    ((s.setExchange (some e)).keep .exchange).HandsWF := by
  obtain ⟨⟨⟨-, -, hpages⟩, -⟩, hrun, hblock, -, hjams, hflush⟩ := h
  refine ⟨⟨(State.engineAreas_waiting rfl).mpr hblock, he.congr rfl rfl, hpages.congr rfl rfl rfl rfl rfl⟩,
    State.keptWF_iff.mpr ⟨absurd hrun, fun _ _ _ => rfl, fun i hw => absurd hw (hjams i), fun hf => ?_⟩⟩
  rw [show ((s.setExchange (some e)).keep .exchange).pw.flush = none from hflush] at hf
  cases hf

theorem exchangeOrder_hands (h : s.Released) (o : Order) : (exchangeOrder o s).HandsWF := by
  unfold exchangeOrder
  split
  · exact h.report _
  next i _ =>
    dsimp only
    split_ifs with _ hwindow
    · exact h.rosterReport i _
    · exact h.rosterReport i _
    all_goals
      refine State.Released.keepExchange
        ((State.Aside.refl.setRecord (x := { s.slot i with held := true, lastResult := none }) rfl).released h) ?_
      rintro e ⟨⟩
      exact ⟨by_contra fun hw => hwindow (.inr (.inr (Bool.eq_false_of_not_eq_true hw))), by simp, by simp⟩

theorem rosterOrder_hands (h : s.Released) (o : Order) : (rosterOrder o s).HandsWF := by
  unfold rosterOrder
  split
  · exact enrolOrder_hands h o
  · exact setDeviceOrder_hands h o
  · exact releaseOrder_hands h o
  · exact adoptOrder_hands h o
  · exact exchangeOrder_hands h o
  · exact jamOrder_hands h o
  all_goals exact h.hands

/-! ## The exchange -/

theorem State.HandsWF.held_released (h : s.HandsWF) {o : Order} (hstep : s.oe.step = .held o) : s.Released :=
  h.released (by simp [hstep]) (by simp [hstep]) (by simp [hstep])

theorem State.HandsWF.taken_released (h : s.HandsWF) {o : Order} (hstep : s.oe.step = .taken o) : s.Released :=
  h.released (by simp [hstep]) (by simp [hstep]) (by simp [hstep])

theorem State.HandsWF.handHeld (h : s.HandsWF) : s.handHeld.HandsWF := by
  unfold State.handHeld
  split
  next o hstep => exact rosterOrder_hands (h.held_released hstep) o
  next => exact h

/-- Without its exchange the part has less in hand. -/
theorem State.HandsWF.noExchange (h : s.HandsWF) : (s.setExchange none).HandsWF := by
  obtain ⟨⟨hengine, -, hpages⟩, hkept⟩ := h
  obtain ⟨hrun, -, hjams, hflush⟩ := State.keptWF_iff.mp hkept
  exact ⟨⟨hengine.congr rfl rfl rfl, nofun, hpages.congr rfl rfl rfl rfl rfl⟩,
    State.keptWF_iff.mpr ⟨hrun, nofun, hjams, hflush⟩⟩

/-- When the exchange that the engine waits for has gone, nothing is kept. -/
theorem State.HandsWF.released_of_exchange (h : s.HandsWF) (hstep : s.oe.step = .waiting .exchange) :
    (s.setExchange none).Released := by
  obtain ⟨hrun, -, hjams, hflush⟩ := State.keptWF_iff.mp h.2
  refine ⟨h.noExchange, not_not.mp fun hr => ?_, (State.engineAreas_waiting hstep).mp h.1.1, nofun, fun k hw => ?_, ?_⟩
  · exact absurd (hrun hr) (by simp [hstep])
  · exact absurd (hjams k hw) (by simp [hstep])
  · by_contra hf
    exact absurd (hflush (Option.isSome_iff_ne_none.mpr hf)) (by simp [hstep])

theorem State.HandsWF.endExchange (h : s.HandsWF) {e : Exchange} (he : s.exch = some e) (code : Result) :
    (s.endExchange e code).HandsWF := by
  have haside : s.Aside ((s.clearHold e.slot).setLastResult e.slot (some code)) :=
    (State.Aside.refl.setRecord (x := { s.slot e.slot with held := false }) rfl).setLastResult _ _
  unfold State.endExchange
  dsimp only
  split
  · exact (haside.hands h).noExchange.handHeld
  next hdropped =>
    have hstep := (State.keptWF_iff.mp h.2).2.1 e he (by simpa using hdropped)
    exact ((haside.hands h).released_of_exchange hstep).report code

/-- The exchange goes on, its areas in the window. -/
theorem State.HandsWF.setExchange (h : s.HandsWF) {e e' : Exchange} (he : s.exch = some e) (hdropped : e'.dropped = e.dropped)
    (hareas : (s.setExchange (some e')).ExchangeAreasWF) : (s.setExchange (some e')).HandsWF := by
  obtain ⟨⟨hengine, -, hpages⟩, hkept⟩ := h
  obtain ⟨hrun, hexch, hjams, hflush⟩ := State.keptWF_iff.mp hkept
  refine ⟨⟨hengine.congr rfl rfl rfl, hareas, hpages.congr rfl rfl rfl rfl rfl⟩,
    State.keptWF_iff.mpr ⟨hrun, ?_, hjams, hflush⟩⟩
  rintro _ ⟨⟩ hd
  exact hexch e he (hdropped ▸ hd)

theorem State.HandsWF.serviceEnded (h : s.HandsWF) (i : Fin 48) : (s.serviceEnded i).HandsWF := by
  unfold State.serviceEnded
  split
  next e he =>
    split_ifs
    · exact h.endExchange he _
    · refine h.setExchange he rfl ?_
      rintro _ ⟨⟩
      exact ⟨(h.1.2.1 e he).1, by simp, by simp⟩
    · exact h
  · exact h

theorem State.HandsWF.endTurn (h : s.HandsWF) (turn : Turn) : (s.endTurn turn).HandsWF := by
  have haside := (s.putBack_aside turn).link
    { (s.putBack turn).lc with turn := none, phase := .gap, timer := 0, tx := [] }
  exact (haside.hands h).serviceEnded turn.slot

theorem Device.package_length (d : Device) : d.package.length = 16 := by
  unfold Device.package
  split <;> rfl

/-- No image loads a jam. -/
theorem State.validateImage_jam {image : List Word} {d : Device} (h : s.validateImage i image = .ok d) : d.jam = none := by
  rcases State.validateImage_ok h with rfl | ⟨st, -, hcheck⟩
  · rfl
  · obtain ⟨fmt, recovery, rfl, -⟩ := State.imageCheck_ok hcheck
    rfl

theorem State.Aside.loaded (h : s.Aside t) {i : Fin 48} {d : Device} (held : Bool) (r : Option Result)
    (hd : d.jam = none) : s.Aside (t.setSlot i { d with held := held, lastResult := r }) :=
  h.setSlot (Device.not_waits (x := { d with held := held, lastResult := r }) hd)

theorem State.Aside.swapBound (h : s.Aside t) (old new : Option (Fin 16)) : s.Aside (t.swapBound old new) := by
  unfold State.swapBound
  split
  · exact h
  · exact (h.lowerBound _).raiseBound _

theorem State.HandsWF.exchangeRead (h : s.HandsWF) {e : Exchange} (he : s.exch = some e) (got : List Word) :
    (s.exchangeRead e got).HandsWF := by
  unfold State.exchangeRead
  split
  · exact h.endExchange he _
  · split
    · exact h.endExchange he _
    next d hd =>
      have haside := (State.Aside.refl.loaded (s.slot e.slot).held (s.slot e.slot).lastResult
        (State.validateImage_jam hd) (s := s) (i := e.slot)).swapBound (s.slot e.slot).boundTo d.boundTo
      refine (haside.hands h).setExchange (e := e) (by simpa using he) rfl ?_
      rintro _ ⟨⟩
      have hwindow := (h.1.2.1 e he).1
      refine ⟨?_, by simp, ?_⟩
      · rw [State.inWindow_congr (s := s) (by simp)]
        exact hwindow
      · rintro _ _ ⟨⟩
        rw [State.inWindow_congr (s := s) (by simp), Device.package_length]
        exact ⟨hwindow, by decide⟩

end

end Sys2Proof.Machine
end

section
/-! What is in hand stays in hand through every command (R170, R174): the orders, the engine's own rows, the page writer. -/

namespace Sys2Proof.Machine

section

variable {s t u : State} {i : Fin 48}

/-! ## Orders in hand -/

/-- The log unit's other items are not in hand. -/
theorem State.Released.log (h : s.Released) {lu : LogUnit} (hqueue : lu.queue = s.lu.queue) :
    State.Released { s with lu := lu } := by
  obtain ⟨⟨⟨hengine, hexchange, hpages⟩, hkept⟩, hrun, hblock, hexch, hjams, hflush⟩ := h
  exact ⟨⟨⟨hengine.congr rfl rfl rfl, hexchange.congr rfl rfl, hpages.congr rfl rfl rfl hqueue rfl⟩, hkept⟩, hrun, hblock,
    hexch, hjams, hflush⟩

theorem State.Aside.report_hands (h : s.Aside t) (hs : s.Released) (code : Result) (detail : Nat := 0) :
    (t.report code detail).HandsWF :=
  (h.released hs).report code detail

theorem setReferenceOrder_hands (h : s.Released) (o : Order) : (setReferenceOrder o s).HandsWF := by
  unfold setReferenceOrder
  split
  · exact h.report _
  · dsimp only
    split_ifs
    · exact h.report _
    · exact (((State.Aside.refl.clock _).clock _).refChanged _).report_hands h _
    · exact (State.Aside.refl.clock _).report_hands h _
    · exact ((State.Aside.refl.clock _).refChanged _).report_hands h _

theorem setChannelOrder_hands (h : s.Released) (o : Order) : (setChannelOrder o s).HandsWF := by
  unfold setChannelOrder
  split
  · dsimp only
    split_ifs
    · exact h.report _
    · exact h.report _
    · exact h.report _
    · exact (State.Aside.refl.setChan _ _).report_hands h _
  · exact h.report _

theorem startChannelOrder_hands (h : s.Released) (o : Order) : (startChannelOrder o s).HandsWF := by
  unfold startChannelOrder
  split
  · exact h.report _
  · split
    · exact h.report _
    · dsimp only
      split
      · exact (State.Aside.refl.setChan _ _).report_hands h _
      · exact (s.lateStart_aside _ _).report_hands h _

theorem stopChannelOrder_hands (h : s.Released) (o : Order) : (stopChannelOrder o s).HandsWF := by
  unfold stopChannelOrder
  split
  · exact h.report _
  · split
    · exact h.report _
    · exact (s.stopChannel_aside _).report_hands h _
    · exact (State.Aside.refl.setChan _ _).report_hands h _

theorem setActionOrder_hands (h : s.Released) (o : Order) : (setActionOrder o s).HandsWF := by
  unfold setActionOrder
  split
  · exact (h.log rfl).report _
  · exact h.report _

theorem setTakeOrder_hands (h : s.Released) (o : Order) : (setTakeOrder o s).HandsWF := by
  unfold setTakeOrder
  split
  · exact (h.log rfl).report _
  · exact h.report _

theorem injectMarkOrder_hands (h : s.Released) (o : Order) : (injectMarkOrder o s).HandsWF := by
  unfold injectMarkOrder
  split
  · exact h.report _
  · split
    · exact h.report _
    · exact (s.takeMark_aside _ _).report_hands h _ _

/-! ### TRANSLATE and SNAPSHOT: areas of their own -/

theorem State.inWindow_mono {a n b m : Nat} (h : s.inWindow a n = true) (hhigh : b + m ≤ a + n) :
    s.inWindow b m = true := by
  rw [State.inWindow_iff] at h ⊢
  omega

theorem State.inWindow_wordsAt {a : Nat} {ws : List Word} (h : s.inWindow a (4 * ws.length) = true) :
    ∀ p ∈ wordsAt a ws, s.inWindow p.1 4 = true := by
  intro p hp
  obtain ⟨k, hk, he⟩ := wordsAt_addr a ws p hp
  exact State.inWindow_mono h (by omega)

/-- The parameter words of an order in hand lie in the window after its block's header (R173). -/
theorem State.HandsWF.params (h : s.HandsWF) {o : Order} (hstep : s.oe.step = .taken o) :
    s.inWindow s.oe.block (16 + 4 * o.kind.paramWords) = true := by
  have hengine := h.1.1
  unfold State.EngineAreasWF at hengine
  rw [hstep] at hengine
  rw [State.inWindow_iff, ← Nat.add_assoc]
  exact State.inWindow_iff.mp hengine.2

theorem translateResults_length (st : Option Nat) (gen : BitVec 16) (flags : MarkFlags) (watch : List Watch)
    (hw : watch.length ≤ 4) : (translateResults st gen flags watch).length = 11 := by
  have hlen : (watch.flatMap Watch.words).length = 2 * watch.length := by
    induction watch with
    | nil => rfl
    | cons w ws ih =>
      rw [List.flatMap_cons, List.length_append, ih (by simp at hw; omega), List.length_cons]
      show 2 + 2 * ws.length = _
      omega
  simp only [translateResults, List.length_append, List.length_replicate, hlen, List.length_cons, List.length_nil]
  omega

/-- A TRANSLATE names at most four channels (R152). -/
theorem translateChannels_length (o : Order) : ((translateChannels o).getD []).length ≤ 4 := by
  unfold translateChannels
  split
  · cases hd : distinctChannels (channelBytes (o.p 4) (o.p 3).toNat) with
    | none => exact Nat.zero_le _
    | some watch =>
      obtain ⟨-, hmap⟩ := distinctChannels_eq_some_iff.mp hd
      have hlen : watch.length = (channelBytes (o.p 4) (o.p 3).toNat).length := by rw [← hmap, List.length_map]
      exact hlen.trans_le (List.length_take_le' _ _)
  · exact Nat.zero_le _

theorem translateOrder_hands (h : s.HandsWF) {o : Order} (hstep : s.oe.step = .taken o) (hk : o.kind = .translate) :
    (translateOrder o s).HandsWF := by
  have hr := h.taken_released hstep
  have hparams := h.params hstep
  rw [hk, show OrderKind.translate.paramWords = 16 from rfl] at hparams
  unfold translateOrder
  split
  · split
    · exact hr.report _
    next m _ =>
      refine hr.terminating (State.inWindow_wordsAt ?_)
      rw [translateResults_length _ _ _ _ ((s.watchEntries_length _ _).trans (translateChannels_length o))]
      exact State.inWindow_mono hparams (by omega)
  · exact hr.report _

theorem flatMap_length_const {α β : Type} (f : α → List β) {n : Nat} (hf : ∀ a, (f a).length = n) (l : List α) :
    (l.flatMap f).length = n * l.length := by
  induction l with
  | nil => rfl
  | cons a l ih => rw [List.flatMap_cons, List.length_append, ih, hf, List.length_cons, Nat.mul_succ, Nat.add_comm]

theorem Device.summary_length (d : Device) : d.summary.length = 4 := by
  unfold Device.summary
  split <;> rfl

/-- A SNAPSHOT's image is 272 words (R182). -/
theorem State.snapshotImage_length (s : State) : s.snapshotImage.length = 272 := by
  rw [State.snapshotImage, List.length_append, List.length_append,
    flatMap_length_const Channel.summary (n := 4) (fun _ => rfl) s.chans.toList,
    flatMap_length_const _ Device.summary_length, Vector.length_toList, Vector.length_toList]
  rfl

theorem snapshotOrder_hands (h : s.HandsWF) {o : Order} (hstep : s.oe.step = .taken o) (hk : o.kind = .snapshot) :
    (snapshotOrder o s).HandsWF := by
  have hr := h.taken_released hstep
  have hparams := h.params hstep
  rw [hk, show OrderKind.snapshot.paramWords = 2 from rfl] at hparams
  unfold snapshotOrder
  dsimp only
  split
  · exact hr.report _
  next hbad =>
    refine hr.setStep hr.running ⟨hparams, ?_, ?_⟩
    · rw [s.snapshotImage_length]
      exact by_contra fun hw => hbad (.inr (.inr (Bool.eq_false_of_not_eq_true hw)))
    · rw [s.snapshotImage_length]
      decide

/-! ### Orders of the page writer -/

theorem State.pageAcceptable_isPage {stock : List Nat} {a : Nat} (h : s.pageAcceptable stock a = true) :
    s.isPage a = true := by
  simp only [State.pageAcceptable, Bool.and_eq_true] at h
  obtain ⟨⟨⟨⟨⟨hne, halign⟩, hin⟩, -⟩, -⟩, -⟩ := h
  simp [State.isPage, hne, halign, hin]

theorem State.stockWith_pages (s : State) (l stock : List Nat) (h : ∀ a ∈ stock, s.isPage a = true) :
    (∀ a ∈ s.stockWith stock l, s.isPage a = true) ∧ stock.length ≤ (s.stockWith stock l).length := by
  induction l generalizing stock with
  | nil => exact ⟨h, le_rfl⟩
  | cons a l ih =>
    unfold State.stockWith
    split
    next hok =>
      obtain ⟨hall, hlen⟩ := ih (stock ++ [a]) fun x hx => by
        rcases List.mem_append.mp hx with hx | hx
        · exact h x hx
        · rw [List.mem_singleton.mp hx]
          exact State.pageAcceptable_isPage hok
      exact ⟨hall, (by simp : stock.length ≤ (stock ++ [a]).length).trans hlen⟩
    next => exact ih stock h

/-- More pages in the stock are as well in hand, unless the writer is STARVED. -/
theorem State.PageAreasWF.restock (h : s.PageAreasWF) {stock : List Nat} (hstock : ∀ a ∈ stock, s.isPage a = true)
    (hstarved : s.pw.activity = .starved → stock = []) :
    State.PageAreasWF { s with pw := { s.pw with stock := stock } } := by
  obtain ⟨-, hpage, hact⟩ := h
  refine ⟨hstock, hpage, ?_⟩
  cases ha : s.pw.activity with
  | starved =>
    simp only [ha] at hact ⊢
    exact ⟨hact.1, hstarved ha, hact.2.2⟩
  | _ =>
    simp only [ha] at hact ⊢
    exact hact

theorem givePagesOrder_hands (h : s.Released) (o : Order) : (givePagesOrder o s).HandsWF := by
  unfold givePagesOrder
  dsimp only
  split
  · exact h.report _
  · generalize ((o.params.drop 1).take (o.p 0).toNat).map BitVec.toNat = given
    obtain ⟨hhands, hrun, hblock, hexch, hjams, hflush⟩ := h
    obtain ⟨⟨hengine, hexchange, hpages⟩, hkept⟩ := hhands
    obtain ⟨hall, hlen⟩ := s.stockWith_pages given s.pw.stock hpages.1
    have hengine' (r : Nat) : (State.report { s with pw := { s.pw with stock := s.stockWith s.pw.stock given } } .done
        r).EngineAreasWF := (State.engineAreas_terminating rfl).mpr ⟨hblock, by simp⟩
    have hkept' (r : Nat) : (State.report { s with pw := { s.pw with stock := s.stockWith s.pw.stock given } } .done
        r).KeptWF := by
      refine State.keptWF_iff.mpr ⟨absurd hrun, fun e he hd => ?_, fun i hw => absurd hw (hjams i), fun hf => ?_⟩
      · simp [hexch e he] at hd
      · rw [show (State.report { s with pw := { s.pw with stock := s.stockWith s.pw.stock given } } .done r).pw.flush =
          none from hflush] at hf
        cases hf
    split
    · exact State.ChoiceWF.choose ⟨hengine' _, hexchange.congr rfl rfl, ⟨hall, hpages.2.1⟩, hkept' _⟩ false
    next hnot =>
      refine ⟨⟨hengine' _, hexchange.congr rfl rfl, (hpages.restock hall fun hst => ?_).congr rfl rfl rfl rfl rfl⟩, hkept' _⟩
      obtain ⟨-, -, hempty, -⟩ := (State.pageAreas_starved hst).mp hpages
      have hle : ¬0 < (s.stockWith s.pw.stock given).length - s.pw.stock.length := fun hlt => hnot ⟨hst, hlt⟩
      rw [hempty, List.length_nil] at hle
      rw [hempty]
      exact List.length_eq_zero_iff.mp (by omega)

theorem flushLogOrder_hands (h : s.Released) (o : Order) : (flushLogOrder o s).HandsWF := by
  obtain ⟨⟨⟨-, hexchange, hpages⟩, -⟩, hrun, hblock, hexch, hjams, -⟩ := h
  have h1 : (State.keep { s with pw := { s.pw with
      flush := some ⟨s.lu.queue.getLast?.map TakeRecord.seq, false⟩ } } .flushLog).HandsWF := by
    refine ⟨⟨(State.engineAreas_waiting rfl).mpr hblock, hexchange.congr rfl rfl, hpages.congr rfl rfl rfl rfl rfl⟩,
      State.keptWF_iff.mpr ⟨absurd hrun, fun e he hd => ?_, fun i hw => absurd hw (hjams i), fun _ => rfl⟩⟩
    simp [hexch e he] at hd
  unfold flushLogOrder
  dsimp only
  split
  · exact h1.choiceWF.choose false
  · exact h1.endFlush rfl _ _
  · exact h1

end

end Sys2Proof.Machine
end

section
/-! What is in hand stays in hand through the engine's own rows, the page writer's, abort, engine clear, and a word access. -/

namespace Sys2Proof.Machine

section

variable {s t u : State} {i : Fin 48}

/-- Memory and the counter of free values are not in hand. -/
theorem State.HandsWF.memory (h : s.HandsWF) (mem : List Host.Cell) (free : Nat) :
    State.HandsWF { s with mem := mem, free := free } :=
  (State.Aside.refl.elsewhere (u := { s with mem := mem, free := free }) rfl rfl rfl rfl rfl rfl rfl rfl).hands h

/-! ## The engine's rows -/

theorem State.HandsWF.chainEnd (h : s.HandsWF) (hwait : ∀ k, s.oe.step ≠ .waiting k) (e : ChainState) :
    (s.chainEnd e).HandsWF :=
  (h.setStep hwait (oe := { s.oe with chain := e, block := 0, step := .none, stopAfter := false }) (fun _ => rfl)
    trivial).raise .chain

theorem State.HandsWF.fetched (h : s.HandsWF) {got : List Word} (hstep : s.oe.step = .fetching got) :
    (s.fetched got).HandsWF := by
  have hwait : ∀ k, s.oe.step ≠ .waiting k := by simp [hstep]
  unfold State.fetched
  dsimp only
  split
  next hfits =>
    have hblock : s.inWindow s.oe.block 16 = true := by
      unfold State.headerFits at hfits
      exact (Bool.and_eq_true_iff.mp hfits).2
    have hr := h.released_of_block (by simp [hstep]) hwait hblock
    split
    · exact hr.report _
    next k _ =>
      split
      next hparams =>
        have hin : s.inWindow (s.oe.block + 16) (4 * k.paramWords) = true := by
          unfold State.paramsFit State.paramsIn at hparams
          exact (Bool.and_eq_true_iff.mp hparams).1
        exact (hr.setStep (oe := { s.oe with step := .taken (s.readOrder s.oe.block got k) }) hr.running
          ⟨hblock, hin⟩).memory _ s.free
      next => exact hr.report _
  next => exact h.chainEnd hwait _

theorem State.HandsWF.terminated (h : s.HandsWF) {results : List (Nat × Word)} {code : Result} {detail : Nat}
    (hstep : s.oe.step = .terminating results code detail) (ws : List (Nat × Word)) (code' : Result) :
    (s.terminated ws code').HandsWF := by
  have hwait : ∀ k, s.oe.step ≠ .waiting k := by simp [hstep]
  have hr := h.released (by simp [hstep]) (by simp [hstep]) hwait
  have h1 := h.memory (Memory.writeAll s.mem ws) s.free
  unfold State.terminated
  dsimp only
  split
  · exact h1.chainEnd hwait _
  · exact h1.setStep hwait (oe := { s.oe with step := .linking code' }) (fun hc => absurd hr.running hc) hr.block

/-- A fetch that begins in a RUNNING chain (R173). -/
theorem State.HandsWF.beginFetch (h : s.HandsWF) (hwait : ∀ k, s.oe.step ≠ .waiting k) {oe : Engine}
    (hrun : oe.chain = .running) (block : Nat) : (State.beginFetch { s with oe := oe } block).HandsWF :=
  h.setStep hwait (oe := { oe with block := block, step := .fetching [] }) (fun hc => absurd hrun hc) trivial

theorem State.HandsWF.linked (h : s.HandsWF) {code : Result} (hstep : s.oe.step = .linking code) (code' : Result) :
    (s.linked code').HandsWF := by
  have hwait : ∀ k, s.oe.step ≠ .waiting k := by simp [hstep]
  have hr := h.released (by simp [hstep]) (by simp [hstep]) hwait
  unfold State.linked
  dsimp only
  split
  · exact h.chainEnd hwait _
  · split
    · exact h.chainEnd hwait _
    · exact h.beginFetch hwait hr.running _

theorem State.HandsWF.imageWritten (h : s.HandsWF) {area : Nat} {image : List Word}
    (hstep : s.oe.step = .imaging area image) : (s.imageWritten area image).HandsWF := by
  have hr := h.released (by simp [hstep]) (by simp [hstep]) (by simp [hstep])
  have hengine := h.1.1
  unfold State.EngineAreasWF at hengine
  rw [hstep] at hengine
  have hr' : State.Released { s with mem := Memory.writeAll s.mem (wordsAt area image) } :=
    (State.Aside.refl.elsewhere (s := s) (t := s) (u := { s with mem := Memory.writeAll s.mem (wordsAt area image) })
      rfl rfl rfl rfl rfl rfl rfl rfl).released hr
  refine hr'.terminating fun p hp => ?_
  rw [List.mem_singleton.mp hp]
  exact State.inWindow_mono (s := s) hengine.1 (by show s.oe.block + 20 + 4 ≤ _; omega)

/-! ## The page writer's rows -/

/-- The choice after a row of the page writer: its pages in the window, its flush set standing. -/
theorem State.HandsWF.choice (h : s.HandsWF) {mem : List Host.Cell} {pw : PageWriter} {lu : LogUnit}
    (hflush : pw.flush.isSome = true → s.pw.flush.isSome = true) (hp : State.PagesWF { s with mem := mem, pw := pw, lu := lu }) :
    State.ChoiceWF { s with mem := mem, pw := pw, lu := lu } := by
  obtain ⟨hrun, hexch, hjams, hfl⟩ := State.keptWF_iff.mp h.2
  exact ⟨h.1.1.congr rfl rfl rfl, h.1.2.1.congr rfl rfl, hp,
    State.keptWF_iff.mpr ⟨hrun, hexch, hjams, fun hf => hfl (hflush hf)⟩⟩

theorem State.HandsWF.claimEmpty (h : s.HandsWF) {page : Nat} {cleared : Bool}
    (hact : s.pw.activity = .claiming page cleared) (cleared' : Bool) : (s.claimEmpty page cleared').HandsWF := by
  obtain ⟨⟨hstock, -⟩, hpage, -⟩ := (State.pageAreas_claiming hact).mp h.1.2.2
  have hc := h.choice (mem := Memory.writeAll s.mem (s.claimWrites page)) (lu := s.lu) (pw :=
      { s.pw with page := some ⟨page, s.pw.pageSeq, 0, 0⟩, pageSeq := s.pw.pageSeq + 1 }) id ⟨hstock, by
    rintro _ ⟨⟩
    exact ⟨hpage, Nat.zero_le _, le_rfl⟩⟩
  unfold State.claimEmpty
  dsimp only
  split
  · exact hc.setActivity ((State.pageAreas_closing rfl).mpr ⟨hc.pages.congr rfl rfl rfl, rfl⟩)
  · exact hc.choose false

theorem State.HandsWF.claimRefused (h : s.HandsWF) (cleared : Bool) : (s.claimRefused cleared).HandsWF :=
  (h.choice (mem := s.mem) (pw := { s.pw with refused := s.pw.refused + 1 }) (lu := s.lu) id
    (h.1.2.2.pages.congr rfl rfl rfl)).choose cleared

theorem State.HandsWF.recordDone (h : s.HandsWF) {made : Nat} (hact : s.pw.activity = .writing made) {p : OpenPage}
    (hpage : s.pw.page = some p) {r : TakeRecord} {rest : List TakeRecord} (hqueue : s.lu.queue = r :: rest)
    (made' : Nat) : (s.recordDone p r rest made').HandsWF := by
  obtain ⟨⟨hstock, hopen⟩, p', r', rest', hpage', hqueue', hfits, -⟩ := (State.pageAreas_writing hact).mp h.1.2.2
  obtain rfl : p = p' := Option.some.inj (hpage.symm.trans hpage')
  obtain ⟨rfl, rfl⟩ : r = r' ∧ rest = rest' := List.cons.inj (hqueue.symm.trans hqueue')
  obtain ⟨haddr, -, hcount⟩ := hopen p hpage
  refine (h.choice (mem := Memory.writeAll s.mem (recordLeft p r made')) (lu := { s.lu with queue := rest })
    (pw := { s.pw with page := some { p with records := p.records + 1, used := p.used + r.length } }) id
    ⟨hstock, ?_⟩).choose false
  rintro _ ⟨⟩
  refine ⟨haddr, ?_, ?_⟩
  · exact of_decide_eq_true hfits
  · show 8 * (p.records + 1) ≤ p.used + (8 + 2 * r.body.watch.length)
    omega

theorem State.ChoiceWF.raise (h : s.ChoiceWF) (c : Cause) : (s.raise c).ChoiceWF :=
  ⟨h.engine.congr rfl rfl rfl, h.package.congr rfl rfl, h.pages.congr rfl rfl rfl, h.kept⟩

theorem State.ChoiceWF.afterClose (h : s.ChoiceWF) (why : CloseWhy) (cleared : Bool) : (s.afterClose why cleared).HandsWF := by
  unfold State.afterClose
  split
  · exact (h.raise .page).choose cleared
  · split
    next f hf => exact (h.endFlush (h.flushing (by rw [hf]; rfl)) _ _).choose cleared
    next => exact h.choose cleared
  · exact h.choose true

theorem State.HandsWF.closeDone (h : s.HandsWF) (p : OpenPage) (why : CloseWhy) (cleared : Bool) :
    (s.closeDone p why cleared).HandsWF :=
  (h.choice (mem := Memory.writeAll s.mem (closeWrites p)) (pw := { s.pw with page := none }) (lu := s.lu) id
    ⟨h.1.2.2.1, nofun⟩).afterClose why cleared

/-! ## Abort -/

theorem State.HandsWF.abortKept (h : s.HandsWF) {k : Kept} (hstep : s.oe.step = .waiting k) : (s.abortKept k).HandsWF := by
  cases k with
  | jam i =>
    refine (h.released_of_jam hstep ?_).report .aborted
    rintro ⟨j, hj, hw⟩
    obtain ⟨j', -, rfl⟩ := Option.map_eq_some_iff.mp hj
    cases hw
  | exchange =>
    show s.abortExchange.HandsWF
    unfold State.abortExchange
    split
    next e he =>
      split
      · exact h.endExchange he _
      · exact h
    next => exact h
  | flushLog =>
    show s.abortFlush.HandsWF
    unfold State.abortFlush
    split
    next b f hact hf =>
      refine h.choiceWF.writer (pw := { s.pw with flush := some { f with aborted := true } }) (fun _ => by rw [hf]; rfl) ?_
      exact h.1.2.2.congr rfl rfl rfl rfl rfl
    · exact h.endFlush hstep _ _

theorem State.HandsWF.setStopAfter (h : s.HandsWF) : s.setStopAfter.HandsWF :=
  (State.Aside.refl.elsewhere (u := s.setStopAfter) rfl rfl rfl rfl rfl rfl rfl rfl).hands h

theorem State.HandsWF.abortChain (h : s.HandsWF) : s.abortChain.HandsWF := by
  unfold State.abortChain
  split
  · exact h
  · split
    · exact h
    next got hstep =>
      have hwait : ∀ k, s.oe.step ≠ .waiting k := by simp [hstep]
      split
      next hpassed =>
        have hblock : s.inWindow s.oe.block 16 = true := by
          unfold State.headerPassed State.headerFits at hpassed
          exact (Bool.and_eq_true_iff.mp (Bool.and_eq_true_iff.mp hpassed).2).2
        exact (h.setStopAfter.released_of_block (by simp [State.setStopAfter, hstep]) hwait hblock).report _
      next => exact h.chainEnd hwait _
    next o hstep => exact (h.setStopAfter.taken_released hstep).report _
    next o hstep => exact (h.setStopAfter.held_released hstep).report _
    · exact h.setStopAfter
    · exact h.setStopAfter
    · exact h.setStopAfter
    next k hstep => exact h.setStopAfter.abortKept hstep

/-! ## Engine clear -/

theorem State.setSlot_waits {x : Device} (hx : x.Waits → (s.slot i).Waits) {k : Fin 48}
    (hk : ((s.setSlot i x).slot k).Waits) : (s.slot k).Waits := by
  by_cases h : k = i
  · rw [h, State.setSlot_slot_same] at hk
    exact h ▸ hx hk
  · rwa [State.setSlot_slot_other s i k x h] at hk

/-- After engine clear no order is kept any more: an exchange that goes on is dropped, no jam is waited for (R114, R130). -/
theorem State.HandsWF.dropKept (h : s.HandsWF) :
    s.dropKept.PageAreasWF ∧ s.dropKept.ExchangeAreasWF ∧ (∀ e, s.dropKept.exch = some e → e.dropped = true) ∧
      ∀ i, ¬(s.dropKept.slot i).Waits := by
  obtain ⟨⟨-, hexchange, hpages⟩, hkept⟩ := h
  obtain ⟨-, hexch, hjams, -⟩ := State.keptWF_iff.mp hkept
  have hdropped (hstep : s.oe.step ≠ .waiting .exchange) : ∀ e, s.exch = some e → e.dropped = true := fun e he => by
    by_contra hd
    exact hstep (hexch e he (by simpa using hd))
  unfold State.dropKept
  split
  next i hstep =>
    refine ⟨hpages.congr rfl rfl rfl rfl rfl, hexchange.congr rfl rfl, hdropped (by simp [hstep]), fun k hw => ?_⟩
    by_cases hk : k = i
    · rw [hk, State.setSlot_slot_same] at hw
      obtain ⟨j, hj, hw⟩ := hw
      obtain ⟨j', -, rfl⟩ := Option.map_eq_some_iff.mp hj
      cases hw
    · rw [State.setSlot_slot_other s i k _ hk] at hw
      exact hk (by simpa [hstep, eq_comm] using hjams k hw)
  next hstep =>
    have hnojam (k : Fin 48) : ¬(s.slot k).Waits := fun hw => by simp [hstep] at hjams; exact hjams k hw
    split
    next e he =>
      split
      · refine ⟨hpages.congr rfl rfl rfl rfl rfl, nofun, nofun, fun k hw => hnojam k ?_⟩
        exact State.setSlot_waits (x := { s.slot e.slot with held := false }) (Device.waits_congr rfl) hw
      · refine ⟨hpages.congr rfl rfl rfl rfl rfl, ?_, ?_, hnojam⟩
        · rintro _ ⟨⟩
          exact hexchange e he
        · rintro _ ⟨⟩
          rfl
    next hno => exact ⟨hpages, hexchange, by simp [hno], hnojam⟩
  next hjam hex =>
    exact ⟨hpages, hexchange, hdropped hex, fun k hw => hjam k (hjams k hw)⟩

theorem State.cutEngine_eq (s : State) : ∃ mem free, s.cutEngine = { s with mem := mem, free := free } := by
  unfold State.cutEngine
  split <;> exact ⟨_, _, rfl⟩

/-- The page writer's engine-clear action keeps its pages in order and leaves no flush set (R168). -/
theorem State.PageAreasWF.clear (h : s.PageAreasWF) :
    s.pageWriterClear.PageAreasWF ∧ s.pageWriterClear.pw.flush = none := by
  have hp : State.PagesWF { s with pw := { s.pw with stock := [], flush := none } } := ⟨nofun, h.2.1⟩
  have hclosing (w : CloseWhy) (hsome : s.pw.page.isSome = true) :
      (State.setActivity { s with pw := { s.pw with stock := [], flush := none } } (.closing w true)).PageAreasWF :=
    (State.pageAreas_closing rfl).mpr ⟨hp.congr rfl rfl rfl, hsome⟩
  unfold State.pageWriterClear
  dsimp only
  split
  next page b hact =>
    obtain ⟨-, hrest⟩ := (State.pageAreas_claiming hact).mp h
    exact ⟨(State.pageAreas_claiming rfl).mpr ⟨hp.congr rfl rfl rfl, hrest⟩, rfl⟩
  next hact => exact ⟨hclosing .full ((State.pageAreas_closing hact).mp h).2, rfl⟩
  next hact => exact ⟨hclosing .clear ((State.pageAreas_closing hact).mp h).2, rfl⟩
  next hact => exact ⟨hclosing .clear ((State.pageAreas_closing hact).mp h).2, rfl⟩
  next made p _ hpage =>
    have hsome : s.pw.page.isSome = true := by rw [hpage]; rfl
    split
    · refine ⟨(hclosing .clear hsome).congr ?_ ?_ rfl ?_ ?_, ?_⟩ <;> simp [State.setActivity]
    · exact ⟨hclosing .clear hsome, rfl⟩
  next p _ hpage => exact ⟨hclosing .clear (by rw [hpage]; rfl), rfl⟩
  next hclaim hfull hflush hclear hwrite hidle =>
    refine ⟨?_, rfl⟩
    cases hact : s.pw.activity with
    | idle =>
      exact Iff.mpr (State.pageAreas_idle rfl) ⟨hp, ((State.pageAreas_idle hact).mp h).2⟩
    | claiming page b => exact absurd hact (hclaim page b)
    | writing made =>
      obtain ⟨-, p, _, _, hpage, -⟩ := (State.pageAreas_writing hact).mp h
      exact absurd hpage (hwrite made p hact)
    | closing w b =>
      cases w with
      | full => exact absurd hact (hfull b)
      | flush => exact absurd hact (hflush b)
      | clear => exact absurd hact (hclear b)
    | starved =>
      obtain ⟨-, hnone, -, hqueue⟩ := (State.pageAreas_starved hact).mp h
      exact Iff.mpr (State.pageAreas_starved rfl) ⟨hp, hnone, rfl, hqueue⟩

theorem State.HandsWF.clearEngine (h : s.HandsWF) : s.clearEngine.HandsWF := by
  obtain ⟨mem, free, he⟩ := s.cutEngine_eq
  unfold State.clearEngine
  rw [he]
  obtain ⟨hpages, hexchange, hdropped, hjams⟩ := (h.memory mem free).dropKept
  generalize State.dropKept { s with mem := mem, free := free } = t at hpages hexchange hdropped hjams
  have hpages' : State.PageAreasWF { t with oe := t.oe.cleared } := hpages.congr rfl rfl rfl rfl rfl
  obtain ⟨harea, hflush⟩ := hpages'.clear
  obtain ⟨-, -, -, hslots, hexch, -, hoe, hstraps, -⟩ := State.pageWriterClear_frame { t with oe := t.oe.cleared }
  refine ⟨⟨?_, hexchange.congr hexch hstraps, harea⟩, State.keptWF_iff.mpr ⟨fun _ => by rw [hoe]; rfl, ?_, ?_, ?_⟩⟩
  · exact State.EngineAreasWF.congr (s := { t with oe := t.oe.cleared }) trivial (by rw [hoe]) (by rw [hoe]) hstraps
  · intro e he hd
    rw [hexch] at he
    simp [hdropped e he] at hd
  · intro i hw
    rw [State.slot_congr hslots] at hw
    exact absurd hw (hjams i)
  · rw [hflush]
    nofun

/-! ## Word accesses -/

theorem State.HandsWF.engineWord (h : s.HandsWF) (hu : s.engineWord = some u) : u.HandsWF := by
  obtain ⟨hrun, -⟩ := State.keptWF_iff.mp h.2
  have hengine := h.1.1
  unfold State.EngineAreasWF at hengine
  rcases s.engineWord_some u hu with ⟨got, a, hstep, -, rfl⟩ | ⟨area, w, next, rest, hstep, -, rfl⟩ |
    ⟨p, rest, code, detail, hstep, -, rfl⟩
  · exact h.setStep (by simp [hstep]) (oe := { s.oe with step := .fetching _ })
      (fun hc => absurd (hrun hc) (by simp [hstep])) trivial
  · rw [hstep] at hengine
    obtain ⟨hblock, harea, -⟩ := hengine
    refine (h.setStep (by simp [hstep]) (oe := { s.oe with step := .imaging (area + 4) (next :: rest) })
      (fun hc => absurd (hrun hc) (by simp [hstep])) ⟨hblock, ?_, by simp⟩).memory _ s.free
    exact State.inWindow_mono (s := s) harea (by simp only [List.length_cons]; omega)
  · rw [hstep] at hengine
    obtain ⟨hblock, hresults⟩ := hengine
    exact (h.setStep (by simp [hstep]) (oe := { s.oe with step := .terminating rest code detail })
      (fun hc => absurd (hrun hc) (by simp [hstep]))
      ⟨hblock, fun p hp => hresults p (List.mem_cons_of_mem _ hp)⟩).memory _ s.free

theorem State.HandsWF.exchangeWord (h : s.HandsWF) (hu : s.exchangeWord = some u) : u.HandsWF := by
  rcases s.exchangeWord_some u hu with ⟨e, got, he, hphase, hlen, rfl⟩ | ⟨e, area, w, next, rest, he, hphase, -, rfl⟩
  · refine h.setExchange he rfl ?_
    rintro _ ⟨⟩
    refine ⟨(h.1.2.1 e he).1, ?_, by simp⟩
    rintro _ ⟨⟩
    simp only [List.length_append, List.length_cons, List.length_nil]
    omega
  · refine State.HandsWF.memory (h.setExchange (e' := { e with phase := .writing (area + 4) (next :: rest) }) he rfl ?_) _ s.free
    rintro _ ⟨⟩
    obtain ⟨hpackage, -, hwriting⟩ := h.1.2.1 e he
    refine ⟨hpackage, by simp, ?_⟩
    rintro _ _ ⟨⟩
    exact ⟨State.inWindow_mono (s := s) (hwriting area _ hphase).1 (by simp only [List.length_cons]; omega), by simp⟩

theorem State.HandsWF.recordWord (h : s.HandsWF) (hu : s.recordWord = some u) : u.HandsWF := by
  obtain ⟨made, p, r, rest, w, next, left, hact, hpage, hqueue, hleft, -, rfl⟩ := s.recordWord_some u hu
  obtain ⟨hp, p', r', rest', hpage', hqueue', hfits, -⟩ := (State.pageAreas_writing hact).mp h.1.2.2
  obtain rfl : p = p' := Option.some.inj (hpage.symm.trans hpage')
  obtain ⟨rfl, rfl⟩ : r = r' ∧ rest = rest' := List.cons.inj (hqueue.symm.trans hqueue')
  have hlen := congrArg List.length hleft
  rw [recordLeft_length, List.length_cons, List.length_cons] at hlen
  exact (h.choiceWF.setActivity (a := .writing (made + 1)) ((State.pageAreas_writing rfl).mpr
    ⟨hp.congr rfl rfl rfl, p, r, rest, hpage, hqueue, hfits, by omega⟩)).memory _ s.free

theorem State.HandsWF.wordAccess (h : s.HandsWF) : s.wordAccess.HandsWF := by
  have hall : ∀ t ∈ s.wordAccesses, t.HandsWF := fun t ht => by
    rcases (s.mem_wordAccesses t).mp ht with hw | hw | hw
    · exact h.engineWord hw
    · exact h.exchangeWord hw
    · exact h.recordWord hw
  rcases s.wordAccess_cases with ⟨-, he⟩ | ⟨t, ht, he | he⟩ <;> rw [he]
  · exact h
  · exact hall t ht
  · exact (hall t ht).memory t.mem _

/-! ## Every step -/

theorem State.reset_hands (mem : List Host.Cell) (straps : Bool × Bool) (free : Nat) (pending : List Instr) :
    State.HandsWF { State.reset with mem := mem, straps := straps, free := free, pending := pending } := by
  refine ⟨⟨trivial, nofun, nofun, nofun, rfl⟩, fun _ => rfl, nofun, fun i j hj => ?_, nofun⟩
  change (State.reset.slot i).jam = some j at hj
  rw [State.reset_slot] at hj
  cases hj

theorem CommandEffect.hands {c : Instr} (h : CommandEffect s c t) (hs : s.HandsWF) : t.HandsWF := by
  cases h with
  | same => exact hs
  | oscillatorTick => exact ((State.Aside.refl.clock _).link _).hands hs
  | referenceEdge => exact s.refEdge_aside.hands hs
  | referenceMiss => exact s.refMiss_aside.hands hs
  | timeLowRead => exact (State.Aside.refl.elsewhere rfl rfl rfl rfl rfl rfl rfl rfl).hands hs
  | chainStart v hidle =>
    have hnone : s.oe.step = .none := hs.2.1 (by simp [hidle])
    exact hs.beginFetch (by simp [hnone]) rfl _
  | returnToIdle hended =>
    have hnone : s.oe.step = .none := hs.2.1 (by rcases hended with h | h <;> simp [h])
    exact hs.setStep (by simp [hnone]) (fun _ => hnone) (hs.1.1.congr rfl rfl rfl)
  | abort => exact hs.abortChain
  | engineClear => exact hs.clearEngine
  | refusedHead => exact hs.raise .refused
  | attentionWrite v => exact (State.Aside.refl.elsewhere rfl rfl rfl rfl rfl rfl rfl rfl).hands hs
  | attentionMaskWrite v => exact (State.Aside.refl.elsewhere rfl rfl rfl rfl rfl rfl rfl rfl).hands hs
  | orderFetch got hstep => exact hs.fetched hstep
  | terminationWritten results code detail hstep => exact hs.terminated hstep _ _
  | linkRead code hstep => exact hs.linked hstep _
  | snapshotWritten area image hstep => exact hs.imageWritten hstep
  | pass o hstep => exact (hs.taken_released hstep).report _
  | snapshot o hstep hk => exact snapshotOrder_hands hs hstep hk
  | setReference o hstep => exact setReferenceOrder_hands (hs.taken_released hstep) o
  | setChannel o hstep => exact setChannelOrder_hands (hs.taken_released hstep) o
  | startChannel o hstep => exact startChannelOrder_hands (hs.taken_released hstep) o
  | stopChannel o hstep => exact stopChannelOrder_hands (hs.taken_released hstep) o
  | setAction o hstep => exact setActionOrder_hands (hs.taken_released hstep) o
  | setTake o hstep => exact setTakeOrder_hands (hs.taken_released hstep) o
  | injectMark o hstep => exact injectMarkOrder_hands (hs.taken_released hstep) o
  | translate o hstep hk => exact translateOrder_hands hs hstep hk
  | givePages o hstep => exact givePagesOrder_hands (hs.taken_released hstep) o
  | flushLog o hstep => exact flushLogOrder_hands (hs.taken_released hstep) o
  | rosterOrder o hstep => exact rosterOrder_hands (hs.taken_released hstep) o
  | rosterHeld o hstep =>
    have hengine := hs.1.1
    unfold State.EngineAreasWF at hengine
    rw [hstep] at hengine
    exact (hs.taken_released hstep).setStep (oe := { s.oe with step := .held o }) (hs.taken_released hstep).running hengine
  | channelEdge c edge => exact (s.emitEdge_aside c edge).hands hs
  | armedStart c start => exact (s.armedStart_aside c start).hands hs
  | pulseEnd c => exact (State.Aside.refl.setChan _ _).hands hs
  | nextTurn => exact s.takeTurn_happens.hands hs
  | setTurnEnd turn => exact hs.endTurn turn
  | windowOpen => exact (State.Aside.refl.link _).hands hs
  | answerStart => exact (State.Aside.refl.link _).hands hs
  | answerEnd stamp gen turn chars quiet => exact ((s.answerDelivery_happens _ _ _ _ _).hands hs).endTurn turn
  | windowClose turn => exact ((s.deliverMiss_happens turn).hands hs).endTurn turn
  | exchangeRead e got he => exact hs.exchangeRead he got
  | exchangeWritten e area image he => exact (hs.memory (Memory.writeAll s.mem (wordsAt area image)) s.free).endExchange he _
  | claimEmpty page cleared hact => exact hs.claimEmpty hact cleared
  | claimRefused page cleared => exact hs.claimRefused cleared
  | recordWritten made p r rest hact hpage hqueue => exact hs.recordDone hact hpage hqueue made
  | pageClosed why cleared p => exact hs.closeDone p why cleared

end

end Sys2Proof.Machine
end

section
/-! No step leaves the window (R170): the words that may still be written lie in it, every command answers, and no byte past
its end changes. -/

namespace Sys2Proof.Machine

section

variable {s t u : State}

/-! ## Memory within the window -/

/-- From `m` to `m'` no byte at or past `size` changes, and the canonical form is kept. -/
def Memory.Within (size : Nat) (m m' : List Host.Cell) : Prop :=
  Memory.wf m = true → Memory.wf m' = true ∧ ∀ x, size ≤ x → Memory.read m' x = Memory.read m x

variable {size : Nat} {m m' m'' : List Host.Cell}

theorem Memory.Within.refl (size : Nat) (m : List Host.Cell) : Memory.Within size m m := fun h => ⟨h, fun _ _ => rfl⟩

theorem Memory.Within.of_eq (h : m' = m) : Memory.Within size m m' := h ▸ .refl size m

theorem Memory.Within.trans (h : Memory.Within size m m') (h' : Memory.Within size m' m'') : Memory.Within size m m'' := by
  intro hwf
  obtain ⟨hwf', hread⟩ := h hwf
  obtain ⟨hwf'', hread'⟩ := h' hwf'
  exact ⟨hwf'', fun x hx => (hread' x hx).trans (hread x hx)⟩

theorem Memory.within_writeAll {ws : List (Nat × Word)} (h : ∀ p ∈ ws, p.1 + 4 ≤ size) (m : List Host.Cell) :
    Memory.Within size m (Memory.writeAll m ws) := fun hwf =>
  ⟨Memory.wf_writeAll ws m hwf, fun x hx =>
    Memory.read_writeAll_other ws m x fun p hp i hi => by have := h p hp; omega⟩

theorem Memory.within_writeFirst {ws : List (Nat × Word)} (h : ∀ p ∈ ws, p.1 + 4 ≤ size) (m : List Host.Cell) (k : Nat) :
    Memory.Within size m (Memory.writeFirst m ws k) :=
  Memory.within_writeAll (fun p hp => h p (List.mem_of_mem_take hp)) m

theorem Memory.within_writeCut {ws : List (Nat × Word)} (h : ∀ p ∈ ws, p.1 + 4 ≤ size) (m : List Host.Cell) (k : Nat)
    (torn : Word) : Memory.Within size m (Memory.writeCut m ws k torn) := by
  refine Memory.within_writeAll (fun p hp => ?_) m
  rcases List.mem_append.mp hp with hp | hp
  · exact h p (List.mem_of_mem_take hp)
  · obtain ⟨q, hq, rfl⟩ := List.mem_map.mp hp
    exact h q (List.mem_of_mem_drop (List.mem_of_mem_take hq))

/-- The words lie in the window. -/
def State.WordsIn (s : State) (ws : List (Nat × Word)) : Prop := ∀ p ∈ ws, s.inWindow p.1 4 = true

theorem State.WordsIn.le {ws : List (Nat × Word)} (h : s.WordsIn ws) : ∀ p ∈ ws, p.1 + 4 ≤ s.windowSize :=
  fun p hp => State.inWindow_iff.mp (h p hp)

theorem State.WordsIn.addresses {ws : List (Nat × Word)} (h : s.WordsIn ws) :
    ∀ a ∈ ws.map Prod.fst, s.inWindow a 4 = true := by
  intro a ha
  obtain ⟨p, hp, rfl⟩ := List.mem_map.mp ha
  exact h p hp

/-! ## The words that may still be written -/

theorem State.wordsIn_singleton {a : Nat} {w : Word} (h : s.inWindow a 4 = true) : s.WordsIn [(a, w)] := fun p hp => by
  rwa [List.mem_singleton.mp hp]

theorem State.HandsWF.terminationWrites_in (h : s.HandsWF) {results : List (Nat × Word)} {code : Result} {detail : Nat}
    (hstep : s.oe.step = .terminating results code detail) :
    s.WordsIn (terminationWrites s.oe.block results code detail) := by
  obtain ⟨hblock, hresults⟩ := (State.engineAreas_terminating hstep).mp h.1.1
  intro p hp
  rcases List.mem_append.mp hp with hp | hp
  · exact hresults p hp
  · rw [List.mem_singleton.mp hp]
    exact State.inWindow_mono hblock (by show s.oe.block + 12 + 4 ≤ _; omega)

theorem State.HandsWF.image_in (h : s.HandsWF) {area : Nat} {image : List Word} (hstep : s.oe.step = .imaging area image) :
    s.WordsIn (wordsAt area image) := by
  have hengine := h.1.1
  unfold State.EngineAreasWF at hengine
  rw [hstep] at hengine
  exact State.inWindow_wordsAt hengine.2.1

theorem State.HandsWF.engineWrites_in (h : s.HandsWF) : s.WordsIn s.engineWrites := by
  unfold State.engineWrites
  split
  next area image hstep => exact h.image_in hstep
  next results code detail hstep => exact h.terminationWrites_in hstep
  all_goals nofun

theorem State.wordsIn_taken {block : Nat} (h : s.inWindow block 16 = true) : s.WordsIn (takenWrites block) :=
  State.wordsIn_singleton (State.inWindow_mono h (by omega))

theorem State.headerFits_in {block : Nat} (h : s.headerFits block = true) : s.inWindow block 16 = true :=
  (Bool.and_eq_true_iff.mp h).2

theorem State.HandsWF.resetEngineWrites_in (h : s.HandsWF) : s.WordsIn s.resetEngineWrites := by
  unfold State.resetEngineWrites
  split
  next got hstep =>
    dsimp only
    split
    next hfits =>
      split
      · split
        · exact State.wordsIn_taken (State.headerFits_in (Bool.and_eq_true_iff.mp hfits).1)
        · nofun
      · nofun
    next => nofun
  next o hstep => exact State.wordsIn_taken (h.taken_released hstep).block
  next => exact h.engineWrites_in

theorem State.HandsWF.resetExchangeWrites_in (h : s.HandsWF) : s.WordsIn s.resetExchangeWrites := by
  unfold State.resetExchangeWrites
  split
  next e he =>
    split
    next area image hphase => exact State.inWindow_wordsAt ((h.1.2.1 e he).2.2 area image hphase).1
    all_goals nofun
  next => nofun

theorem State.isPage_in {a b : Nat} (h : s.isPage a = true) (hb : b + 4 ≤ a + 1024) : s.inWindow b 4 = true :=
  State.inWindow_mono (Bool.and_eq_true_iff.mp h).2 hb

theorem State.claimWrites_in {page : Nat} (h : s.isPage page = true) : s.WordsIn (s.claimWrites page) := by
  intro p hp
  obtain ⟨k, hk, he⟩ := wordsAt_addr page _ p hp
  have hk' : k < 4 := hk
  exact State.isPage_in h (by omega)

/-- A record's words lie in the record area of the page that it fits, its count in the header (R157). -/
theorem State.recordWrites_in {p : OpenPage} {r : TakeRecord} (hpage : s.isPage p.addr = true) (hfits : p.fits r = true) :
    s.WordsIn (recordWrites p r) := by
  have hlen : p.used + r.length ≤ 252 := of_decide_eq_true hfits
  intro q hq
  rcases List.mem_append.mp hq with hq | hq
  · obtain ⟨k, hk, he⟩ := wordsAt_addr _ _ q hq
    rw [TakeRecord.words_length] at hk
    exact State.isPage_in hpage (by omega)
  · rw [List.mem_singleton.mp hq]
    exact State.isPage_in hpage (by show p.addr + 8 + 4 ≤ _; omega)

theorem State.HandsWF.recordWrites_in (h : s.HandsWF) {made : Nat} (hact : s.pw.activity = .writing made) {p : OpenPage}
    (hpage : s.pw.page = some p) {r : TakeRecord} {rest : List TakeRecord} (hqueue : s.lu.queue = r :: rest) :
    s.WordsIn (recordWrites p r) := by
  obtain ⟨⟨-, hopen⟩, p', r', rest', hpage', hqueue', hfits, -⟩ := (State.pageAreas_writing hact).mp h.1.2.2
  obtain rfl : p = p' := Option.some.inj (hpage.symm.trans hpage')
  obtain ⟨rfl, rfl⟩ : r = r' ∧ rest = rest' := List.cons.inj (hqueue.symm.trans hqueue')
  exact State.recordWrites_in (hopen p hpage).1 hfits

theorem State.WordsIn.drop {ws : List (Nat × Word)} (h : s.WordsIn ws) (n : Nat) : s.WordsIn (ws.drop n) :=
  fun p hp => h p (List.mem_of_mem_drop hp)

theorem State.recordWordsLeft_in {p : OpenPage} {r : TakeRecord} (h : s.WordsIn (recordWrites p r)) (made : Nat) :
    s.WordsIn (recordWordsLeft p r made) :=
  State.WordsIn.drop (fun q hq => h q (List.mem_append_left _ hq)) made

theorem State.HandsWF.closeWrites_in (h : s.HandsWF) {p : OpenPage} (hpage : s.pw.page = some p) :
    s.WordsIn (closeWrites p) :=
  State.wordsIn_singleton (State.isPage_in (h.1.2.2.2.1 p hpage).1 (by omega))

theorem State.HandsWF.resetPageWrites_in (h : s.HandsWF) : s.WordsIn s.resetPageWrites := by
  unfold State.resetPageWrites
  split
  next page b hact =>
    split
    · exact State.claimWrites_in ((State.pageAreas_claiming hact).mp h.1.2.2).2.1
    · nofun
  next made p hact hpage =>
    split
    next r rest hqueue => exact (h.recordWrites_in hact hpage hqueue).drop made
    next => nofun
  next p _ hpage => exact h.closeWrites_in hpage
  next => nofun

theorem State.HandsWF.clearAreas_in (h : s.HandsWF) : ∀ a ∈ s.clearAreas, s.inWindow a 4 = true := by
  intro a ha
  rcases List.mem_append.mp ha with ha | ha
  · exact h.engineWrites_in.addresses a ha
  · split at ha
    next made p r rest hact hpage hqueue =>
      exact (State.recordWordsLeft_in (h.recordWrites_in hact hpage hqueue) made).addresses a ha
    next => cases ha

/-! ## Every command answers -/

theorem State.WordsIn.answers {ws : List (Nat × Word)} (h : s.WordsIn ws) (t : State) :
    ∃ u, s.guarded (ws.map Prod.fst) t = .next u :=
  ⟨t, s.guarded_next t _ h.addresses⟩

theorem State.HandsWF.orderHeadWrite_answers (h : s.HandsWF) (v : Word) : ∃ u, s.orderHeadWrite v = .next u := by
  unfold State.orderHeadWrite
  split_ifs
  · exact ⟨_, s.guarded_next _ _ h.clearAreas_in⟩
  all_goals exact ⟨_, rfl⟩

theorem State.HandsWF.terminationWritten_answers (h : s.HandsWF) : ∃ u, execTerminationWritten s = .next u := by
  unfold execTerminationWritten
  split
  next results code detail hstep => exact (h.terminationWrites_in hstep).answers _
  next => exact ⟨_, rfl⟩

theorem State.HandsWF.linkRead_answers (h : s.HandsWF) : ∃ u, execLinkRead s = .next u := by
  unfold execLinkRead
  split
  next code hstep =>
    refine ⟨_, s.guarded_next _ _ fun a ha => ?_⟩
    have hblock := (h.released (by simp [hstep]) (by simp [hstep]) (by simp [hstep])).block
    rw [List.mem_singleton.mp ha]
    unfold linkAddress
    split <;> exact State.inWindow_mono hblock (by omega)
  next => exact ⟨_, rfl⟩

theorem State.HandsWF.snapshotWritten_answers (h : s.HandsWF) : ∃ u, execSnapshotWritten s = .next u := by
  unfold execSnapshotWritten
  split
  next area image hstep => exact (h.image_in hstep).answers _
  next => exact ⟨_, rfl⟩

theorem State.HandsWF.exchangeReadDone_answers (h : s.HandsWF) : ∃ u, execExchangeReadDone s = .next u := by
  unfold execExchangeReadDone
  split
  next e he =>
    split
    · refine ⟨_, s.guarded_next _ _ fun a ha => ?_⟩
      have hpackage := (h.1.2.1 e he).1
      rcases List.mem_cons.mp ha with rfl | ha
      · exact State.inWindow_mono hpackage (by omega)
      · rw [List.mem_singleton.mp ha]
        exact State.inWindow_mono hpackage (by omega)
    all_goals exact ⟨_, rfl⟩
  next => exact ⟨_, rfl⟩

theorem State.HandsWF.exchangeWriteDone_answers (h : s.HandsWF) : ∃ u, execExchangeWriteDone s = .next u := by
  unfold execExchangeWriteDone
  split
  next e he =>
    split
    next area image hphase =>
      exact State.WordsIn.answers (State.inWindow_wordsAt ((h.1.2.1 e he).2.2 area image hphase).1) _
    all_goals exact ⟨_, rfl⟩
  next => exact ⟨_, rfl⟩

theorem State.HandsWF.pageClaim_answers (h : s.HandsWF) : ∃ u, execPageClaim s = .next u := by
  unfold execPageClaim
  split
  next page b hact =>
    have hpage := ((State.pageAreas_claiming hact).mp h.1.2.2).2.1
    refine ⟨_, s.guarded_next _ _ fun a ha => ?_⟩
    rcases List.mem_cons.mp ha with rfl | ha
    · exact State.isPage_in hpage (by omega)
    · rw [List.mem_singleton.mp ha]
      exact State.isPage_in hpage (by omega)
  next => exact ⟨_, rfl⟩

theorem State.HandsWF.recordWritten_answers (h : s.HandsWF) : ∃ u, execRecordWritten s = .next u := by
  unfold execRecordWritten
  split
  next made p r rest hact hpage hqueue => exact ((h.recordWrites_in hact hpage hqueue).drop made).answers _
  next => exact ⟨_, rfl⟩

theorem State.HandsWF.pageCloseDone_answers (h : s.HandsWF) : ∃ u, execPageCloseDone s = .next u := by
  unfold execPageCloseDone
  split
  next why b p hact hpage => exact (h.closeWrites_in hpage).answers _
  next => exact ⟨_, rfl⟩

theorem State.HandsWF.reset_answers (h : s.HandsWF) (a b : Bool) : ∃ u, execReset a b s = .next u := by
  have hall : s.WordsIn (s.resetEngineWrites ++ s.resetExchangeWrites ++ s.resetPageWrites) := fun p hp => by
    rcases List.mem_append.mp hp with hp | hp
    · rcases List.mem_append.mp hp with hp | hp
      · exact h.resetEngineWrites_in p hp
      · exact h.resetExchangeWrites_in p hp
    · exact h.resetPageWrites_in p hp
  exact hall.answers _

/-- With what the part has in hand in the window, no command is refused or faults. -/
theorem State.HandsWF.exec_answers (h : s.HandsWF) (c : Instr) : ∃ u, exec c s = .next u := by
  cases c with
  | reset a b => exact h.reset_answers a b
  | chainStart v => exact h.orderHeadWrite_answers v
  | returnToIdle => exact h.orderHeadWrite_answers 0
  | abort => exact h.orderHeadWrite_answers 1
  | engineClear => exact h.orderHeadWrite_answers 2
  | refusedOrderHeadWrite v => exact h.orderHeadWrite_answers v
  | terminationWritten => exact h.terminationWritten_answers
  | linkRead => exact h.linkRead_answers
  | snapshotWritten => exact h.snapshotWritten_answers
  | exchangeReadDone => exact h.exchangeReadDone_answers
  | exchangeWriteDone => exact h.exchangeWriteDone_answers
  | pageClaim => exact h.pageClaim_answers
  | recordWritten => exact h.recordWritten_answers
  | pageCloseDone => exact h.pageCloseDone_answers
  | orderFetch => simp only [exec, execOrderFetch]; split <;> exact ⟨_, rfl⟩
  | channelEdge k => simp only [exec, execChannelEdge]; split <;> exact ⟨_, rfl⟩
  | channelArmedStart k => simp only [exec, execChannelArmedStart]; split <;> exact ⟨_, rfl⟩
  | pulseEnd k => simp only [exec, execPulseEnd]; split <;> exact ⟨_, rfl⟩
  | nextTurn => simp only [exec, execNextTurn]; split <;> exact ⟨_, rfl⟩
  | setTurnEnd => simp only [exec, execSetTurnEnd]; split <;> exact ⟨_, rfl⟩
  | answerWindowOpen => simp only [exec, execAnswerWindowOpen]; split <;> exact ⟨_, rfl⟩
  | answerStart => simp only [exec, execAnswerStart]; split <;> exact ⟨_, rfl⟩
  | answerEnd chars => simp only [exec, execAnswerEnd]; split <;> exact ⟨_, rfl⟩
  | quietLine chars => simp only [exec, execQuietLine]; split <;> exact ⟨_, rfl⟩
  | answerWindowClose => simp only [exec, execAnswerWindowClose]; split <;> exact ⟨_, rfl⟩
  | _ => exact ⟨_, rfl⟩

/-! ## No byte past the window -/

theorem State.fetched_within (s : State) (got : List Word) : Memory.Within s.windowSize s.mem (s.fetched got).mem := by
  unfold State.fetched
  dsimp only
  split
  next hfits =>
    split
    · exact .refl _ _
    · split
      · exact Memory.within_writeAll (State.wordsIn_taken (State.headerFits_in hfits)).le s.mem
      · exact .refl _ _
  next => exact .refl _ _

theorem State.terminated_within {ws : List (Nat × Word)} (h : s.WordsIn ws) (code : Result) :
    Memory.Within s.windowSize s.mem (s.terminated ws code).mem := by
  unfold State.terminated
  dsimp only
  split <;> exact Memory.within_writeAll h.le s.mem

theorem State.cutEngine_within (h : s.HandsWF) : Memory.Within s.windowSize s.mem s.cutEngine.mem := by
  unfold State.cutEngine
  split
  · exact .refl _ _
  · exact Memory.within_writeFirst h.engineWrites_in.le s.mem _

theorem State.cutRecord_within {p : OpenPage} {r : TakeRecord} {made : Nat} (h : s.WordsIn (recordWordsLeft p r made)) :
    Memory.Within s.windowSize s.mem (s.cutRecord p r made).mem := by
  unfold State.cutRecord
  split
  · exact .refl _ _
  · exact Memory.within_writeFirst h.le s.mem _

theorem State.pageWriterClear_within (h : s.PageAreasWF) : Memory.Within s.windowSize s.mem s.pageWriterClear.mem := by
  unfold State.pageWriterClear
  dsimp only
  split
  case h_5 made p hact hpage =>
    split
    next r rest hqueue =>
      obtain ⟨⟨-, hopen⟩, p', r', rest', hpage', hqueue', hfits, -⟩ := (State.pageAreas_writing hact).mp h
      obtain rfl : p = p' := Option.some.inj (hpage.symm.trans hpage')
      obtain ⟨rfl, rfl⟩ : r = r' ∧ rest = rest' := List.cons.inj (hqueue.symm.trans hqueue')
      exact State.cutRecord_within (s := { s with pw := { s.pw with stock := [], flush := none } })
        (State.recordWordsLeft_in (s := s) (State.recordWrites_in (hopen p hpage).1 hfits) made)
    next => exact .refl _ _
  all_goals exact .refl _ _

theorem State.clearEngine_within (h : s.HandsWF) : Memory.Within s.windowSize s.mem s.clearEngine.mem := by
  have hcut := State.cutEngine_within h
  obtain ⟨mem, free, he⟩ := s.cutEngine_eq
  rw [he] at hcut
  unfold State.clearEngine
  rw [he]
  obtain ⟨hpages, -⟩ := (h.memory mem free).dropKept
  have hclear := State.pageWriterClear_within (s := { State.dropKept { s with mem := mem, free := free } with
    oe := (State.dropKept { s with mem := mem, free := free }).oe.cleared }) (hpages.congr rfl rfl rfl rfl rfl)
  refine hcut.trans ?_
  have hsize : State.windowSize { State.dropKept { s with mem := mem, free := free } with
      oe := (State.dropKept { s with mem := mem, free := free }).oe.cleared } = s.windowSize := by
    simp [State.windowSize]
  rw [hsize] at hclear
  simpa using hclear

theorem CommandEffect.within {c : Instr} (h : CommandEffect s c t) (hs : s.HandsWF) :
    Memory.Within s.windowSize s.mem t.mem := by
  cases h with
  | orderFetch got => exact s.fetched_within got
  | terminationWritten results code detail _ hin => exact State.terminated_within hin code
  | snapshotWritten area image _ hin => exact Memory.within_writeAll (State.WordsIn.le hin) s.mem
  | exchangeWritten e area image _ _ hin =>
    have hw := Memory.within_writeAll (State.WordsIn.le hin) s.mem
    simpa using hw
  | engineClear => exact State.clearEngine_within hs
  | claimEmpty page cleared hact =>
    have hw := Memory.within_writeAll
      (State.claimWrites_in ((State.pageAreas_claiming hact).mp hs.1.2.2).2.1).le s.mem
    unfold State.claimEmpty
    dsimp only
    split <;> simpa using hw
  | recordWritten made p r rest _ _ _ hin =>
    have hw := Memory.within_writeAll (State.WordsIn.le hin) s.mem
    simpa [State.recordDone] using hw
  | pageClosed why cleared p hact hpage =>
    have hw := Memory.within_writeAll (hs.closeWrites_in hpage).le s.mem
    simpa [State.closeDone] using hw
  | _ => exact .of_eq (by simp)

@[simp] theorem State.cutByReset_straps (s : State) (ws : List (Nat × Word)) : (s.cutByReset ws).straps = s.straps := by
  unfold State.cutByReset
  split <;> rfl

theorem State.within_cutByReset {ws : List (Nat × Word)} (h : s.WordsIn ws) :
    Memory.Within s.windowSize s.mem (s.cutByReset ws).mem := by
  unfold State.cutByReset
  split
  · exact .refl _ _
  · exact Memory.within_writeCut h.le s.mem _ _

theorem State.WordsIn.congr {ws : List (Nat × Word)} (h : s.WordsIn ws) (hstraps : t.straps = s.straps) :
    t.WordsIn ws := fun p hp => by
  rw [State.inWindow_congr hstraps]
  exact h p hp

theorem State.HandsWF.reset_within (h : s.HandsWF) {a b : Bool} (hexec : exec (.reset a b) s = .next t) :
    Memory.Within s.windowSize s.mem t.mem := by
  rw [State.guarded_eq_next _ _ _ _ hexec]
  generalize h1 : s.cutByReset s.resetEngineWrites = s1
  generalize h2 : s1.cutByReset s.resetExchangeWrites = s2
  have hstraps1 : s1.straps = s.straps := by simp [← h1]
  have hstraps2 : s2.straps = s.straps := by simp [← h2, hstraps1]
  have hsize {u : State} (hu : u.straps = s.straps) : u.windowSize = s.windowSize := by simp [State.windowSize, hu]
  have hengine := State.within_cutByReset h.resetEngineWrites_in
  have hexchange := State.within_cutByReset (h.resetExchangeWrites_in.congr hstraps1)
  have hpage := State.within_cutByReset (h.resetPageWrites_in.congr hstraps2)
  rw [h1] at hengine
  rw [h2, hsize hstraps1] at hexchange
  rw [hsize hstraps2] at hpage
  exact (hengine.trans hexchange).trans hpage

theorem State.within_writeWord {a : Nat} (h : s.inWindow a 4 = true) (w : Word) :
    Memory.Within s.windowSize s.mem (Memory.writeWord s.mem a w) :=
  Memory.within_writeAll (State.wordsIn_singleton (w := w) h).le s.mem

theorem State.wordAccesses_within (ht : t ∈ s.wordAccesses) : Memory.Within s.windowSize s.mem t.mem := by
  rcases (s.mem_wordAccesses t).mp ht with hw | hw | hw
  · rcases s.engineWord_some t hw with ⟨_, _, _, -, rfl⟩ | ⟨_, _, _, _, -, hin, rfl⟩ | ⟨_, _, _, _, -, hin, rfl⟩
    · exact .refl _ _
    · exact State.within_writeWord hin _
    · exact State.within_writeWord hin _
  · rcases s.exchangeWord_some t hw with ⟨_, _, -, -, -, rfl⟩ | ⟨_, _, _, _, _, -, -, hin, rfl⟩
    · exact .refl _ _
    · exact State.within_writeWord hin _
  · obtain ⟨_, _, _, _, _, _, _, -, -, -, -, hin, rfl⟩ := s.recordWord_some t hw
    exact State.within_writeWord hin _

theorem State.wordAccess_within (s : State) : Memory.Within s.windowSize s.mem s.wordAccess.mem := by
  rcases s.wordAccess_cases with ⟨-, he⟩ | ⟨t, ht, he | he⟩ <;> rw [he]
  · exact .refl _ _
  · exact State.wordAccesses_within ht
  · exact State.wordAccesses_within (t := t) ht

/-- Every step answers, keeps what is in hand in order, and changes no byte past the window. -/
theorem State.HandsWF.step (h : s.HandsWF) :
    ∃ t, step s = .next t ∧ t.HandsWF ∧ Memory.Within s.windowSize s.mem t.mem := by
  have hanswers : ∃ t, Machine.step s = .next t := by
    unfold Machine.step
    split
    · exact ⟨_, rfl⟩
    next c rest _ => exact State.HandsWF.exec_answers (s := { s with pending := rest }) h c
  obtain ⟨t, ht⟩ := hanswers
  refine ⟨t, ht, ?_⟩
  rcases step_cases ht with rfl | ⟨a, b, rest, hexec⟩ | ⟨c, rest, heffect⟩
  · exact ⟨h.wordAccess, s.wordAccess_within⟩
  · refine ⟨?_, State.HandsWF.reset_within (s := { s with pending := rest }) h hexec⟩
    rw [exec_reset_answer hexec]
    exact State.reset_hands _ _ _ _
  · have hrest : State.HandsWF { s with pending := rest } := h
    exact ⟨heffect.hands hrest, heffect.within hrest⟩

end

/-- Settles O60: what is in hand stays in hand, and the words that may still be written lie in the window. -/
theorem noStepLeavesTheWindow : Obligations.NoStepLeavesTheWindow := by
  unfold Obligations.NoStepLeavesTheWindow
  intro s hmem hareas hkept
  obtain ⟨t, ht, ⟨hareas', hkept'⟩, hwithin⟩ := State.HandsWF.step ⟨hareas, hkept⟩
  obtain ⟨hmem', hread⟩ := hwithin hmem
  exact ⟨t, ht, hmem', hareas', hkept', hread⟩

end Sys2Proof.Machine
end

section
/-! Differences across midnight (R35), the check of telegrams and the levels on the pair (R68, R69), the choice of a turn
(R81 to R84). -/

namespace Sys2Proof.Machine

/-! ## Differences across midnight (R35) -/

/-- The signed difference is the remainder, less the day when it is more than half of it. -/
theorem labelDiff_cases (half : Nat) (a b : Int) :
    ((a - b) % (2 * half : Int) ≤ half ∧ labelDiff (2 * half) a b = (a - b) % (2 * half : Int)) ∨
    ((half : Int) < (a - b) % (2 * half : Int) ∧ labelDiff (2 * half) a b = (a - b) % (2 * half : Int) - 2 * half) := by
  unfold labelDiff
  push_cast
  split <;> omega

/-- The remainders of a difference and of its negative make up a day, or are both 0. -/
theorem emod_swap {day : Int} (hday : 0 < day) (a b : Int) :
    (a - b) % day = 0 ∧ (b - a) % day = 0 ∨ (a - b) % day + (b - a) % day = day := by
  have h1 := Int.emod_add_mul_ediv (a - b) day
  have h2 := Int.emod_add_mul_ediv (b - a) day
  have hlow := Int.emod_nonneg (a - b) hday.ne'
  have hlow' := Int.emod_nonneg (b - a) hday.ne'
  have hhigh := Int.emod_lt_of_pos (a - b) hday
  have hhigh' := Int.emod_lt_of_pos (b - a) hday
  have hsum : (a - b) % day + (b - a) % day = day * (-((a - b) / day) - (b - a) / day) := by linarith
  rcases lt_trichotomy (-((a - b) / day) - (b - a) / day) 1 with h | h | h
  · have : day * (-((a - b) / day) - (b - a) / day) ≤ 0 := Int.mul_nonpos_of_nonneg_of_nonpos hday.le (by omega)
    omega
  · rw [h] at hsum
    omega
  · have : day * 2 ≤ day * (-((a - b) / day) - (b - a) / day) := Int.mul_le_mul_of_nonneg_left h hday.le
    omega

/-- Settles O18: the two ways round are remainders that make up a day. -/
theorem signedDifference : Obligations.SignedDifference := by
  unfold Obligations.SignedDifference
  refine ⟨by decide, fun half a b hhalf => ?_, by decide, by decide⟩
  have hday : (0 : Int) < 2 * half := by omega
  have hlow := Int.emod_nonneg (a - b) hday.ne'
  have hhigh := Int.emod_lt_of_pos (a - b) hday
  have hdiv := Int.emod_add_mul_ediv (a - b) (2 * half)
  have hswap := emod_swap hday a b
  dsimp only
  rcases labelDiff_cases half a b with ⟨hle, he⟩ | ⟨hlt, he⟩ <;>
    rcases labelDiff_cases half b a with ⟨hle', he'⟩ | ⟨hlt', he'⟩ <;> rw [he, he']
  · exact ⟨by omega, by omega, ⟨-((a - b) / (2 * half)), by linarith⟩, by omega, by omega⟩
  · exact ⟨by omega, by omega, ⟨-((a - b) / (2 * half)), by linarith⟩, by omega, by omega⟩
  · exact ⟨by omega, by omega, ⟨-((a - b) / (2 * half)) - 1, by linarith⟩, by omega, by omega⟩
  · exact ⟨by omega, by omega, ⟨-((a - b) / (2 * half)) - 1, by linarith⟩, by omega, by omega⟩

/-! ## Telegrams (R69) -/

/-- A character equal to the register's value brings it to 0. -/
theorem crcByte_self (r : Byte) : crcByte r r = 0 := by
  simp only [crcByte, BitVec.xor_self]
  decide

theorem crc8_append (cs : List Byte) (c : Byte) : crc8 (cs ++ [c]) = crcByte (crc8 cs) c := by
  rw [crc8, List.foldl_append, List.foldl_cons, List.foldl_nil, crc8]

/-- One shift of the register, in bits: what is shifted out decides on the feedback (R69). -/
theorem crcShift_eq (r : Byte) : crcShift r = (r <<< 1) ^^^ (if r.getLsbD 7 then 0x07 else 0) := by
  have hmsb : r.getLsbD 7 = decide (128 ≤ r.toNat) := BitVec.msb_eq_decide r
  have hdouble : BitVec.ofNat 8 (2 * r.toNat) = r <<< 1 := by
    apply BitVec.eq_of_toNat_eq
    rw [BitVec.toNat_ofNat, BitVec.toNat_shiftLeft, Nat.shiftLeft_eq, Nat.mul_comm]
  unfold crcShift
  rw [hmsb, hdouble]
  by_cases h : r.toNat < 128
  · rw [if_pos h, if_neg (by simpa using h)]
    exact (BitVec.xor_zero).symm
  · rw [if_neg h, if_pos (by simpa using h)]

theorem crcByte_eq_iterate (r c : Byte) : crcByte r c = crcShift^[8] (r ^^^ c) := by
  simp only [crcByte, Function.iterate_succ, Function.iterate_zero, Function.comp_apply, id]

theorem checkGood_telegram (cs : List Byte) : checkGood ((telegram cs).map (fun v => { value := v })) = true := by
  have hlast : (syncChar :: (cs ++ [crc8 cs])).getLast? = some (crc8 cs) := by
    rw [← List.cons_append, List.getLast?_concat]
  simp [checkGood, telegram, Function.comp_def, hlast]

/-! ## Levels on the pair (R68) -/

theorem charFrame_length (c : Byte) : (charFrame c).length = 10 := rfl

/-- The levels that stand one after another, each part as long as the others. -/
theorem flatMap_getElem? {α β : Type} {f : α → List β} {n : Nat} (hf : ∀ a, (f a).length = n) (hn : 0 < n) (l : List α)
    (k : Nat) : (l.flatMap f)[k]? = l[k / n]?.bind fun a => (f a)[k % n]? := by
  induction l generalizing k with
  | nil => simp
  | cons a l ih =>
    rw [List.flatMap_cons]
    by_cases hk : k < n
    · rw [List.getElem?_append_left (by rw [hf]; exact hk), Nat.div_eq_of_lt hk, Nat.mod_eq_of_lt hk]
      rfl
    · rw [List.getElem?_append_right (by rw [hf]; omega), hf, ih, Nat.mod_eq_sub_mod (by omega : n ≤ k),
        Nat.div_eq_sub_div hn (by omega : n ≤ k)]
      rfl

theorem telegramLevels_length (chars : List Byte) : (telegramLevels chars).length = 10 * chars.length :=
  flatMap_length_const charFrame charFrame_length chars

theorem State.pairLevel_sending {s : State} (h : s.lc.phase = .sendingSet ∨ s.lc.phase = .sendingCall) :
    s.pairLevel = (telegramLevels s.lc.tx)[s.lc.timer / 27]? := by
  unfold State.pairLevel
  rcases h with h | h <;> rw [h] <;> rfl

theorem State.pairLevel_silent {s : State} (hset : s.lc.phase ≠ .sendingSet) (hcall : s.lc.phase ≠ .sendingCall) :
    s.pairLevel = none := by
  unfold State.pairLevel
  cases hp : s.lc.phase with
  | sendingSet => exact absurd hp hset
  | sendingCall => exact absurd hp hcall
  | _ => rfl

/-- The character that the ten levels of a character give, its stop bit as received. -/
theorem receivedChar_frame (c : Byte) (stop : Bool) : receivedChar ((charFrame c).take 9 ++ [stop]) = ⟨c, !stop⟩ := by
  have hvalue : (receivedChar ((charFrame c).take 9 ++ [stop])).value = c := by
    apply BitVec.eq_of_getLsbD_eq
    intro i hi
    have hbit : ((List.range 8).map fun k => ((charFrame c).take 9 ++ [stop]).getD (k + 1) false).getD i false =
        c.getLsbD i := by
      interval_cases i <;> rfl
    rw [receivedChar, BitVec.getLsbD_setWidth, BitVec.getLsbD_ofBoolListLE, hbit, decide_eq_true hi, Bool.true_and]
  calc receivedChar ((charFrame c).take 9 ++ [stop])
      = ⟨(receivedChar ((charFrame c).take 9 ++ [stop])).value, !stop⟩ := rfl
    _ = ⟨c, !stop⟩ := by rw [hvalue]

/-- Settles O19, from the check's append law and the index of a level in its telegram. -/
theorem telegramCheck : Obligations.TelegramCheck := by
  unfold Obligations.TelegramCheck
  refine ⟨fun cs => ?_, fun cs => ⟨rfl, checkGood_telegram cs⟩, fun c => rfl, fun s hphase => ⟨fun hlt => ?_, fun hle => ?_⟩,
    fun s => State.pairLevel_silent, fun s => Option.isSome_iff_ne_none, fun c => receivedChar_frame c true,
    receivedChar_frame, ⟨rfl, fun cs c => ?_⟩, fun cs => rfl⟩
  · rw [crc8_append, crcByte_self]
  · have hchar : s.lc.timer / 270 < s.lc.tx.length := Nat.div_lt_of_lt_mul hlt
    have hbit : s.lc.timer % 270 / 27 < (charFrame s.lc.tx[s.lc.timer / 270]).length := by
      rw [charFrame_length]
      omega
    rw [State.pairLevel_sending hphase, telegramLevels, flatMap_getElem? charFrame_length (by decide),
      show s.lc.timer / 27 / 10 = s.lc.timer / 270 by omega, show s.lc.timer / 27 % 10 = s.lc.timer % 270 / 27 by omega,
      List.getElem?_eq_getElem hchar, Option.bind_some, List.getElem?_eq_getElem hbit,
      ← List.getElem_eq_getD (h := hchar) 0, ← List.getElem_eq_getD (h := hbit) false]
  · rw [State.pairLevel_sending hphase, List.getElem?_eq_none]
    rw [telegramLevels_length]
    omega
  · rw [crc8_append, crcByte_eq_iterate, funext crcShift_eq]

/-! ## The choice of a turn (R81, R82, R84) -/

theorem Device.callable_iff (d : Device) : d.callable = true ↔ d.state ≠ .empty ∧ d.held = false := by
  simp [Device.callable, Device.occupied]

theorem Device.not_callable_iff (d : Device) : d.callable = false ↔ d.state = .empty ∨ d.held = true := by
  rw [← Bool.not_eq_true, Device.callable_iff]
  cases d.held <;> simp [Classical.or_iff_not_imp_right]

theorem rotationOrder_length (position : Fin 48) : (rotationOrder position).length = 48 := by
  rw [rotationOrder, List.length_map, List.length_finRange]

/-- The slot that a rotation search visits after `k` others. -/
theorem rotationOrder_getElem (position : Fin 48) {k : Nat} (hk : k < (rotationOrder position).length) :
    ((rotationOrder position)[k]).val = (position.val + 1 + k) % 48 := by
  have hk' : k < 48 := rotationOrder_length position ▸ hk
  simp only [rotationOrder, List.getElem_map, List.getElem_finRange, Fin.val_add, Fin.val_cast]
  show ((position.val + k) % 48 + 1) % 48 = _
  omega

/-- Every slot is visited. -/
theorem mem_rotationOrder (position i : Fin 48) : i ∈ rotationOrder position := by
  refine List.mem_map.mpr ⟨i - position - 1, List.mem_finRange _, ?_⟩
  omega

theorem State.rotationCandidate_eq_some_iff (s : State) (i : Fin 48) :
    s.rotationCandidate = some i ↔
      ∃ k : Nat, k < 48 ∧ i.val = (s.lc.rotation.val + 1 + k) % 48 ∧ (s.slot i).state ≠ .empty ∧ (s.slot i).held = false ∧
        ∀ (m : Nat) (j : Fin 48), m < k → j.val = (s.lc.rotation.val + 1 + m) % 48 →
          (s.slot j).state = .empty ∨ (s.slot j).held = true := by
  have hlen := rotationOrder_length s.lc.rotation
  rw [State.rotationCandidate, List.find?_eq_some_iff_getElem, Device.callable_iff]
  constructor
  · rintro ⟨⟨hstate, hheld⟩, k, hk, he, hbefore⟩
    refine ⟨k, hlen ▸ hk, ?_, hstate, hheld, fun m j hm hj => ?_⟩
    · rw [← he, rotationOrder_getElem]
    · have hj' : (rotationOrder s.lc.rotation)[m] = j := Fin.ext (by rw [rotationOrder_getElem, hj])
      have := hbefore m hm
      rw [hj'] at this
      exact (Device.not_callable_iff _).mp (by simpa using this)
  · rintro ⟨k, hk, hi, hstate, hheld, hbefore⟩
    rw [← hlen] at hk
    refine ⟨⟨hstate, hheld⟩, k, hk, Fin.ext (by rw [rotationOrder_getElem, hi]), fun m hm => ?_⟩
    have := (Device.not_callable_iff _).mpr (hbefore m (rotationOrder s.lc.rotation)[m] hm (rotationOrder_getElem _ _))
    simp [this]

theorem State.rotationCandidate_eq_none_iff (s : State) :
    s.rotationCandidate = none ↔ ∀ i : Fin 48, (s.slot i).state = .empty ∨ (s.slot i).held = true := by
  rw [State.rotationCandidate, List.find?_eq_none]
  constructor
  · intro h i
    exact (Device.not_callable_iff _).mp (by simpa using h i (mem_rotationOrder _ i))
  · intro h i _
    simp [(Device.not_callable_iff _).mpr (h i)]

theorem State.urgentCandidate_eq_some_iff (s : State) (i : Fin 48) :
    s.urgentCandidate = some i ↔
      ∃ before after : List (Fin 48), s.lc.urgent = before ++ i :: after ∧ (s.slot i).held = false ∧
        ∀ j ∈ before, (s.slot j).held = true := by
  rw [State.urgentCandidate, List.find?_eq_some_iff_append]
  constructor
  · rintro ⟨hi, before, after, he, hbefore⟩
    exact ⟨before, after, he, by simpa using hi, fun j hj => by simpa using hbefore j hj⟩
  · rintro ⟨before, after, he, hi, hbefore⟩
    exact ⟨by simpa using hi, before, after, he, fun j hj => by simpa using hbefore j hj⟩

theorem State.inUrgentService_iff (s : State) (i : Fin 48) :
    s.inUrgentService i = true ↔ ∃ t, s.lc.turn = some t ∧ t.slot = i ∧ t.urgent = true := by
  unfold State.inUrgentService
  split
  next t ht => simp [ht, and_comm]
  next ht => simp [ht]

theorem State.urgentInsert_eq (s : State) (i : Fin 48) :
    (i ∈ s.lc.urgent ∨ s.inUrgentService i = true → s.urgentInsert i = s) ∧
    (i ∉ s.lc.urgent → ¬s.inUrgentService i = true →
      s.urgentInsert i = { s with lc := { s.lc with urgent := s.lc.urgent ++ [i] } }) := by
  unfold State.urgentInsert
  constructor
  · intro h
    exact if_pos (by simpa using h)
  · intro hq hserved
    exact if_neg (by simp [hq, hserved])

/-- Settles O28: the searches are characterised by the list searches they are. -/
theorem rotationSearch : Obligations.RotationSearch := by
  unfold Obligations.RotationSearch
  refine ⟨State.rotationCandidate_eq_some_iff, State.rotationCandidate_eq_none_iff, State.urgentCandidate_eq_some_iff,
    fun s u hu hno => ?_, fun s r hr hno => ?_, fun s hu hr => ?_, fun s i => ?_⟩
  · unfold State.nextTurnChoice
    rcases hno with hflag | hr
    · cases hr : s.rotationCandidate <;> simp [hu, hflag]
    · simp [hu, hr]
  · unfold State.nextTurnChoice
    rcases hno with hflag | hu
    · cases hu : s.urgentCandidate <;> simp [hr, hflag]
    · simp [hu, hr]
  · simp [State.nextTurnChoice, hu, hr]
  · simp only [← State.inUrgentService_iff]
    exact s.urgentInsert_eq i

end Sys2Proof.Machine
end

section
/-! A REPORT reads back field for field, and one changed character is always found (R69, R72 to R74, R195). -/

namespace Sys2Proof.Machine

/-! ## The check finds one changed character (R69) -/

/-- The bit shifted out stands in bit 0 of the register after a shift. -/
theorem crcShift_bit_zero (r : Byte) : (crcShift r).getLsbD 0 = r.getLsbD 7 := by
  rw [crcShift_eq, BitVec.getLsbD_xor, BitVec.getLsbD_shiftLeft]
  cases r.getLsbD 7 <;> rfl

theorem crcShift_injective : Function.Injective crcShift := by
  intro r r' h
  have htop : r.getLsbD 7 = r'.getLsbD 7 := by rw [← crcShift_bit_zero, ← crcShift_bit_zero, h]
  rw [crcShift_eq, crcShift_eq, htop] at h
  have hshift : r <<< 1 = r' <<< 1 := (BitVec.xor_left_inj _).mp h
  apply BitVec.eq_of_getLsbD_eq
  intro i hi
  by_cases h7 : i = 7
  · rw [h7, htop]
  · have hbit : (r <<< 1).getLsbD (i + 1) = (r' <<< 1).getLsbD (i + 1) := by rw [hshift]
    have hlt : i + 1 < 8 := by omega
    rw [BitVec.getLsbD_shiftLeft, BitVec.getLsbD_shiftLeft] at hbit
    simpa only [hlt, decide_true, Nat.not_lt_zero, show ¬i + 1 < 1 by omega, decide_false, Bool.not_false, Bool.true_and,
      Nat.add_sub_cancel] using hbit

theorem crcByte_char_injective (r : Byte) : Function.Injective (crcByte r) := by
  intro c c' h
  rw [crcByte_eq_iterate, crcByte_eq_iterate] at h
  exact (BitVec.xor_right_inj _).mp (crcShift_injective.iterate 8 h)

theorem crcByte_register_injective (c : Byte) : Function.Injective fun r => crcByte r c := by
  intro r r' h
  simp only [crcByte_eq_iterate] at h
  exact (BitVec.xor_left_inj _).mp (crcShift_injective.iterate 8 h)

theorem crcFold_injective (cs : List Byte) : Function.Injective fun r => cs.foldl crcByte r := by
  induction cs with
  | nil => exact fun _ _ h => h
  | cons c cs ih =>
    intro r r' h
    simp only [List.foldl_cons] at h
    exact crcByte_register_injective c (ih h)

theorem crcFold_set_ne (cs : List Byte) (r : Byte) (k : Nat) (hk : k < cs.length) (v : Byte) (hv : v ≠ cs[k]) :
    (cs.set k v).foldl crcByte r ≠ cs.foldl crcByte r := by
  induction cs generalizing r k with
  | nil => exact absurd hk (Nat.not_lt_zero k)
  | cons c cs ih =>
    cases k with
    | zero =>
      intro h
      simp only [List.set_cons_zero, List.foldl_cons] at h
      exact hv (crcByte_char_injective r (crcFold_injective cs h))
    | succ k =>
      rw [List.set_cons_succ, List.foldl_cons, List.foldl_cons]
      exact ih (crcByte r c) k (Nat.lt_of_succ_lt_succ hk) hv

/-! ## Characters received -/

/-- A telegram received without error. -/
def receivedTelegram (covered : List Byte) : List RxChar := (telegram covered).map fun v => { value := v }

variable {covered : List Byte}

theorem receivedTelegram_length : (receivedTelegram covered).length = covered.length + 2 := by
  simp [receivedTelegram, telegram]

theorem receivedTelegram_values : (receivedTelegram covered).map RxChar.value = telegram covered := by
  simp [receivedTelegram, Function.comp_def]

theorem receivedTelegram_getElem {n : Nat} (hn : n < (receivedTelegram covered).length) :
    (receivedTelegram covered)[n] = ⟨(telegram covered)[n]'(by simpa [receivedTelegram] using hn), false⟩ := by
  simp [receivedTelegram]

theorem charAt_congr {chars chars' : List RxChar} {i : Nat} (h : chars[i]? = chars'[i]?) :
    charAt chars i = charAt chars' i := by
  simp only [charAt, List.getD_eq_getElem?_getD, List.getElem?_map, h]

theorem charAt_of_getElem? {chars : List RxChar} {i : Nat} {c : RxChar} (h : chars[i]? = some c) :
    charAt chars i = c.value := by
  simp [charAt, List.getD_eq_getElem?_getD, List.getElem?_map, h]

theorem declaredLength_eq {chars : List RxChar} (h : 3 ≤ chars.length) :
    declaredLength chars = (charAt chars 2).toNat % 32 := by
  match chars, h with
  | _ :: _ :: k :: _, _ => rfl

theorem checkGood_of_values {chars : List RxChar} {first check : Byte} (h : chars.map RxChar.value = first :: covered ++ [check]) :
    checkGood chars = (crc8 covered == check) := by
  have hlast : (first :: (covered ++ [check])).getLast? = some check := by
    rw [← List.cons_append, List.getLast?_concat]
  simp [checkGood, h, hlast]

/-- Whatever one character of a telegram is received as, if it is not itself, the tests of the sync character, of the
stop bits or of the check fail. -/
theorem changed_char_found {n : Nat} {c : RxChar} (hn : n < (receivedTelegram covered).length)
    (hc : (receivedTelegram covered)[n]? ≠ some c) :
    charAt ((receivedTelegram covered).set n c) 0 ≠ syncChar ∨
      ((receivedTelegram covered).set n c).any (·.framingError) = true ∨
      checkGood ((receivedTelegram covered).set n c) = false := by
  by_cases hf : c.framingError = true
  · exact .inr (.inl (List.any_eq_true.mpr ⟨c, List.mem_set hn c, hf⟩))
  · rw [List.getElem?_eq_getElem hn, receivedTelegram_getElem hn] at hc
    have hlen := receivedTelegram_length (covered := covered)
    have hvalue : c.value ≠ (telegram covered)[n]'(by simpa [receivedTelegram] using hn) := by
      intro hv
      exact hc (by rw [← hv]; cases c; simp_all)
    have hvalues : ((receivedTelegram covered).set n c).map RxChar.value = (telegram covered).set n c.value := by
      rw [List.map_set, receivedTelegram_values]
    cases n with
    | zero =>
      left
      rw [charAt_of_getElem? (List.getElem?_set_self hn)]
      exact hvalue
    | succ k =>
      refine .inr (.inr ?_)
      have htail : (telegram covered).set (k + 1) c.value = syncChar :: (covered ++ [crc8 covered]).set k c.value := rfl
      by_cases hk : k < covered.length
      · have hne : c.value ≠ covered[k] := by
          simpa [telegram, List.getElem_append_left hk] using hvalue
        rw [htail, List.set_append_left _ _ hk] at hvalues
        rw [checkGood_of_values hvalues, beq_eq_false_iff_ne]
        exact crcFold_set_ne covered 0 k hk c.value hne
      · obtain rfl : k = covered.length := by omega
        have hne : c.value ≠ crc8 covered := by simpa [telegram] using hvalue
        rw [htail, List.set_append_right _ _ le_rfl, Nat.sub_self, List.set_cons_zero] at hvalues
        rw [checkGood_of_values hvalues, beq_eq_false_iff_ne]
        exact hne.symm

/-! ## A REPORT's characters (R195) -/

/-- The six characters of a mark entry, as numbers. -/
def MarkEntry.numbers (m : MarkEntry) : List Nat := [m.kind, m.sub, m.label.hh, m.label.mm, m.label.ss, m.label.ff]

/-- The covered characters of a REPORT (R195). -/
def reportCovered (addr : Nat) (l : Label) (age status : Nat) (marks : List MarkEntry) : List Byte :=
  ([addr, 96 + (10 + 6 * marks.length), l.hh, l.mm, l.ss, l.ff, age, status] ++ marks.flatMap MarkEntry.numbers).map
    (BitVec.ofNat 8)

section

variable {d : Device} {addr age status : Nat} {l : Label} {marks : List MarkEntry}

theorem reportCovered_length : (reportCovered addr l age status marks).length = 8 + 6 * marks.length := by
  rw [reportCovered, List.length_map, List.length_append, flatMap_length_const MarkEntry.numbers (n := 6) fun _ => rfl]
  rfl

theorem receivedReport_length :
    (receivedTelegram (reportCovered addr l age status marks)).length = 10 + 6 * marks.length := by
  rw [receivedTelegram_length, reportCovered_length]
  omega

/-- The characters of the REPORT before its mark entries. -/
theorem charAt_report {i : Nat} (hi : i < 8) :
    charAt (receivedTelegram (reportCovered addr l age status marks)) (i + 1) =
      BitVec.ofNat 8 ([addr, 96 + (10 + 6 * marks.length), l.hh, l.mm, l.ss, l.ff, age, status].getD i 0) := by
  rw [charAt, receivedTelegram_values]
  interval_cases i <;> rfl

/-- The characters of the REPORT's mark entries. -/
theorem charAt_report_mark {j k : Nat} (hj : j < marks.length) (hk : k < 6) :
    charAt (receivedTelegram (reportCovered addr l age status marks)) (9 + 6 * j + k) =
      BitVec.ofNat 8 (marks[j].numbers.getD k 0) := by
  have hlen := flatMap_length_const MarkEntry.numbers (n := 6) (fun _ => rfl) marks
  have hin : 6 * j + k < (marks.flatMap MarkEntry.numbers).length := by omega
  have hflat : (marks.flatMap MarkEntry.numbers)[6 * j + k]? = marks[j].numbers[k]? := by
    rw [flatMap_getElem? (n := 6) (fun _ => rfl) (by decide), show (6 * j + k) / 6 = j by omega,
      show (6 * j + k) % 6 = k by omega, List.getElem?_eq_getElem hj, Option.bind_some]
  have hchar : (telegram (reportCovered addr l age status marks))[9 + 6 * j + k]? =
      ((marks.flatMap MarkEntry.numbers).map (BitVec.ofNat 8))[6 * j + k]? := by
    have hshape : (telegram (reportCovered addr l age status marks))[6 * j + k + 9]? =
        ((marks.flatMap MarkEntry.numbers).map (BitVec.ofNat 8) ++
          [crc8 (reportCovered addr l age status marks)])[6 * j + k]? := rfl
    rw [show 9 + 6 * j + k = 6 * j + k + 9 by omega, hshape,
      List.getElem?_append_left (by rw [List.length_map]; exact hin)]
  rw [charAt, receivedTelegram_values, List.getD_eq_getElem?_getD, hchar, List.getElem?_map, hflat,
    List.getD_eq_getElem?_getD, List.getElem?_eq_getElem (by exact hk)]
  rfl

/-- The characters of a REPORT are bytes (R195). -/
structure ReportFits (addr : Nat) (l : Label) (age status : Nat) (marks : List MarkEntry) : Prop where
  addr : addr ≤ 63
  label : l.hh ≤ 255 ∧ l.mm ≤ 255 ∧ l.ss ≤ 255 ∧ l.ff ≤ 255
  age : age ≤ 255
  status : status ≤ 255
  count : marks.length ≤ 3
  marks : ∀ m ∈ marks, ∀ n ∈ m.numbers, n ≤ 255

theorem toNat_byte {n : Nat} (h : n ≤ 255) : (BitVec.ofNat 8 n).toNat = n := by
  rw [BitVec.toNat_ofNat]
  exact Nat.mod_eq_of_lt (by omega)

variable (h : ReportFits addr l age status marks)
include h

/-- The header characters of a REPORT, read as numbers. -/
theorem ReportFits.header {i : Nat} (hi : i < 8) :
    (charAt (receivedTelegram (reportCovered addr l age status marks)) (i + 1)).toNat =
      [addr, 96 + (10 + 6 * marks.length), l.hh, l.mm, l.ss, l.ff, age, status].getD i 0 := by
  obtain ⟨haddr, ⟨hhh, hmm, hss, hff⟩, hage, hstatus, hcount, -⟩ := h
  rw [charAt_report hi]
  refine toNat_byte ?_
  interval_cases i <;> simp <;> omega

theorem ReportFits.mark {j k : Nat} (hj : j < marks.length) (hk : k < 6) :
    (charAt (receivedTelegram (reportCovered addr l age status marks)) (9 + 6 * j + k)).toNat =
      marks[j].numbers.getD k 0 := by
  rw [charAt_report_mark hj hk]
  refine toNat_byte (h.marks _ (List.getElem_mem hj) _ ?_)
  rw [List.getD_eq_getElem?_getD, List.getElem?_eq_getElem (by exact hk)]
  exact List.getElem_mem _

theorem ReportFits.markEntry {j : Nat} (hj : j < marks.length) :
    markEntryAt (receivedTelegram (reportCovered addr l age status marks)) j = marks[j] := by
  have hread (i k : Nat) (hi : i = 9 + 6 * j + k) (hk : k < 6) :
      (charAt (receivedTelegram (reportCovered addr l age status marks)) i).toNat = marks[j].numbers.getD k 0 :=
    hi ▸ h.mark hj hk
  rw [markEntryAt, labelAt, hread (9 + 6 * j) 0 (by omega) (by decide), hread (10 + 6 * j) 1 (by omega) (by decide),
    hread (11 + 6 * j) 2 (by omega) (by decide), hread (11 + 6 * j + 1) 3 (by omega) (by decide),
    hread (11 + 6 * j + 2) 4 (by omega) (by decide), hread (11 + 6 * j + 3) 5 (by omega) (by decide)]
  rfl

theorem ReportFits.declared :
    declaredLength (receivedTelegram (reportCovered addr l age status marks)) = 10 + 6 * marks.length := by
  have hcount := h.count
  rw [declaredLength_eq (by rw [receivedReport_length]; omega), h.header (i := 1) (by decide)]
  show (96 + (10 + 6 * marks.length)) % 32 = _
  omega

theorem ReportFits.complete : answerComplete (receivedTelegram (reportCovered addr l age status marks)) = true := by
  have hcount := h.count
  have hlegal : legalReportLength (10 + 6 * marks.length) = true := by
    interval_cases marks.length <;> rfl
  rw [answerComplete, h.declared, receivedReport_length, hlegal]
  simp

theorem ReportFits.markCount (hstatus : status / 4 % 4 = marks.length) :
    markCount (receivedTelegram (reportCovered addr l age status marks)) = marks.length := by
  rw [Machine.markCount, statusChar, h.header (i := 7) (by decide)]
  exact hstatus

theorem ReportFits.labelRead : labelAt (receivedTelegram (reportCovered addr l age status marks)) 3 = l := by
  rw [labelAt, h.header (i := 2) (by decide), h.header (i := 3) (by decide), h.header (i := 4) (by decide),
    h.header (i := 5) (by decide)]
  rfl

theorem ReportFits.entries (hstatus : status / 4 % 4 = marks.length) :
    markEntries (receivedTelegram (reportCovered addr l age status marks)) = marks := by
  rw [markEntries, h.markCount hstatus]
  refine List.ext_getElem (by simp) fun j hj hj' => ?_
  rw [List.getElem_map, List.getElem_range, h.markEntry hj']

omit h

/-! ## The tests of R74 -/

theorem garbledAnswer_eq_false_iff {chars : List RxChar} {quiet : Bool} :
    garbledAnswer chars quiet addr d = false ↔
      charAt chars 0 = syncChar ∧ chars.any (·.framingError) = false ∧ (charAt chars 2).toNat / 32 = 3 ∧
        legalReportLength (declaredLength chars) = true ∧ quiet = false ∧
        markCount chars = (declaredLength chars - 10) / 6 ∧ checkGood chars = true ∧ (charAt chars 1).toNat = addr ∧
        labelValidForSlot d (labelAt chars 3) = true := by
  simp only [garbledAnswer, Bool.or_eq_false_iff, bne_eq_false_iff_eq, Bool.not_eq_false', and_assoc]

theorem garbledAnswer_of_not {chars : List RxChar} {quiet : Bool} (h : garbledAnswer chars quiet addr d ≠ false) :
    garbledAnswer chars quiet addr d = true := by simpa using h

theorem labelValidForSlot_occupied (h : d.state ≠ .empty) (l : Label) : labelValidForSlot d l = d.fmt.valid l :=
  if_pos ((Device.occupied_iff d).mpr h)

theorem checkGood_received (covered : List Byte) : checkGood (receivedTelegram covered) = true := checkGood_telegram covered

theorem any_framing_received (covered : List Byte) : (receivedTelegram covered).any (·.framingError) = false := by
  simp [receivedTelegram]

/-- One character received as another, or with a framing error, garbles the answer, whatever record is called. -/
theorem changed_garbled {n : Nat} {c : RxChar} (hn : n < (receivedTelegram covered).length)
    (hc : (receivedTelegram covered)[n]? ≠ some c) :
    garbledAnswer ((receivedTelegram covered).set n c) false addr d = true := by
  refine garbledAnswer_of_not fun hgood => ?_
  obtain ⟨hsync, hframing, -, -, -, -, hcheck, -⟩ := garbledAnswer_eq_false_iff.mp hgood
  rcases changed_char_found hn hc with hs | hf | hk
  · exact hs hsync
  · simp [hf] at hframing
  · simp [hk] at hcheck

include h

theorem ReportFits.not_garbled (hstatus : status / 4 % 4 = marks.length) (hd : d.state ≠ .empty)
    (hl : d.fmt.valid l = true) :
    garbledAnswer (receivedTelegram (reportCovered addr l age status marks)) false addr d = false := by
  have hcomplete := h.complete
  have hcount := h.count
  rw [answerComplete, Bool.and_eq_true] at hcomplete
  refine garbledAnswer_eq_false_iff.mpr ⟨rfl, any_framing_received _, ?_, hcomplete.1, rfl, ?_, checkGood_received _,
    h.header (i := 0) (by decide), ?_⟩
  · rw [h.header (i := 1) (by decide)]
    show (96 + (10 + 6 * marks.length)) / 32 = 3
    omega
  · rw [h.markCount hstatus, h.declared]
    omega
  · rw [h.labelRead, labelValidForSlot_occupied hd, hl]

/-- Nor is a beginning of such an answer good, when the changed character makes it a complete one. -/
theorem ReportFits.changed_beginning_garbled (hstatus : status / 4 % 4 = marks.length) {n m : Nat} {c : RxChar}
    (hn : n < (receivedTelegram (reportCovered addr l age status marks)).length)
    (hc : (receivedTelegram (reportCovered addr l age status marks))[n]? ≠ some c)
    (hm : answerComplete (((receivedTelegram (reportCovered addr l age status marks)).set n c).take m) = true) :
    garbledAnswer (((receivedTelegram (reportCovered addr l age status marks)).set n c).take m) false addr d = true := by
  have hlen := receivedReport_length (addr := addr) (l := l) (age := age) (status := status) (marks := marks)
  rw [answerComplete, Bool.and_eq_true, beq_iff_eq] at hm
  obtain ⟨hlegal, hdeclared⟩ := hm
  have hten : 10 ≤ (((receivedTelegram (reportCovered addr l age status marks)).set n c).take m).length := by
    simp only [legalReportLength, Bool.or_eq_true, beq_iff_eq] at hlegal
    omega
  have htake := List.length_take (i := m) (l := (receivedTelegram (reportCovered addr l age status marks)).set n c)
  rw [List.length_set, hlen] at htake
  by_cases hall : 10 + 6 * marks.length ≤ m
  · rw [List.take_of_length_le (by rw [List.length_set, hlen]; exact hall)]
    exact changed_garbled hn hc
  · have hsame (i : Nat) (hi : i < m) (hin : i ≠ n) :
        charAt (((receivedTelegram (reportCovered addr l age status marks)).set n c).take m) i =
          charAt (receivedTelegram (reportCovered addr l age status marks)) i :=
      charAt_congr (by rw [List.getElem?_take_of_lt hi, List.getElem?_set_ne (Ne.symm hin)])
    refine garbledAnswer_of_not fun hgood => ?_
    obtain ⟨-, -, -, -, -, hcount, -⟩ := garbledAnswer_eq_false_iff.mp hgood
    by_cases h2 : n = 2
    · rw [Machine.markCount, statusChar, hsame 8 (by omega) (by omega), ← statusChar, ← Machine.markCount,
        h.markCount hstatus] at hcount
      omega
    · rw [declaredLength_eq (by omega), hsame 2 (by omega) (Ne.symm h2),
        ← declaredLength_eq (by omega), h.declared] at hdeclared
      omega

end

/-- The flags in the two low bits of a REPORT's status (R195). -/
theorem statusBits_prot {status rest upper : Nat} {prot dual : Bool}
    (h : status = (if prot then 1 else 0) + (if dual then 2 else 0) + 4 * rest + 16 * upper) :
    status.testBit 0 = prot := by
  rw [Nat.testBit_zero, h]
  cases prot <;> cases dual <;> simp <;> omega

theorem statusBits_dual {status rest upper : Nat} {prot dual : Bool}
    (h : status = (if prot then 1 else 0) + (if dual then 2 else 0) + 4 * rest + 16 * upper) :
    status.testBit 1 = dual := by
  rw [Nat.testBit_succ, Nat.testBit_zero, h]
  cases prot <;> cases dual <;> simp <;> omega

/-- Settles O34: the characters read back one by one, and the check finds any one of them changed. -/
theorem reportReadsBack : Obligations.ReportReadsBack := by
  unfold Obligations.ReportReadsBack
  intro d addr stamp l age upper prot dual marks hlow haddr hd hl hage hupper hcount hmarks status numbers covered received
  obtain ⟨hhh, hmm, hss, hff⟩ : l.hh < 24 ∧ l.mm < 60 ∧ l.ss < 60 ∧ l.ff < d.fmt.base.fps := by
    simpa [Fmt.valid, and_assoc] using hl
  have hfps : d.fmt.base.fps ≤ 60 := by cases d.fmt.base <;> decide
  have hflags : (if prot then 1 else 0) + (if dual then 2 else 0) ≤ 3 := by cases prot <;> cases dual <;> decide
  have hsum : status = (if prot then 1 else 0) + (if dual then 2 else 0) + 4 * marks.length + 16 * upper := rfl
  have hstatus : status / 4 % 4 = marks.length := by omega
  have h : ReportFits addr l age status marks := by
    refine ⟨haddr, by omega, hage, by omega, hcount, fun m hm n hn => ?_⟩
    obtain ⟨h0, h1, h2, h3, h4, h5⟩ := hmarks m hm
    simp only [MarkEntry.numbers, List.mem_cons, List.not_mem_nil, or_false] at hn
    omega
  have hreceived : received = receivedTelegram (reportCovered addr l age status marks) := rfl
  rw [hreceived]
  refine ⟨h.complete, h.not_garbled hstatus hd hl, ?_, fun other hother => ?_, fun n c hn hc =>
    ⟨changed_garbled hn hc, fun m hm => h.changed_beginning_garbled hstatus hn hc hm⟩⟩
  · have hchar : (statusChar (receivedTelegram (reportCovered addr l age status marks))).toNat = status :=
      h.header (i := 7) (by decide)
    rw [readReport, h.labelRead, Fmt.enter_of_valid hl, h.header (i := 6) (by decide), h.entries hstatus,
      BitVec.getLsbD, BitVec.getLsbD, hchar, statusBits_prot hsum, statusBits_dual hsum]
    rfl
  · refine garbledAnswer_of_not fun hgood => ?_
    obtain ⟨-, -, -, -, -, -, -, ha, -⟩ := garbledAnswer_eq_false_iff.mp hgood
    exact hother (ha.symm.trans (h.header (i := 0) (by decide)))

end Sys2Proof.Machine
end

section
/-! Words composed of fields that do not overlap: as numbers they are the sums of their fields, each in its place. -/

namespace Sys2Proof.Machine

/-- A field of a word: its lowest bit, its width, and the number that it holds. -/
abbrev Field := Nat × Nat × Nat

def Field.word (f : Field) : Word := field f.1 f.2.1 f.2.2

/-- What a field adds to the word as a number. -/
def Field.value (f : Field) : Nat := f.2.2 % 2 ^ f.2.1 * 2 ^ f.1

/-- The fields follow one another from bit `start` up, within 32 bits. -/
def FieldsFit (start : Nat) : List Field → Prop
  | [] => start ≤ 32
  | f :: fs => start ≤ f.1 ∧ FieldsFit (f.1 + f.2.1) fs

theorem FieldsFit.le {fs : List Field} : ∀ {start : Nat}, FieldsFit start fs → start ≤ 32 := by
  induction fs with
  | nil => exact id
  | cons f fs ih => exact fun h => h.1.trans (Nat.le_of_add_right_le (ih h.2))

theorem Field.value_mk (lo width v : Nat) : Field.value (lo, width, v) = 2 ^ lo * (v % 2 ^ width) := Nat.mul_comm ..

theorem Field.value_lt (f : Field) : f.value < 2 ^ (f.1 + f.2.1) := by
  rw [Field.value, Nat.add_comm, Nat.pow_add]
  exact Nat.mul_lt_mul_of_pos_right (Nat.mod_lt _ (Nat.two_pow_pos _)) (Nat.two_pow_pos _)

theorem Field.word_toNat {f : Field} (h : f.1 + f.2.1 ≤ 32) : f.word.toNat = f.value := by
  show (f.2.2 % 2 ^ f.2.1 * 2 ^ f.1) % 2 ^ 32 = _
  exact Nat.mod_eq_of_lt (f.value_lt.trans_le (Nat.pow_le_pow_right (by decide) h))

theorem fields_dvd {fs : List Field} : ∀ {start : Nat}, FieldsFit start fs → 2 ^ start ∣ (fs.map Field.value).sum := by
  induction fs with
  | nil => exact fun _ => Nat.dvd_zero _
  | cons f fs ih =>
    intro start h
    rw [List.map_cons, List.sum_cons]
    refine Nat.dvd_add ?_ ((Nat.pow_dvd_pow 2 (h.1.trans (Nat.le_add_right _ _))).trans (ih h.2))
    exact (Nat.pow_dvd_pow 2 h.1).trans (Nat.dvd_mul_left _ _)

/-- A word composed of fields, as a number. -/
theorem orAll_toNat (fs : List Field) {start : Nat} (h : FieldsFit start fs) :
    (orAll (fs.map Field.word)).toNat = (fs.map Field.value).sum := by
  induction fs generalizing start with
  | nil => rfl
  | cons f fs ih =>
    obtain ⟨c, hc⟩ := fields_dvd h.2
    have hrest := ih h.2
    show (f.word ||| orAll (fs.map Field.word)).toNat = _
    rw [BitVec.toNat_or, hrest, Field.word_toNat h.2.le, List.map_cons, List.sum_cons, hc, Nat.or_comm,
      ← Nat.two_pow_add_eq_or_of_lt f.value_lt, Nat.add_comm]

theorem flagBit_eq_field (i : Nat) (b : Bool) : flagBit i b = field i 1 b.toNat := by
  cases b
  · simp [flagBit, field]
  · simp [flagBit, field]

theorem field_toNat {lo width v : Nat} (h : lo + width ≤ 32) : (field lo width v).toNat = v % 2 ^ width * 2 ^ lo :=
  Field.word_toNat (f := (lo, width, v)) h

theorem bit_eq_decide (w : Word) (i : Nat) : bit w i = decide (w.toNat / 2 ^ i % 2 = 1) := by
  rw [bit, Nat.testBit_eq_decide_div_mod_eq]

theorem bit_eq_of_toNat {w : Word} {i : Nat} {b : Bool} (h : w.toNat / 2 ^ i % 2 = b.toNat) : bit w i = b := by
  rw [bit_eq_decide, h]
  cases b <;> rfl

/-! ## Words of larger quantities (R188) -/

theorem wide_words {v : Nat} (h : v < 2 ^ 64) : wide (lowWord v) (highWord v) = v := by
  rw [wide, lowWord, highWord, BitVec.toNat_ofNat, BitVec.toNat_ofNat]
  omega

/-- The words of a tie read back. -/
theorem tie_words {t : Tie} (ht : t.label < 2 ^ 32 ∧ t.st < 2 ^ 64) :
    (⟨(BitVec.ofNat 32 t.label).toNat, wide (lowWord t.st) (highWord t.st)⟩ : Tie) = t := by
  rw [BitVec.toNat_ofNat, Nat.mod_eq_of_lt ht.1, wide_words ht.2]

theorem signedWord_toInt {v : Int} (hlow : -2147483648 ≤ v) (hhigh : v < 2147483648) : (signedWord v).toInt = v := by
  rw [signedWord, BitVec.toInt_ofInt]
  exact Int.bmod_eq_of_le (by omega) (by omega)

/-! ## Codes and back (R188) -/

theorem fmtOfCode_code {f : Fmt} (h : f.legal = true) : fmtOfCode f.code = some f := by
  obtain ⟨base, drop⟩ := f
  revert h
  cases base <;> cases drop <;> decide

theorem recoveryOfCode_code (r : Recovery) : recoveryOfCode r.code = some r := by cases r <;> rfl

theorem classOfCode_code (c : DevClass) : classOfCode c.code = c := by cases c <;> rfl

theorem devStateOfCode_code (st : DevState) : devStateOfCode st.code = some st := by cases st <;> rfl

theorem Fmt.code_lt (f : Fmt) : f.code < 16 := by
  obtain ⟨base, drop⟩ := f
  cases base <;> cases drop <;> decide

theorem DevState.code_lt (st : DevState) : st.code < 7 := by cases st <;> decide

theorem DevClass.code_lt (c : DevClass) : c.code < 4 := by cases c <;> decide

theorem Recovery.code_lt (r : Recovery) : r.code < 3 := by cases r <;> decide

theorem lastResultCode_lt (r : Option Result) : lastResultCode r < 32 := by
  cases r with
  | none => decide
  | some r => cases r <;> decide

theorem chanOf_val (c : Fin 16) : chanOf c.val = some c := chanOf_eq_some rfl

end Sys2Proof.Machine
end

section
/-! A device package reads back as the record it was composed of (R115, R116, R193). -/

namespace Sys2Proof.Machine

section

variable {d : Device}

/-! ## The words of a package -/

/-- Word 1 of a package of an occupied slot (R193). -/
def Device.stateWord (d : Device) : Word :=
  orAll ([(0, 3, d.state.code), (4, 3, if d.state = .absent then (d.before.map DevState.code).getD 0 else 0),
    (8, 6, d.linkAddr), (16, 2, d.cls.code), (18, 2, d.recovery.code), (20, 1, d.protectedFlag.toNat),
    (21, 1, d.dualTrack.toNat), (22, 1, d.driftClamped.toNat), (24, 4, d.fmt.code)].map Field.word)

/-- Word 3 of a package of an occupied slot (R193). -/
def Device.channelWord (d : Device) : Word :=
  orAll ([(0, 16, d.rate.d), (16, 4, (d.boundTo.map Fin.val).getD 0), (20, 1, d.boundTo.isSome.toNat),
    (24, 4, (d.jamSource.map Fin.val).getD 0), (28, 1, d.jamSource.isSome.toNat), (29, 1, d.anchor.isSome.toNat),
    (30, 1, d.verify.isSome.toNat)].map Field.word)

theorem Device.package_occupied (h : d.state ≠ .empty) :
    d.package =
      [packageTag, d.stateWord, field 0 24 d.rate.n, d.channelWord,
       orAll ([(0, 16, d.pathDelay), (16, 16, d.marksLogged.toNat)].map Field.word), field 0 20 d.window,
       if d.boundTo.isSome then 0 else signedWord d.drift,
       signedWord (if d.boundTo.isSome && d.anchor.isSome then d.offset.getD 0 else 0),
       BitVec.ofNat 32 ((d.anchor.map Tie.label).getD 0),
       lowWord ((d.anchor.map Tie.st).getD 0), highWord ((d.anchor.map Tie.st).getD 0),
       BitVec.ofNat 32 ((d.verify.map Tie.label).getD 0),
       lowWord ((d.verify.map Tie.st).getD 0), highWord ((d.verify.map Tie.st).getD 0),
       field 0 5 (lastResultCode d.lastResult), 0] := by
  have hbefore : (match d.state, d.before with | .absent, some b => b.code | _, _ => 0) =
      if d.state = .absent then (d.before.map DevState.code).getD 0 else 0 := by
    cases d.state <;> cases d.before <;> rfl
  have hbound : (match d.boundTo with | some c => c.val | none => 0) = (d.boundTo.map Fin.val).getD 0 := by
    cases d.boundTo <;> rfl
  have hsource : (match d.jamSource with | some c => c.val | none => 0) = (d.jamSource.map Fin.val).getD 0 := by
    cases d.jamSource <;> rfl
  unfold Device.package
  split
  next he => exact absurd he h
  next =>
    simp only [Device.stateWord, Device.channelWord, List.map, Field.word, ← hbefore, ← hbound, ← hsource,
      flagBit_eq_field] <;> rfl

/-! ## The fields read back -/

theorem Device.stateWord_toNat (d : Device) :
    d.stateWord.toNat = 2 ^ 0 * (d.state.code % 2 ^ 3) +
      (2 ^ 4 * ((if d.state = .absent then (d.before.map DevState.code).getD 0 else 0) % 2 ^ 3) +
      (2 ^ 8 * (d.linkAddr % 2 ^ 6) + (2 ^ 16 * (d.cls.code % 2 ^ 2) + (2 ^ 18 * (d.recovery.code % 2 ^ 2) +
      (2 ^ 20 * (d.protectedFlag.toNat % 2 ^ 1) + (2 ^ 21 * (d.dualTrack.toNat % 2 ^ 1) +
      (2 ^ 22 * (d.driftClamped.toNat % 2 ^ 1) + (2 ^ 24 * (d.fmt.code % 2 ^ 4) + 0)))))))) := by
  rw [Device.stateWord, orAll_toNat _ (start := 0) (by simp [FieldsFit])]
  simp only [List.map_cons, List.map_nil, List.sum_cons, List.sum_nil, Field.value_mk]

theorem Device.channelWord_toNat (d : Device) :
    d.channelWord.toNat = 2 ^ 0 * (d.rate.d % 2 ^ 16) + (2 ^ 16 * ((d.boundTo.map Fin.val).getD 0 % 2 ^ 4) +
      (2 ^ 20 * (d.boundTo.isSome.toNat % 2 ^ 1) + (2 ^ 24 * ((d.jamSource.map Fin.val).getD 0 % 2 ^ 4) +
      (2 ^ 28 * (d.jamSource.isSome.toNat % 2 ^ 1) + (2 ^ 29 * (d.anchor.isSome.toNat % 2 ^ 1) +
      (2 ^ 30 * (d.verify.isSome.toNat % 2 ^ 1) + 0)))))) := by
  rw [Device.channelWord, orAll_toNat _ (start := 0) (by simp [FieldsFit])]
  simp only [List.map_cons, List.map_nil, List.sum_cons, List.sum_nil, Field.value_mk]

theorem before_code_lt (d : Device) : (if d.state = .absent then (d.before.map DevState.code).getD 0 else 0) < 7 := by
  split
  · cases d.before with
    | none => decide
    | some b => exact b.code_lt
  · decide

theorem optChan_val_lt (c : Option (Fin 16)) : (c.map Fin.val).getD 0 < 16 := by
  cases c with
  | none => decide
  | some c => exact c.isLt

theorem Device.stateWord_bits (haddr : d.linkAddr ≤ 63) :
    bits d.stateWord 2 0 = d.state.code ∧
      bits d.stateWord 6 4 = (if d.state = .absent then (d.before.map DevState.code).getD 0 else 0) ∧
      bits d.stateWord 13 8 = d.linkAddr ∧ bits d.stateWord 17 16 = d.cls.code ∧ bits d.stateWord 19 18 = d.recovery.code ∧
      bits d.stateWord 27 24 = d.fmt.code := by
  have hst := d.state.code_lt
  have hbefore := before_code_lt d
  have hcls := d.cls.code_lt
  have hrec := d.recovery.code_lt
  have hfmt := d.fmt.code_lt
  have hp := d.protectedFlag.toNat_le
  have hd := d.dualTrack.toNat_le
  have hc := d.driftClamped.toNat_le
  simp only [bits, d.stateWord_toNat]
  omega

theorem Device.stateWord_flags (d : Device) :
    bit d.stateWord 20 = d.protectedFlag ∧ bit d.stateWord 21 = d.dualTrack ∧ bit d.stateWord 22 = d.driftClamped := by
  have hbefore := before_code_lt d
  have hp := d.protectedFlag.toNat_le
  have hd := d.dualTrack.toNat_le
  have hc := d.driftClamped.toNat_le
  refine ⟨bit_eq_of_toNat ?_, bit_eq_of_toNat ?_, bit_eq_of_toNat ?_⟩
  · rw [d.stateWord_toNat]
    omega
  · rw [d.stateWord_toNat]
    omega
  · rw [d.stateWord_toNat]
    omega

theorem Device.channelWord_bits (hd : d.rate.d ≤ 65535) :
    bits d.channelWord 15 0 = d.rate.d ∧ bits d.channelWord 19 16 = (d.boundTo.map Fin.val).getD 0 ∧
      bits d.channelWord 27 24 = (d.jamSource.map Fin.val).getD 0 := by
  have hbound := optChan_val_lt d.boundTo
  have hsource := optChan_val_lt d.jamSource
  have h1 := d.boundTo.isSome.toNat_le
  have h2 := d.jamSource.isSome.toNat_le
  have h3 := d.anchor.isSome.toNat_le
  have h4 := d.verify.isSome.toNat_le
  simp only [bits, d.channelWord_toNat]
  omega

theorem Device.channelWord_flags (d : Device) :
    bit d.channelWord 20 = d.boundTo.isSome ∧ bit d.channelWord 28 = d.jamSource.isSome ∧
      bit d.channelWord 29 = d.anchor.isSome ∧ bit d.channelWord 30 = d.verify.isSome := by
  have hbound := optChan_val_lt d.boundTo
  have hsource := optChan_val_lt d.jamSource
  have h1 := d.boundTo.isSome.toNat_le
  have h2 := d.jamSource.isSome.toNat_le
  have h3 := d.anchor.isSome.toNat_le
  have h4 := d.verify.isSome.toNat_le
  refine ⟨bit_eq_of_toNat ?_, bit_eq_of_toNat ?_, bit_eq_of_toNat ?_, bit_eq_of_toNat ?_⟩
  · rw [d.channelWord_toNat]
    omega
  · rw [d.channelWord_toNat]
    omega
  · rw [d.channelWord_toNat]
    omega
  · rw [d.channelWord_toNat]
    omega

/-! ## The record read back -/

/-- A record that the package of an occupied slot can hold: well formed, not JAMMING, its ties within their words. -/
structure Device.Packable (d : Device) : Prop where
  parts : d.PartsWF
  values : d.ValuesWF
  occupied : d.state ≠ .empty
  unjammed : d.state ≠ .jamming
  anchor : ∀ t, d.anchor = some t → t.label < 2 ^ 32 ∧ t.st < 2 ^ 64
  verify : ∀ t, d.verify = some t → t.label < 2 ^ 32 ∧ t.st < 2 ^ 64

/-- What the package keeps of a record: all but its counts, its hold and its last result code (R116). -/
def Device.parked (d : Device) : Device := { d with held := false, good := 0, bad := 0, miss := 0, lastResult := none }

variable (h : d.Packable)
include h

theorem Device.Packable.word1 : imageWord d.package 1 = d.stateWord := by
  rw [imageWord, Device.package_occupied h.occupied]
  rfl

theorem Device.Packable.word3 : imageWord d.package 3 = d.channelWord := by
  rw [imageWord, Device.package_occupied h.occupied]
  rfl

theorem Device.Packable.ranges :
    1 ≤ d.linkAddr ∧ d.linkAddr ≤ 63 ∧ d.rate.legal = true ∧ d.fmt.legal = true ∧ 1 ≤ d.window ∧ d.window ≤ 1000000 ∧
      d.pathDelay ≤ 65535 ∧ ¬(d.cls = .suite ∧ d.recovery = .jam) :=
  h.values.2.2.2.1 ((Device.occupied_iff d).mpr h.occupied)

theorem Device.Packable.imageAnchor : imageAnchor d.package = d.anchor := by
  unfold Machine.imageAnchor
  rw [h.word3, d.channelWord_flags.2.2.1]
  cases ha : d.anchor with
  | none => rfl
  | some t =>
    refine (if_pos rfl).trans (congrArg some ?_)
    rw [imageWord, imageWord, imageWord, Device.package_occupied h.occupied, ha]
    exact tie_words (h.anchor t ha)

theorem Device.Packable.imageVerify : imageVerify d.package = d.verify := by
  unfold Machine.imageVerify
  rw [h.word3, d.channelWord_flags.2.2.2]
  cases hv : d.verify with
  | none => rfl
  | some t =>
    refine (if_pos rfl).trans (congrArg some ?_)
    rw [imageWord, imageWord, imageWord, Device.package_occupied h.occupied, hv]
    exact tie_words (h.verify t hv)

theorem Device.Packable.rate_le : d.rate.n ≤ 16777215 ∧ d.rate.d ≤ 65535 := by
  obtain ⟨-, -, hrate, -⟩ := h.ranges
  simp only [Rate.legal, Bool.and_eq_true, decide_eq_true_eq] at hrate
  omega

theorem Device.Packable.imageBound : imageBound d.package = d.boundTo := by
  unfold Machine.imageBound
  rw [h.word3, d.channelWord_flags.1, (d.channelWord_bits h.rate_le.2).2.1]
  cases d.boundTo with
  | none => rfl
  | some c => exact (if_pos rfl).trans (chanOf_val c)

theorem Device.Packable.imageSource :
    (if bit (imageWord d.package 3) 28 then chanOf (bits (imageWord d.package 3) 27 24) else none) = d.jamSource := by
  rw [h.word3, d.channelWord_flags.2.1, (d.channelWord_bits h.rate_le.2).2.2]
  cases d.jamSource with
  | none => rfl
  | some c => exact (if_pos rfl).trans (chanOf_val c)

/-- The state before absence, which the package shows in ABSENT alone. -/
theorem Device.Packable.imageBefore : (if d.state = .absent then imageBefore d.package else none) = d.before := by
  obtain ⟨-, haddr, -⟩ := h.ranges
  obtain ⟨-, -, -, -, -, hbefore, -, -, -, -, -, -, hrem⟩ := h.parts
  split
  next hst =>
    unfold Machine.imageBefore
    rw [h.word1, (Device.stateWord_bits haddr).2.1, if_pos hst]
    obtain ⟨b, hb⟩ := Option.isSome_iff_exists.mp (hbefore.mpr hst)
    rw [hb]
    rcases (DevState.rememberable_iff b).mp (hrem b hb).1 with rfl | rfl | rfl | rfl <;> rfl
  next hst =>
    by_contra hne
    exact hst (hbefore.mp (Option.isSome_iff_ne_none.mpr (Ne.symm hne)))

theorem Device.Packable.imageOffset
    (hoffset : ∀ o, d.offset = some o → -2147483648 ≤ o ∧ o < 2147483648) :
    (if d.boundTo.isSome && d.anchor.isSome then some (imageWord d.package 7).toInt else none) = d.offset := by
  have hiff := h.parts.2.2.2.2.1
  have hword : imageWord d.package 7 =
      signedWord (if d.boundTo.isSome && d.anchor.isSome then d.offset.getD 0 else 0) := by
    rw [imageWord, Device.package_occupied h.occupied]
    rfl
  rw [hword, ← Bool.and_eq_true] at *
  split
  next hon =>
    obtain ⟨o, ho⟩ := Option.isSome_iff_exists.mp (hiff.mpr hon)
    obtain ⟨hlow, hhigh⟩ := hoffset o ho
    rw [ho, Option.getD_some, signedWord_toInt hlow hhigh]
  next hoff =>
    by_contra hne
    exact hoff (hiff.mp (Option.isSome_iff_ne_none.mpr (Ne.symm hne)))

theorem Device.Packable.imageDrift :
    (if d.boundTo.isSome then 0 else (imageWord d.package 6).toInt) = d.drift := by
  obtain ⟨hlow, hhigh, hbound, -⟩ := h.values
  have hword : imageWord d.package 6 = if d.boundTo.isSome then 0 else signedWord d.drift := by
    rw [imageWord, Device.package_occupied h.occupied]
    rfl
  rw [hword]
  split
  next hb => exact (hbound hb).symm
  next => exact signedWord_toInt (by omega) (by omega)

theorem Device.Packable.imageLoneVerify :
    (if d.boundTo.isSome then none else Machine.imageVerify d.package) = d.verify := by
  rw [h.imageVerify]
  split
  next hb =>
    by_contra hne
    have hv := h.parts.2.2.2.1 (Option.isSome_iff_ne_none.mpr (Ne.symm hne))
    rw [hv.2] at hb
    cases hb
  next => rfl

theorem Device.Packable.imageNumbers :
    bits (imageWord d.package 2) 23 0 = d.rate.n ∧ bits (imageWord d.package 4) 15 0 = d.pathDelay ∧
      BitVec.ofNat 16 (bits (imageWord d.package 4) 31 16) = d.marksLogged ∧ bits (imageWord d.package 5) 19 0 = d.window := by
  obtain ⟨-, -, -, -, -, hwindow, hdelay, -⟩ := h.ranges
  have hn := h.rate_le.1
  have h4 : (imageWord d.package 4).toNat = 2 ^ 0 * (d.pathDelay % 2 ^ 16) + (2 ^ 16 * (d.marksLogged.toNat % 2 ^ 16) + 0) := by
    rw [imageWord, Device.package_occupied h.occupied]
    show (orAll _).toNat = _
    rw [orAll_toNat _ (start := 0) (by simp [FieldsFit])]
    simp only [List.map_cons, List.map_nil, List.sum_cons, List.sum_nil, Field.value_mk]
  have h2 : (imageWord d.package 2).toNat = d.rate.n % 2 ^ 24 * 2 ^ 0 := by
    rw [imageWord, Device.package_occupied h.occupied]
    exact field_toNat (by decide)
  have h5 : (imageWord d.package 5).toNat = d.window % 2 ^ 20 * 2 ^ 0 := by
    rw [imageWord, Device.package_occupied h.occupied]
    exact field_toNat (by decide)
  have hmarks := d.marksLogged.isLt
  refine ⟨?_, ?_, ?_, ?_⟩
  · rw [bits, h2]
    omega
  · rw [bits, h4]
    omega
  · apply BitVec.eq_of_toNat_eq
    rw [BitVec.toNat_ofNat, bits, h4]
    omega
  · rw [bits, h5]
    omega

/-- The image of a record is the record again, as it is parked (R116). -/
theorem Device.Packable.imageRecord (hoffset : ∀ o, d.offset = some o → -2147483648 ≤ o ∧ o < 2147483648) :
    imageRecord d.package d.state d.fmt d.recovery = d.parked := by
  obtain ⟨-, haddr, -⟩ := h.ranges
  obtain ⟨-, -, hlink, hcls, -⟩ := Device.stateWord_bits haddr
  obtain ⟨hprot, hdual, hclamp⟩ := d.stateWord_flags
  obtain ⟨hn, hdelay, hmarks, hwindow⟩ := h.imageNumbers
  have hd := (d.channelWord_bits h.rate_le.2).1
  have hjam : d.jam = none := by
    rw [← Option.not_isSome_iff_eq_none, h.parts.1]
    exact h.unjammed
  have hsource := h.imageSource
  rw [h.word3] at hsource
  simp only [Machine.imageRecord, h.imageBound, h.imageAnchor, h.imageBefore, h.imageOffset hoffset, h.imageDrift,
    h.imageLoneVerify, h.word1, h.word3, hlink, hcls, hprot, hdual, hclamp, hn, hd, hdelay, hmarks, hwindow, hsource,
    classOfCode_code]
  simp only [Device.parked, hjam]
  rfl

theorem Device.Packable.validateImage (s : State) (i : Fin 48) :
    s.validateImage i d.package = s.imageCheck i d.package d.state := by
  obtain ⟨-, haddr, -⟩ := h.ranges
  have htag : imageWord d.package 0 = packageTag := by
    rw [imageWord, Device.package_occupied h.occupied]
    rfl
  have hstate : devStateOfCode (bits (imageWord d.package 1) 2 0) = some d.state := by
    rw [h.word1, (Device.stateWord_bits haddr).1, devStateOfCode_code]
  unfold State.validateImage
  rw [if_neg (fun hne => hne htag)]
  split
  next he => simp [hstate] at he
  next he => exact absurd (Option.some.inj (hstate.symm.trans he)) h.unjammed
  next he => exact absurd (Option.some.inj (hstate.symm.trans he)) h.occupied
  next st _ _ he => rw [Option.some.inj (hstate.symm.trans he)]

theorem Device.Packable.anchorFits : d.parked.anchorFits = true := by
  obtain ⟨-, hhas, hno, -, -, -, -, -, -, -, -, -, hbefore⟩ := h.parts
  rw [Device.translationState_of_ne h.unjammed] at hhas hno
  unfold Device.anchorFits
  split
  next hst => exact hhas (.inl hst)
  next hst => exact hhas (.inr hst)
  next hst => rw [show d.parked.anchor = none from hno hst]; rfl
  next =>
    split
    next hb => exact (hbefore _ hb).2 (.inl rfl)
    next hb => exact (hbefore _ hb).2 (.inr rfl)
    next => rfl
  all_goals rfl

/-- The checks of R115 pass, in a part where no other slot holds the address and the bound channel is as it was. -/
theorem Device.Packable.imageCheck {s : State} {i : Fin 48} (haddr : s.addressTaken i d.linkAddr = false)
    (hbind : s.bindable d.boundTo = true) (hfits : s.offsetFits d.parked = true)
    (hoffset : ∀ o, d.offset = some o → -2147483648 ≤ o ∧ o < 2147483648) :
    s.imageCheck i d.package d.state = .ok d.parked := by
  obtain ⟨hlow, hhigh, hrate, hfmt, hwin, hwin', -, hcls⟩ := h.ranges
  obtain ⟨-, -, hlink, -, hrec, hcode⟩ := Device.stateWord_bits hhigh
  obtain ⟨hdrift, hdrift', -⟩ := h.values
  have hbefore : ¬(d.state = .absent ∧ Machine.imageBefore d.package = none) := by
    rintro ⟨hst, hno⟩
    have hb := h.imageBefore
    rw [if_pos hst, hno] at hb
    have hsome := h.parts.2.2.2.2.2.1.mpr hst
    rw [← hb] at hsome
    cases hsome
  have hverify : (d.parked.boundTo.isSome || d.parked.verify.isNone || d.parked.anchor.isSome) = true := by
    have hv := h.parts.2.2.2.1
    cases hve : d.verify with
    | none => simp [Device.parked, hve]
    | some t => simp [Device.parked, (hv (by rw [hve]; rfl)).1]
  unfold State.imageCheck
  dsimp only
  rw [h.word1, hlink, hrec, hcode, if_neg hbefore, if_neg (by omega), if_neg (by simp [haddr]), fmtOfCode_code hfmt,
    recoveryOfCode_code]
  dsimp only
  rw [h.imageRecord hoffset, if_pos]
  have hclass : (!(d.parked.cls == .suite && d.parked.recovery == .jam)) = true := by
    rw [Bool.not_eq_true', Bool.and_eq_false_iff, beq_eq_false_iff_ne, beq_eq_false_iff_ne]
    exact not_and_or.mp hcls
  simp only [Bool.and_eq_true, decide_eq_true_eq]
  exact ⟨⟨⟨⟨⟨⟨⟨⟨⟨hrate, hwin⟩, hwin'⟩, hclass⟩, hbind⟩, h.anchorFits⟩, hverify⟩, hfits⟩, hdrift⟩, hdrift'⟩

end

theorem Fmt.fday_le (f : Fmt) : f.fday ≤ 5184000 := by
  obtain ⟨base, drop⟩ := f
  cases base <;> cases drop <;> decide

theorem State.addressTaken_eq_false {s : State} {i : Fin 48} {addr : Nat}
    (h : ∀ j : Fin 48, j ≠ i → (s.slot j).state ≠ .empty → (s.slot j).linkAddr ≠ addr) : s.addressTaken i addr = false := by
  rw [State.addressTaken, List.any_eq_false]
  intro j _ hj
  simp only [Bool.and_eq_true, bne_iff_ne, beq_iff_eq, Device.occupied_iff] at hj
  exact h j hj.1.1 hj.1.2 hj.2

/-- A slot that has become EMPTY parks as an EMPTY record. -/
theorem Device.emptyRecord_of_state {d : Device} (hvalues : d.ValuesWF) (hst : d.state = .empty) :
    d.parked = Device.emptyRecord := by
  have hocc : d.occupied = false := by simp [Device.occupied, hst]
  rw [hvalues.2.2.2.2.1 hocc]
  rfl

/-- The label offset of a bound record lies within the range of R35 for its channel's format, so within a word. -/
theorem offset_in_word {o : Int} {f : Fmt} (h : 1 - (f.fday : Int) / 2 ≤ o ∧ o ≤ (f.fday : Int) / 2) :
    -2147483648 ≤ o ∧ o < 2147483648 := by
  have := f.fday_le
  omega

/-- The words of any package that show the last result code, and the package of an EMPTY slot (R193). -/
theorem Device.package_result (d : Device) :
    d.package.getD 14 0 = field 0 5 (lastResultCode d.lastResult) ∧ d.package.getD 15 0 = 0 := by
  unfold Device.package
  split <;> exact ⟨rfl, rfl⟩

/-- The package of an EMPTY slot (R193). -/
theorem Device.package_empty {d : Device} (h : d.state = .empty) :
    d.package = [packageTag, 0, 0, 0, 0, field 0 20 13500, 0, 0, 0, 0, 0, 0, 0, 0, field 0 5 (lastResultCode d.lastResult),
      0] := by
  unfold Device.package
  split
  next => rfl
  next hne => exact absurd h hne

theorem State.validateImage_empty {s : State} {i : Fin 48} {image : List Word} (htag : imageWord image 0 = packageTag)
    (hst : bits (imageWord image 1) 2 0 = 0) : s.validateImage i image = .ok Device.emptyRecord := by
  unfold State.validateImage
  rw [if_neg (fun hne => hne htag), hst]
  rfl

/-- Settles O47: each word's fields read back, so the image is the parked record, and the checks of R115 pass on it. -/
theorem packageRoundTrip : Obligations.PackageRoundTrip := by
  unfold Obligations.PackageRoundTrip
  refine ⟨fun s i d hparts hvalues hjam hanchor hverify haddr hbound => ⟨d.package_length, ?_⟩, fun d => ⟨?_, ?_, ?_⟩⟩
  · by_cases hempty : d.state = .empty
    · refine Eq.trans ?_ (congrArg Except.ok (Device.emptyRecord_of_state hvalues hempty).symm)
      rw [Device.package_empty hempty]
      exact State.validateImage_empty rfl (by show bits 0 2 0 = 0; decide)
    · have h : d.Packable := ⟨hparts, hvalues, hempty, hjam, hanchor, hverify⟩
      have hoff (o : Int) (ho : d.offset = some o) : -2147483648 ≤ o ∧ o < 2147483648 := by
        have hb := (hparts.2.2.2.2.1.mp (by rw [ho]; rfl)).1
        obtain ⟨c, hc⟩ := Option.isSome_iff_exists.mp hb
        obtain ⟨hlow, hhigh, -⟩ := (hbound c hc).2 o ho
        exact offset_in_word ⟨hlow, hhigh⟩
      rw [h.validateImage]
      refine h.imageCheck (State.addressTaken_eq_false haddr) ?_ ?_ hoff
      · unfold State.bindable
        split
        next c hc => simpa using (hbound c hc).1
        next => rfl
      · unfold State.offsetFits
        split
        next c o hc ho =>
          obtain ⟨hlow, hhigh, hcur⟩ := (hbound c hc).2 o ho
          dsimp only
          simp only [Bool.and_eq_true, decide_eq_true_eq, Option.isSome_iff_ne_none]
          exact ⟨⟨by omega, hhigh⟩, hcur⟩
        next => rfl
  · rw [d.package_result.1, field_toNat (by decide)]
    have := lastResultCode_lt d.lastResult
    omega
  · exact d.package_result.2
  · intro hempty
    have := lastResultCode_lt d.lastResult
    rw [Device.package_empty hempty]
    simp only [List.map_cons, List.map_nil, field_toNat (lo := 0) (width := 5) (v := lastResultCode d.lastResult) (by decide)]
    rw [Nat.mod_eq_of_lt (by omega), Nat.pow_zero, Nat.mul_one]
    rfl

end Sys2Proof.Machine
end

section
/-! TRANSLATE and the translations, flags and watch entries that it and a mark's record hold (R37, R39, R41, R143, R152,
R153). -/

namespace Sys2Proof.Machine

/-! ## Translations (R37, R39) -/

theorem labelDiff_self (fday : Nat) (a : Int) : labelDiff fday a a = 0 := by
  unfold labelDiff
  simp

/-- The anchor's own label translates to its ST, whatever the drift (R37). -/
theorem anchorInstant_self (fday : Nat) {rate : Rate} (a : Tie) (drift : Int) (h : rate.legal = true) :
    anchorInstant fday rate a drift a.label 0 = a.st := by
  have hd := Rate.d_pos h
  unfold anchorInstant
  rw [labelDiff_self]
  have hy : (0 : Int) < 256 * rate.d * 1000000000 := by omega
  simp only [mul_zero, Nat.cast_zero, zero_mul, zero_add]
  rw [Int.ediv_eq_zero_of_lt hy.le (by omega), add_zero]

theorem translateUnbound_none {d : Device} (h : d.anchor = none) (label sub : Nat) :
    translateUnbound d label sub = .noAnchor := by
  rw [translateUnbound, h]

theorem translateUnbound_some {d : Device} {a : Tie} (h : d.anchor = some a) (label sub : Nat) :
    translateUnbound d label sub =
      if anchorInstant d.fmt.fday d.rate a d.drift label sub < 0 then ⟨some 0, true, false, false⟩
      else if 2 ^ 64 ≤ anchorInstant d.fmt.fday d.rate a d.drift label sub then ⟨some (2 ^ 64 - 1), true, false, false⟩
      else ⟨some (anchorInstant d.fmt.fday d.rate a d.drift label sub).toNat, false, false, false⟩ := by
  rw [translateUnbound, h]

/-- With no drift the translation is the exact instant rounded half up to a tick (R37). -/
theorem anchorInstant_rounds (fday : Nat) {rate : Rate} (a : Tie) (label sub : Nat) (h : rate.legal = true) :
    2 * (anchorInstant fday rate a 0 label sub - a.st) * (256 * rate.d) ≤
        2 * (256 * labelDiff fday label a.label + sub) * rate.n + 256 * rate.d ∧
      2 * (256 * labelDiff fday label a.label + sub) * rate.n <
        2 * (anchorInstant fday rate a 0 label sub - a.st) * (256 * rate.d) + 256 * rate.d := by
  have hd := Rate.d_pos h
  unfold anchorInstant
  dsimp only
  generalize 256 * labelDiff fday label a.label + (sub : Int) = k
  have hy : (0 : Int) < 2 * (256 * rate.d * 1000000000) := by omega
  have hlow := Int.ediv_mul_le (2 * (k * rate.n * (1000000000 + 0)) + 256 * rate.d * 1000000000) hy.ne'
  have hhigh := Int.lt_ediv_add_one_mul_self (2 * (k * rate.n * (1000000000 + 0)) + 256 * rate.d * 1000000000) hy
  generalize (2 * (k * rate.n * (1000000000 + 0)) + 256 * rate.d * 1000000000) / (2 * (256 * (rate.d : Int) * 1000000000)) =
    q at hlow hhigh ⊢
  constructor <;> nlinarith

theorem translateBound_none {ch : Channel} {o : Int} {label : Nat} (h : ch.segmentForIndex (boundIndex ch o label) = none)
    (sub : Nat) : translateBound ch o label sub = .noAnchor := by
  simp only [translateBound, h]

theorem translateBound_some {ch : Channel} {o : Int} {label : Nat} {g : Segment} {stale : Bool}
    (h : ch.segmentForIndex (boundIndex ch o label) = some (g, stale)) (sub : Nat) :
    translateBound ch o label sub =
      { st := some (if g.positionInstant (boundIndex ch o label) sub < 0 then 0
          else instant64 (g.positionInstant (boundIndex ch o label) sub).toNat)
        clamped := decide (g.positionInstant (boundIndex ch o label) sub < 0)
        stale := stale
        uncertain := decide ((ch.frame : Int) < boundIndex ch o label) } := by
  simp only [translateBound, h]

/-! ## Flags (R143) -/

theorem testBit_eq_of_div {n i : Nat} {b : Bool} (h : n / 2 ^ i % 2 = b.toNat) : n.testBit i = b := by
  rw [Nat.testBit_eq_decide_div_mod_eq, h]
  cases b <;> rfl

theorem MarkFlags.byte_eq (f : MarkFlags) :
    f.byte = f.noAnchor.toNat + 2 * f.uncertain.toNat + 4 * f.refNotLocked.toNat + 8 * f.driftClamped.toNat +
      16 * f.stClamped.toNat + 32 * f.stale.toNat + 64 * f.adjusted.toNat + 128 * f.jamInProgress.toNat := by
  have hbit (b : Bool) (n : Nat) : (if b then n else 0) = n * b.toNat := by cases b <;> simp
  simp only [MarkFlags.byte, hbit, one_mul]

/-- Each flag has its bit of the record's flag byte (R191). -/
theorem MarkFlags.byte_bits (f : MarkFlags) :
    f.byte < 256 ∧ f.byte.testBit 0 = f.noAnchor ∧ f.byte.testBit 1 = f.uncertain ∧ f.byte.testBit 2 = f.refNotLocked ∧
      f.byte.testBit 3 = f.driftClamped ∧ f.byte.testBit 4 = f.stClamped ∧ f.byte.testBit 5 = f.stale ∧
      f.byte.testBit 6 = f.adjusted ∧ f.byte.testBit 7 = f.jamInProgress := by
  have h0 := f.noAnchor.toNat_le
  have h1 := f.uncertain.toNat_le
  have h2 := f.refNotLocked.toNat_le
  have h3 := f.driftClamped.toNat_le
  have h4 := f.stClamped.toNat_le
  have h5 := f.stale.toNat_le
  have h6 := f.adjusted.toNat_le
  have h7 := f.jamInProgress.toNat_le
  rw [f.byte_eq]
  refine ⟨by omega, ?_, ?_, ?_, ?_, ?_, ?_, ?_, ?_⟩ <;> exact testBit_eq_of_div (by omega)

theorem Device.uncertainByState_iff (d : Device) :
    d.uncertainByState = true ↔ d.state = .settling ∨ d.state = .drifting ∨ d.state = .absent ∨
      (d.state = .jamming ∧ ∃ j, d.jam = some j ∧ (j.remembered = .settling ∨ j.remembered = .drifting)) := by
  unfold Device.uncertainByState
  cases d.state <;> cases d.jam <;> simp

/-! ## Stamping moves no translation (R63, R141) -/

/-- What a stamp leaves of a channel: all that a translation and a watch entry read. -/
theorem Channel.stamp_keeps (ch : Channel) (w : Word) :
    (ch.stamp w).kind = ch.kind ∧ (ch.stamp w).state = ch.state ∧ (ch.stamp w).cfg.fmt = ch.cfg.fmt ∧
      (ch.stamp w).cfg.start = ch.cfg.start ∧ (ch.stamp w).cur = ch.cur ∧ (ch.stamp w).prior = ch.prior ∧
      (ch.stamp w).frame = ch.frame := by
  unfold Channel.stamp
  split
  · exact ⟨rfl, rfl, rfl, rfl, rfl, rfl, rfl⟩
  · exact ⟨rfl, rfl, rfl, rfl, rfl, rfl, rfl⟩
  · split <;> exact ⟨rfl, rfl, rfl, rfl, rfl, rfl, rfl⟩

theorem Channel.segmentForIndex_congr {ch ch' : Channel} (hcur : ch'.cur = ch.cur) (hprior : ch'.prior = ch.prior) (k : Int) :
    ch'.segmentForIndex k = ch.segmentForIndex k := by
  unfold Channel.segmentForIndex
  rw [hcur, hprior]

theorem Channel.segmentAt_congr {ch ch' : Channel} (hcur : ch'.cur = ch.cur) (hprior : ch'.prior = ch.prior) (t : Int) :
    ch'.segmentAt t = ch.segmentAt t := by
  unfold Channel.segmentAt
  rw [hcur, hprior]

theorem Channel.labelAt_congr {ch ch' : Channel} (hstart : ch'.cfg.start = ch.cfg.start) (hfmt : ch'.cfg.fmt = ch.cfg.fmt)
    (k : Int) : ch'.labelAt k = ch.labelAt k := by
  unfold Channel.labelAt
  rw [hstart, hfmt]

theorem translateBound_stamp (ch : Channel) (w : Word) (o : Int) (label sub : Nat) :
    translateBound (ch.stamp w) o label sub = translateBound ch o label sub := by
  obtain ⟨-, -, hfmt, hstart, hcur, hprior, hframe⟩ := ch.stamp_keeps w
  have hindex : boundIndex (ch.stamp w) o label = boundIndex ch o label := by
    unfold boundIndex
    rw [hfmt, hframe, Channel.labelAt_congr hstart hfmt]
  unfold translateBound
  dsimp only
  rw [hindex, Channel.segmentForIndex_congr hcur hprior, hframe]

theorem watchEntry_stamp (c : Fin 16) (ch : Channel) (w : Word) (t : Nat) :
    watchEntry c (ch.stamp w) t = watchEntry c ch t := by
  obtain ⟨hkind, hstate, hfmt, hstart, hcur, hprior, -⟩ := ch.stamp_keeps w
  unfold watchEntry
  rw [Channel.segmentAt_congr hcur hprior, hkind, hstate, hfmt]
  simp only [Channel.labelAt_congr hstart hfmt]

/-! ## Watch entries (R41) -/

section
variable (c : Fin 16) {ch : Channel} {t : Nat} {g : Segment} {stale : Bool}

theorem watchEntry_none (h : ch.segmentAt t = none) : watchEntry c ch t = none := by
  rw [watchEntry, h]

theorem watchEntry_picture (h : ch.segmentAt t = some (g, stale)) (hkind : ch.kind = .picture) :
    watchEntry c ch t =
      some ⟨c, false, stale, ch.state != .running, ch.cfg.fmt, g.subframe t (g.edgeAt t), ch.labelAt (g.edgeAt t)⟩ := by
  rw [watchEntry, h, hkind]

theorem watchEntry_sample_before (h : ch.segmentAt t = some (g, stale)) (hkind : ch.kind = .sample)
    (hk : g.edgeAt t < 0) :
    watchEntry c ch t = some ⟨c, true, stale, ch.state != .running, ch.cfg.fmt, 0, 0⟩ := by
  rw [watchEntry, h, hkind]
  exact if_pos hk

theorem watchEntry_sample (h : ch.segmentAt t = some (g, stale)) (hkind : ch.kind = .sample) (hk : 0 ≤ g.edgeAt t) :
    watchEntry c ch t =
      some ⟨c, true, stale, ch.state != .running, ch.cfg.fmt, g.subframe t (g.edgeAt t), (g.edgeAt t).toNat⟩ := by
  rw [watchEntry, h, hkind]
  exact if_neg hk.not_gt

end

theorem ChanState.bne_running (st : ChanState) : (st != .running) = decide (st ≠ .running) := by cases st <;> rfl

/-! ## The flags of a slot's mark (R143) -/

theorem slotMarkFlags_iff (ref : RefState) (d : Device) (tr : Translation) (adjusted : Bool) :
    ((slotMarkFlags ref d tr adjusted).noAnchor = true ↔ tr.st = none) ∧
      ((slotMarkFlags ref d tr adjusted).uncertain = true ↔ d.uncertainByState = true ∨ tr.uncertain = true) ∧
      ((slotMarkFlags ref d tr adjusted).refNotLocked = true ↔ ref ≠ .locked) ∧
      ((slotMarkFlags ref d tr adjusted).driftClamped = true ↔ d.boundTo = none ∧ d.driftClamped = true) ∧
      ((slotMarkFlags ref d tr adjusted).jamInProgress = true ↔ d.state = .jamming) := by
  refine ⟨?_, Bool.or_eq_true_iff, ?_, ?_, ?_⟩
  · exact Option.isNone_iff_eq_none
  · show (ref != .locked) = true ↔ _
    cases ref <;> decide
  · show (d.boundTo.isNone && d.driftClamped) = true ↔ _
    rw [Bool.and_eq_true, Option.isNone_iff_eq_none]
  · show (d.state == .jamming) = true ↔ _
    cases d.state <;> decide

/-! ## The mark that an order's words name (R145, R152) -/

section
variable (s : State) (w0 w1 sub : Word)

theorem State.orderMark_host : s.orderMark true w0 w1 sub = .ok (.host (wide w0 w1)) := if_pos rfl

variable {w0 w1 sub}

theorem State.orderMark_outOfRange (h : 47 < w0.toNat ∨ 255 < sub.toNat) :
    s.orderMark false w0 w1 sub = .error .refusedRange := by
  unfold State.orderMark
  rw [if_neg Bool.false_ne_true]
  split
  · rfl
  next i hi =>
    have hlt : w0.toNat < 48 := by
      by_contra hge
      rw [slotOf_eq_none (not_lt.mp hge)] at hi
      cases hi
    exact if_pos (by omega)

variable {i : Fin 48}

theorem State.orderMark_empty (hi : w0.toNat = i.val) (hsub : sub.toNat ≤ 255) (he : (s.slot i).state = .empty) :
    s.orderMark false w0 w1 sub = .error .refusedState := by
  simp only [State.orderMark, Bool.false_eq_true, if_false, slotOf_eq_some hi, if_neg hsub.not_gt, if_pos he]

theorem State.orderMark_invalid (hi : w0.toNat = i.val) (hsub : sub.toNat ≤ 255) (he : (s.slot i).state ≠ .empty)
    (hl : (s.slot i).fmt.valid (labelOfWord w1) = false) : s.orderMark false w0 w1 sub = .error .refusedRange := by
  simp only [State.orderMark, Bool.false_eq_true, if_false, slotOf_eq_some hi, if_neg hsub.not_gt, if_neg he,
    Fmt.enter_of_invalid hl]

theorem State.orderMark_slot (hi : w0.toNat = i.val) (hsub : sub.toNat ≤ 255) (he : (s.slot i).state ≠ .empty)
    (hl : (s.slot i).fmt.valid (labelOfWord w1) = true) :
    s.orderMark false w0 w1 sub =
      .ok (.slot i ((s.slot i).fmt.indexOf ((s.slot i).fmt.moved (labelOfWord w1))) sub.toNat
        ((s.slot i).fmt.skipped (labelOfWord w1))) := by
  simp only [State.orderMark, Bool.false_eq_true, if_false, slotOf_eq_some hi, if_neg hsub.not_gt, if_neg he,
    Fmt.enter_of_valid hl]

end

/-! ## The TRANSLATE order (R152, R153) -/

/-- A range check of R152 fails. -/
def TranslateOutOfRange (o : Order) : Prop :=
  (o.stForm = false ∧ (47 < (o.p 0).toNat ∨ 255 < (o.p 2).toNat)) ∨ 4 < (o.p 3).toNat ∨
    (∃ n ∈ channelBytes (o.p 4) (o.p 3).toNat, 15 < n) ∨ ¬(channelBytes (o.p 4) (o.p 3).toNat).Nodup

theorem translateInRange_outOfRange {o : Order} (h : TranslateOutOfRange o) : translateInRange o = false := by
  rcases h with ⟨hform, hslot | hsub⟩ | hcount | hlisted
  · simp [translateInRange, hform, slotOf_eq_none (show 48 ≤ (o.p 0).toNat from hslot)]
  · simp [translateInRange, hform, hsub.not_ge]
  · simp [translateInRange, translateChannels, hcount.not_ge]
  · simp [translateInRange, translateChannels, distinctChannels_outOfRange hlisted]

/-- In range, the channel bytes name distinct channels, and a slot form names a slot and a subframe. -/
theorem translate_operands {o : Order} (h : ¬TranslateOutOfRange o) :
    translateInRange o = true ∧ (o.stForm = false → (o.p 2).toNat ≤ 255) ∧
      ∃ chans, translateChannels o = some chans ∧ chans.map Fin.val = channelBytes (o.p 4) (o.p 3).toNat := by
  obtain ⟨hform, hrest⟩ := not_or.mp h
  obtain ⟨hcount, hlisted⟩ := not_or.mp hrest
  obtain ⟨chans, hchans⟩ := exists_distinctChannels hlisted
  have hnamed : translateChannels o = some chans := by rw [translateChannels, if_pos (not_lt.mp hcount), hchans]
  have hslot (hf : o.stForm = false) : (o.p 0).toNat < 48 ∧ (o.p 2).toNat ≤ 255 := by
    have := mt (And.intro hf) hform
    omega
  refine ⟨?_, fun hf => (hslot hf).2, chans, hnamed, (distinctChannels_eq_some_iff.mp hchans).2⟩
  cases hf : o.stForm with
  | true => simp [translateInRange, hf, hnamed]
  | false =>
    obtain ⟨hlt, hsub⟩ := hslot hf
    simp [translateInRange, hf, hnamed, slotOf_eq_some (i := ⟨_, hlt⟩) rfl, hsub]

theorem translateOrder_outOfRange (s : State) {o : Order} (h : TranslateOutOfRange o) :
    translateOrder o s = s.report .refusedRange := by
  rw [translateOrder, translateInRange_outOfRange h, if_neg Bool.false_ne_true]

theorem translateOrder_refused (s : State) {o : Order} {code : Result} (h : translateInRange o = true)
    (hm : s.orderMark o.stForm (o.p 0) (o.p 1) (o.p 2) = .error code) : translateOrder o s = s.report code := by
  rw [translateOrder, if_pos h, hm]

theorem translateOrder_answered (s : State) {o : Order} {m : MarkOrigin} {chans : List (Fin 16)}
    (h : translateInRange o = true) (hm : s.orderMark o.stForm (o.p 0) (o.p 1) (o.p 2) = .ok m)
    (hc : translateChannels o = some chans) :
    translateOrder o s =
      s.report .done 0 (wordsAt (s.oe.block + 36)
        (translateResults (s.markReading m).1 s.tb.gen (s.markReading m).2.1 (s.watchEntries chans (s.markReading m).1))) := by
  rw [translateOrder, if_pos h, hm, hc]
  rfl

theorem exec_translate_taken {s : State} {o : Order} (hstep : s.oe.step = .taken o) (hk : o.kind = .translate) :
    exec .translate s = .next (translateOrder o s) :=
  congrArg Host.Outcome.next (s.handOrder_taken _ _ o hstep hk)

/-- The eleven result words, the third as one number (R153, R190). -/
theorem translateResults_eq (st : Option Nat) (gen : BitVec 16) (flags : MarkFlags) {watch : List Watch}
    (hw : watch.length ≤ 4) :
    translateResults st gen flags watch =
      [BitVec.ofNat 32 (st.getD 0), BitVec.ofNat 32 (st.getD 0 / 2 ^ 32),
        BitVec.ofNat 32 (gen.toNat + 2 ^ 16 * flags.byte + 2 ^ 24 * watch.length)] ++
        watch.flatMap Watch.words ++ List.replicate (8 - 2 * watch.length) 0 := by
  have hword : orAll [field 0 16 gen.toNat, field 16 8 flags.byte, field 24 3 watch.length] =
      BitVec.ofNat 32 (gen.toNat + 2 ^ 16 * flags.byte + 2 ^ 24 * watch.length) := by
    refine BitVec.eq_of_toNat_eq ?_
    have hsum := orAll_toNat [(0, 16, gen.toNat), (16, 8, flags.byte), (24, 3, watch.length)] (start := 0) (by simp [FieldsFit])
    simp only [List.map_cons, List.map_nil, List.sum_cons, List.sum_nil, Field.value_mk] at hsum
    refine hsum.trans ?_
    have hgen := gen.isLt
    have hbyte := flags.byte_bits.1
    rw [BitVec.toNat_ofNat, Nat.mod_eq_of_lt hgen, Nat.mod_eq_of_lt (show flags.byte < 2 ^ 8 from hbyte)]
    omega
  rw [translateResults, hword, flatMap_length_const Watch.words (n := 2) (fun _ => rfl)]
  rfl

/-- What a TRANSLATE answers: its result words, and DONE (R153). -/
theorem translate_answered (s : State) (st : Option Nat) (flags : MarkFlags) {watch : List Watch} (hw : watch.length ≤ 4) :
    s.report .done 0 (wordsAt (s.oe.block + 36) (translateResults st s.tb.gen flags watch)) =
      { s with
        oe :=
          { s.oe with
            step :=
              .terminating
                (wordsAt (s.oe.block + 36)
                  ([BitVec.ofNat 32 (st.getD 0), BitVec.ofNat 32 (st.getD 0 / 2 ^ 32),
                    BitVec.ofNat 32 (s.tb.gen.toNat + 2 ^ 16 * flags.byte + 2 ^ 24 * watch.length)] ++
                    watch.flatMap Watch.words ++ List.replicate (8 - 2 * watch.length) 0)) .done 0 } } := by
  rw [translateResults_eq st _ flags hw]
  rfl

theorem hostMarkFlags_byte (ref : RefState) : (hostMarkFlags ref).byte = if ref = .locked then 0 else 4 := by
  cases ref <;> rfl

/-! ## The obligation -/

/-- The slot form answers with the mark's reading of its label (R152, R153). -/
theorem exec_translate_slot {s : State} {o : Order} {i : Fin 48} {chans : List (Fin 16)} (hstep : s.oe.step = .taken o)
    (hk : o.kind = .translate) (hin : ¬TranslateOutOfRange o) (hform : o.stForm = false) (hi : (o.p 0).toNat = i.val)
    (he : (s.slot i).state ≠ .empty) (hl : (s.slot i).fmt.valid (labelOfWord (o.p 1)) = true)
    (hchans : translateChannels o = some chans) :
    let d := s.slot i
    let tr := s.translateSlot d (d.fmt.indexOf (d.fmt.moved (labelOfWord (o.p 1)))) (o.p 2).toNat
    exec .translate s =
      .next (s.report .done 0 (wordsAt (s.oe.block + 36)
        (translateResults tr.st s.tb.gen (slotMarkFlags s.tb.ref d tr (d.fmt.skipped (labelOfWord (o.p 1))))
          (s.watchEntries chans tr.st)))) := by
  obtain ⟨hrange, hsub, -⟩ := translate_operands hin
  have hm := s.orderMark_slot hi (hsub hform) he hl
  rw [← hform] at hm
  rw [exec_translate_taken hstep hk, translateOrder_answered s hrange hm hchans]
  rfl

/-- The ST form answers with the ST that it gives (R152, R153). -/
theorem exec_translate_st {s : State} {o : Order} {chans : List (Fin 16)} (hstep : s.oe.step = .taken o)
    (hk : o.kind = .translate) (hin : ¬TranslateOutOfRange o) (hform : o.stForm = true)
    (hchans : translateChannels o = some chans) :
    exec .translate s =
      .next (s.report .done 0 (wordsAt (s.oe.block + 36)
        (translateResults (some (wide (o.p 0) (o.p 1))) s.tb.gen (hostMarkFlags s.tb.ref)
          (s.watchEntries chans (some (wide (o.p 0) (o.p 1))))))) := by
  have hm := s.orderMark_host (o.p 0) (o.p 1) (o.p 2)
  rw [← hform] at hm
  rw [exec_translate_taken hstep hk, translateOrder_answered s (translate_operands hin).1 hm hchans]
  rfl

theorem exec_translate_refused {s : State} {o : Order} {code : Result} (hstep : s.oe.step = .taken o)
    (hk : o.kind = .translate) (hin : ¬TranslateOutOfRange o)
    (hm : s.orderMark o.stForm (o.p 0) (o.p 1) (o.p 2) = .error code) :
    exec .translate s = .next (s.report code) := by
  rw [exec_translate_taken hstep hk, translateOrder_refused s (translate_operands hin).1 hm]

theorem watchEntries_length_of_named (s : State) {o : Order} {chans : List (Fin 16)}
    (hchans : translateChannels o = some chans) (st : Option Nat) : (s.watchEntries chans st).length ≤ 4 := by
  have hlen := translateChannels_length o
  rw [hchans] at hlen
  exact (s.watchEntries_length chans st).trans hlen

/-- Settles O52: the TRANSLATE row by its order's checks and its two forms, then each translation, the flags and the
watch entries by the equations of their definitions. -/
theorem translate : Obligations.Translate := by
  refine ⟨fun s o hstep hk => ⟨fun hout => ?refused, fun i hin hform hi => ⟨fun he => ?empty, fun he hl => ?invalid,
      fun he hl => ?slotForm⟩, fun hin hform => ?stForm⟩,
    fun s d label sub => ⟨fun hb => ?unboundSlot, fun c hc => ⟨fun ho => ?noOffset, fun o ho => ?boundSlot⟩⟩,
    fun d label sub => ⟨fun ha => translateUnbound_none ha label sub, fun a ha => ⟨rfl, ?_, ?_, ?_⟩⟩,
    fun d a ha hrate hlt => ?atAnchor,
    fun fday rate a label sub hrate => anchorInstant_rounds fday a label sub hrate,
    fun ch o label sub => ⟨rfl, fun h => translateBound_none h sub, fun g stale h => ⟨fun ht => ?_, fun h0 ht => ?_⟩⟩,
    fun ref d tr adjusted => ?flags, MarkFlags.byte_bits,
    fun c ch t => ⟨watchEntry_none c, fun g stale h => ⟨fun hk => ?_, fun hk hlt => ?_, fun hk hle => ?_⟩⟩,
    fun ch w c o label sub t => ⟨translateBound_stamp ch w o label sub, watchEntry_stamp c ch w t⟩⟩
  case refused =>
    rw [exec_translate_taken hstep hk, translateOrder_outOfRange s hout]
    rfl
  case empty =>
    refine exec_translate_refused hstep hk hin ?_
    rw [hform]
    exact s.orderMark_empty hi ((translate_operands hin).2.1 hform) he
  case invalid =>
    refine exec_translate_refused hstep hk hin ?_
    rw [hform]
    exact s.orderMark_invalid hi ((translate_operands hin).2.1 hform) he hl
  case slotForm =>
    obtain ⟨-, -, chans, hchans, hval⟩ := translate_operands hin
    refine ⟨chans, hval, ?_⟩
    rw [exec_translate_slot hstep hk hin hform hi he hl hchans,
      translate_answered s _ _ (watchEntries_length_of_named s hchans _)]
    generalize s.translateSlot _ _ _ = tr
    obtain ⟨st, -, -, -⟩ := tr
    cases st with
    | none => rfl
    | some t => rfl
  case stForm =>
    obtain ⟨-, -, chans, hchans, hval⟩ := translate_operands hin
    refine ⟨chans, hval, ?_⟩
    rw [exec_translate_st hstep hk hin hform hchans,
      translate_answered s _ _ (watchEntries_length_of_named s hchans _), hostMarkFlags_byte]
    rfl
  case unboundSlot => rw [State.translateSlot, hb]
  case noOffset =>
    rw [State.translateSlot, hc, ho]
    rfl
  case boundSlot => rw [State.translateSlot, hc, ho]
  case atAnchor =>
    rw [translateUnbound_some ha, anchorInstant_self _ a _ hrate, if_neg (by omega), if_neg (by omega), Int.toNat_natCast]
  case flags =>
    obtain ⟨hnone, huncertain, href, hdrift, hjam⟩ := slotMarkFlags_iff ref d tr adjusted
    refine ⟨hnone, huncertain.trans ?_, href, hdrift, Iff.rfl, Iff.rfl, Iff.rfl, hjam⟩
    rw [d.uncertainByState_iff, or_assoc, or_assoc, or_assoc]
    exact or_congr_right (or_congr_right (or_congr_right or_comm))
  · intro ht
    rw [translateUnbound_some ha, if_pos ht]
  · intro h0 ht
    rw [translateUnbound_some ha, if_neg h0.not_gt, if_neg ht.not_ge]
  · intro ht
    rw [translateUnbound_some ha, if_neg (by omega), if_pos ht]
  · have hneg : g.positionInstant (boundIndex ch o label) sub < 0 := ht
    rw [translateBound_some h, if_pos hneg, decide_eq_true hneg]
  · have hneg : ¬g.positionInstant (boundIndex ch o label) sub < 0 := h0.not_gt
    have hlt : (g.positionInstant (boundIndex ch o label) sub).toNat < 2 ^ 64 := by
      have : g.positionInstant (boundIndex ch o label) sub < 2 ^ 64 := ht
      omega
    rw [translateBound_some h, if_neg hneg, decide_eq_false hneg, instant64_of_lt hlt]
    rfl
  · rw [watchEntry_picture c h hk, ChanState.bne_running]
    rfl
  · rw [watchEntry_sample_before c h hk hlt, ChanState.bne_running]
  · rw [watchEntry_sample c h hk hle, ChanState.bne_running]

end Sys2Proof.Machine
end

section
/-! RESET, the state after it, the oscillator tick and the making of one word access: the rows that the others start
from (R1, R20, R163, R175, R181). -/

namespace Sys2Proof.Machine

variable {s : State}

/-! ## The state after reset -/

/-- Settles O4: each invariant of the reset state by the lemma of its own unit. -/
theorem resetMeetsTheInvariants : Obligations.ResetMeetsTheInvariants := by
  obtain ⟨hroster, hurgent, hbound, hchans⟩ := State.reset_population
  obtain ⟨hareas, hkept⟩ := State.reset_hands [] (false, false) 0 []
  exact ⟨Memory.wf_reset, TimeBase.reset_wf, LogUnit.reset_wf, State.reset_stockWF, hchans, hbound, hroster, hurgent,
    hareas, hkept⟩

/-- A channel after reset has no pulse and no timecode word, so its lines are low (R66). -/
theorem State.reset_lines (c : Fin 16) : State.reset.pulseLine c = false ∧ State.reset.timecodeLine c = false := by
  unfold State.pulseLine State.timecodeLine
  rw [State.reset_chan]
  exact ⟨rfl, rfl⟩

theorem LogUnit.reset_action (k : Fin 16) : LogUnit.reset.actions.get k = ⟨false, 0, .none, [], false⟩ := by
  simp [LogUnit.reset, Action.reset, Vector.get]

/-- Settles O2: the reset tables entry by entry; every channel, slot and action entry is its table's one record. -/
theorem resetValues : Obligations.ResetValues := by
  refine ⟨⟨rfl, rfl, rfl, rfl, rfl, rfl, rfl, rfl, rfl, rfl, rfl, rfl, rfl, rfl⟩, fun c => ?channel, fun i => ?slot, rfl,
    ⟨rfl, rfl, rfl, rfl, rfl, rfl, rfl, rfl⟩, ⟨LogUnit.reset_action, rfl, rfl, rfl, rfl, rfl, rfl, rfl⟩, rfl, rfl, rfl⟩
  case channel =>
    obtain ⟨hpulse, htimecode⟩ := State.reset_lines c
    rw [State.reset_chan]
    exact ⟨rfl, rfl, rfl, rfl, rfl, rfl, rfl, rfl, rfl, rfl, rfl, hpulse, htimecode⟩
  case slot =>
    rw [State.reset_slot]
    exact ⟨rfl, rfl, rfl, rfl, rfl, rfl, rfl, rfl, rfl, rfl, rfl, rfl, rfl, rfl, rfl, rfl, rfl, rfl, rfl, rfl, rfl⟩

/-! ## The oscillator tick (R1) -/

theorem Link.tick_eq (lc : Link) : lc.tick = { lc with timer := if lc.phase = .idle then lc.timer else lc.timer + 1 } := by
  unfold Link.tick
  split
  next h => rw [if_pos h]
  all_goals
    rename_i h
    rw [if_neg (by rw [h]; nofun)]

/-- With the exact sum not negative and its whole part below 2^64, a tick splits it into ST and remainder (R1). -/
theorem TimeBase.tick_eq {tb : TimeBase}
    (h0 : 0 ≤ (tb.st : Int) * 1000000000 + tb.rem + (1000000000 + tb.trim + tb.slew))
    (hlt : ((tb.st : Int) * 1000000000 + tb.rem + (1000000000 + tb.trim + tb.slew)) / 1000000000 < 2 ^ 64) :
    tb.tick =
      { tb with
        st := (((tb.st : Int) * 1000000000 + tb.rem + (1000000000 + tb.trim + tb.slew)) / 1000000000).toNat
        rem := (((tb.st : Int) * 1000000000 + tb.rem + (1000000000 + tb.trim + tb.slew)) % 1000000000).toNat } := by
  unfold TimeBase.tick TimeBase.nextSum
  generalize (tb.st : Int) * 1000000000 + tb.rem + (1000000000 + tb.trim + tb.slew) = sum at h0 hlt ⊢
  have hst : sum.toNat / 1000000000 = (sum / 1000000000).toNat := by omega
  have hrem : sum.toNat % 1000000000 = (sum % 1000000000).toNat := by omega
  rw [hst, hrem, instant64_of_lt (by omega)]

theorem exec_oscillatorTick (s : State) : exec .oscillatorTick s = .next { s with tb := s.tb.tick, lc := s.lc.tick } := rfl

/-- Settles O5: the tick is the exact sum split; with T and S 0 the sum is one tick more than ST and the remainder. -/
theorem oscillatorTick : Obligations.OscillatorTick := by
  refine ⟨fun s h0 hlt => ?_, fun s t htrim hslew hrem hst ht => ?_⟩
  · rw [exec_oscillatorTick, TimeBase.tick_eq h0 hlt, Link.tick_eq]
  · rw [exec_oscillatorTick, TimeBase.tick_eq (by omega) (by omega)] at ht
    cases ht
    constructor
    · show (_ / _ : Int).toNat = _
      omega
    · show (_ % _ : Int).toNat = _
      omega

/-! ## RESET (R181) -/

/-- A cut-off list of writes changes bytes of its own words only. -/
theorem Memory.read_writeCut_other (ws : List (Nat × Word)) (k : Nat) (torn : Word) (m : List Host.Cell) (x : Nat)
    (h : ∀ p ∈ ws, ∀ i < 4, x ≠ p.1 + i) : Memory.read (Memory.writeCut m ws k torn) x = Memory.read m x := by
  refine Memory.read_writeAll_other _ _ _ fun p hp => ?_
  rcases List.mem_append.mp hp with hmade | htorn
  · exact h p (List.mem_of_mem_take hmade)
  · obtain ⟨q, hq, rfl⟩ := List.mem_map.mp htorn
    exact h q (List.mem_of_mem_drop (List.mem_of_mem_take hq))

theorem State.read_cutByReset (s : State) {ws : List (Nat × Word)} {x : Nat} (h : ∀ p ∈ ws, ∀ i < 4, x ≠ p.1 + i) :
    Memory.read (s.cutByReset ws).mem x = Memory.read s.mem x := by
  cases ws with
  | nil => rfl
  | cons p ws => exact Memory.read_writeCut_other _ _ _ _ _ h

theorem State.cutByReset_pending (s : State) (ws : List (Nat × Word)) : (s.cutByReset ws).pending = s.pending := by
  cases ws <;> rfl

/-- The state after every memory operation in progress has been cut off. -/
def State.cutOff (s : State) : State :=
  ((s.cutByReset s.resetEngineWrites).cutByReset s.resetExchangeWrites).cutByReset s.resetPageWrites

theorem exec_reset (s : State) (a b : Bool) :
    exec (.reset a b) s =
      s.guarded ((s.resetEngineWrites ++ s.resetExchangeWrites ++ s.resetPageWrites).map Prod.fst)
        { State.reset with mem := s.cutOff.mem, straps := (a, b), free := s.cutOff.free, pending := s.cutOff.pending } := rfl

theorem mem_wordsAt {a : Nat} {ws : List Word} {p : Nat × Word} (h : p ∈ wordsAt a ws) :
    ∃ k < ws.length, p.1 = a + 4 * k :=
  wordsAt_addr a ws p h

/-- The words that the engine may still write: a termination word, result words, or words of an image. -/
theorem State.mem_resetEngineWrites {p : Nat × Word} (h : p ∈ s.resetEngineWrites) :
    (p.1 = s.oe.block + 12 ∧
      ((∃ got, s.oe.step = .fetching got) ∨ (∃ o, s.oe.step = .taken o) ∨
        ∃ results code n, s.oe.step = .terminating results code n)) ∨
    (∃ results code n, s.oe.step = .terminating results code n ∧ p ∈ results) ∨
    (∃ a image, s.oe.step = .imaging a image ∧ ∃ k < image.length, p.1 = a + 4 * k) := by
  have taken {b : Nat} (hp : p ∈ takenWrites b) : p.1 = b + 12 := by rw [List.mem_singleton.mp hp]
  unfold State.resetEngineWrites at h
  split at h
  next got hstep =>
    have hp : p ∈ takenWrites s.oe.block := by
      dsimp only at h
      split at h
      · split at h
        · split at h
          · exact h
          · cases h
        · cases h
      · cases h
    exact .inl ⟨taken hp, .inl ⟨got, hstep⟩⟩
  next o hstep => exact .inl ⟨taken h, .inr (.inl ⟨o, hstep⟩)⟩
  next =>
    unfold State.engineWrites at h
    split at h
    next a image hstep => exact .inr (.inr ⟨a, image, hstep, mem_wordsAt h⟩)
    next results code n hstep =>
      rcases List.mem_append.mp h with hresult | hword
      · exact .inr (.inl ⟨results, code, n, hstep, hresult⟩)
      · refine .inl ⟨?_, .inr (.inr ⟨results, code, n, hstep⟩)⟩
        rw [List.mem_singleton.mp hword]
    all_goals cases h

/-- The words that an EXCHANGE may still write: what is left of the outgoing package. -/
theorem State.mem_resetExchangeWrites {p : Nat × Word} (h : p ∈ s.resetExchangeWrites) :
    ∃ e a image, s.exch = some e ∧ e.phase = .writing a image ∧ ∃ k < image.length, p.1 = a + 4 * k := by
  unfold State.resetExchangeWrites at h
  split at h
  next e he =>
    split at h
    next a image hphase => exact ⟨e, a, image, he, hphase, mem_wordsAt h⟩
    all_goals cases h
  next => cases h

/-- The words that a record write may still make: what is left of the record, and the record count. -/
theorem mem_recordLeft {q : OpenPage} {r : TakeRecord} {made : Nat} {p : Nat × Word} (h : p ∈ recordLeft q r made) :
    p.1 = q.addr + 8 ∨ ∃ k < r.length, made ≤ k ∧ p.1 = q.addr + 16 + 4 * (q.used + k) := by
  unfold recordLeft recordWrites at h
  rw [List.drop_append] at h
  rcases List.mem_append.mp h with hword | hcount
  · exact .inr (mem_recordWordsLeft q r made p hword)
  · left
    rw [List.mem_singleton.mp (List.mem_of_mem_drop hcount)]

/-- The words that the page writer may still write: a claim's header, what is left of a record, or a close's state word. -/
theorem State.mem_resetPageWrites {p : Nat × Word} (h : p ∈ s.resetPageWrites) :
    (∃ a cleared, s.pw.activity = .claiming a cleared ∧ Memory.readWord s.mem a = 0 ∧ ∃ k < 4, p.1 = a + 4 * k) ∨
    (∃ made q r rest, s.pw.activity = .writing made ∧ s.pw.page = some q ∧ s.lu.queue = r :: rest ∧
      (p.1 = q.addr + 8 ∨ ∃ k < r.length, made ≤ k ∧ p.1 = q.addr + 16 + 4 * (q.used + k))) ∨
    (∃ why cleared q, s.pw.activity = .closing why cleared ∧ s.pw.page = some q ∧ p.1 = q.addr) := by
  unfold State.resetPageWrites at h
  split at h
  next a cleared hact =>
    split at h
    next hempty => exact .inl ⟨a, cleared, hact, hempty, mem_wordsAt h⟩
    next => cases h
  next made q hact hpage =>
    split at h
    next r rest hqueue => exact .inr (.inl ⟨made, q, r, rest, hact, hpage, hqueue, mem_recordLeft h⟩)
    next => cases h
  next why cleared q hact hpage =>
    refine .inr (.inr ⟨why, cleared, q, hact, hpage, ?_⟩)
    rw [List.mem_singleton.mp h]
  next => cases h

/-- With no operation in progress RESET cuts off no word. -/
theorem State.cutOff_of_idle (hstep : s.oe.step = .none) (hexch : s.exch = none) (hact : s.pw.activity = .idle) :
    s.resetEngineWrites ++ s.resetExchangeWrites ++ s.resetPageWrites = [] ∧ s.cutOff = s := by
  have hengine : s.resetEngineWrites = [] := by simp only [State.resetEngineWrites, State.engineWrites, hstep]
  have hexchange : s.resetExchangeWrites = [] := by simp only [State.resetExchangeWrites, hexch]
  have hpage : s.resetPageWrites = [] := by simp only [State.resetPageWrites, hact]
  rw [State.cutOff, hengine, hexchange, hpage]
  exact ⟨rfl, rfl⟩

theorem State.resetEngineWrites_headerTest (h : s.oe.step = .fetching []) : s.resetEngineWrites = [] := by
  cases hheader : s.headerFits s.oe.block with
  | false => simp [State.resetEngineWrites, h, hheader]
  | true => simp [State.resetEngineWrites, h, State.nextFetchAddress, hheader]

theorem State.windowSize_straps (s : State) :
    (s.straps = (false, false) → s.windowSize = 2 ^ 20) ∧ (s.straps = (true, false) → s.windowSize = 2 ^ 21) ∧
      (s.straps = (false, true) → s.windowSize = 2 ^ 22) ∧ (s.straps = (true, true) → s.windowSize = 2 ^ 23) := by
  unfold State.windowSize
  refine ⟨fun h => ?_, fun h => ?_, fun h => ?_, fun h => ?_⟩ <;> rw [h] <;> rfl

/-- Settles O3: the answer by the window guard, its memory by the words cut off, and those words by their owners. -/
theorem resetCommand : Obligations.ResetCommand := by
  refine ⟨fun s a b hin => ?answer, fun s a b hstep hexch hact => ?idle,
    fun s => ⟨State.resetEngineWrites_headerTest, fun p => State.mem_resetEngineWrites, fun p => State.mem_resetExchangeWrites,
      fun p => State.mem_resetPageWrites⟩, State.windowSize_straps⟩
  case answer =>
    refine ⟨_, (exec_reset s a b).trans (s.guarded_next _ _ fun x hx => ?_), ?_, fun x hx => ?_⟩
    · obtain ⟨p, hp, rfl⟩ := List.mem_map.mp hx
      exact State.inWindow_iff.mpr (hin p hp)
    · simp only [State.cutOff, State.cutByReset_pending]
    · have apart {ws : List (Nat × Word)}
          (hws : ∀ p ∈ ws, p ∈ s.resetEngineWrites ++ s.resetExchangeWrites ++ s.resetPageWrites) :
          ∀ p ∈ ws, ∀ i < 4, x ≠ p.1 + i := fun p hp => hx p (hws p hp)
      show Memory.read s.cutOff.mem x = _
      rw [State.cutOff, State.read_cutByReset _ (apart fun p hp => by simp [hp]),
        State.read_cutByReset _ (apart fun p hp => by simp [hp]),
        State.read_cutByReset _ (apart fun p hp => by simp [hp])]
  case idle =>
    obtain ⟨hnone, hcut⟩ := State.cutOff_of_idle hstep hexch hact
    rw [exec_reset, hnone, hcut]
    rfl

end Sys2Proof.Machine
end

section
/-! One step: the front command, or one word access in progress; the words that the engine, the EXCHANGE and the page
writer access, and a word's four bytes (R172, R173, R175). -/

namespace Sys2Proof.Machine

variable {s : State}

/-! ## A word and its bytes (R170) -/

theorem Memory.readWord_toNat (m : List Host.Cell) (a : Nat) :
    (Memory.readWord m a).toNat =
      (Memory.read m a).toNat + 2 ^ 8 * (Memory.read m (a + 1)).toNat + 2 ^ 16 * (Memory.read m (a + 2)).toNat +
        2 ^ 24 * (Memory.read m (a + 3)).toNat := by
  have happend {n : Nat} (x : BitVec n) (y : Byte) : (x ++ y).toNat = x.toNat * 2 ^ 8 + y.toNat := by
    rw [BitVec.toNat_append, ← Nat.shiftLeft_add_eq_or_of_lt y.isLt, Nat.shiftLeft_eq]
  rw [Memory.readWord, happend, happend, happend]
  omega

theorem byte_toNat (w : Word) (k : Nat) : (w.extractLsb' (8 * k) 8).toNat = w.toNat / 2 ^ (8 * k) % 2 ^ 8 := by
  rw [BitVec.extractLsb'_toNat, Nat.shiftRight_eq_div_pow]

/-- Byte k of a word written is its bits from 8k up. -/
theorem Memory.read_writeWord_byte {m : List Host.Cell} (h : Memory.wf m = true) (a : Nat) (w : Word) {k : Nat} (hk : k < 4) :
    Memory.read (Memory.writeWord m a w) (a + k) = w.extractLsb' (8 * k) 8 := by
  have h1 := Memory.wf_write m a (w.extractLsb' 0 8) h
  have h2 := Memory.wf_write _ (a + 1) (w.extractLsb' 8 8) h1
  have h3 := Memory.wf_write _ (a + 2) (w.extractLsb' 16 8) h2
  unfold Memory.writeWord
  interval_cases k
  · rw [Memory.read_write_other _ _ _ _ (by omega), Memory.read_write_other _ _ _ _ (by omega),
      Memory.read_write_other _ _ _ _ (by omega)]
    exact Memory.read_write_same _ _ _ h
  · rw [Memory.read_write_other _ _ _ _ (by omega), Memory.read_write_other _ _ _ _ (by omega),
      Memory.read_write_same _ _ _ h1]
  · rw [Memory.read_write_other _ _ _ _ (by omega), Memory.read_write_same _ _ _ h2]
  · rw [Memory.read_write_same _ _ _ h3]

/-! ## The step -/

theorem step_cons (c : Instr) (s : State) (rest : List Instr) :
    step { s with pending := c :: rest } = exec c { s with pending := rest } := rfl

theorem step_nil (h : s.pending = []) : step s = .next s.wordAccess := by rw [step, h]

theorem State.wordAccess_nil (h : s.wordAccesses = []) : s.wordAccess = s := by rw [State.wordAccess, h]

theorem State.wordAccess_one {t : State} (h : s.wordAccesses = [t]) : s.wordAccess = t := by rw [State.wordAccess, h]

theorem State.wordAccess_several (h : 2 ≤ s.wordAccesses.length) :
    ∃ t ∈ s.wordAccesses, s.wordAccess = { t with free := s.free + 1 } := by
  unfold State.wordAccess
  split
  next hnil => simp [hnil] at h
  next t hone => simp [hone] at h
  next t others _ hseveral =>
    refine ⟨_, ?_, rfl⟩
    have hlt : Config.freePick s.free % (others.length + 1) < (t :: others).length := Nat.mod_lt _ (Nat.succ_pos _)
    rw [hseveral, List.getD_eq_getElem _ _ hlt]
    exact List.getElem_mem hlt

/-! ## The next word of a fetch (R173) -/

theorem bits_low (w : Word) : bits w 7 0 = w.toNat % 256 := by simp [bits]

theorem State.headerFits_iff {block : Nat} :
    s.headerFits block = true ↔ block ≠ 0 ∧ block % 4 = 0 ∧ block + 16 ≤ s.windowSize := by
  simp [State.headerFits, State.inWindow_iff, and_assoc]

theorem State.paramsIn_iff {block n : Nat} : s.paramsIn block n = true ↔ block + 16 + 4 * n ≤ s.windowSize :=
  State.inWindow_iff

section
variable {got : List Word}

theorem State.nextFetchAddress_headerFails (h : s.headerFits s.oe.block = false) : s.nextFetchAddress s.oe.block got = none := by
  unfold State.nextFetchAddress
  split
  · rw [h, if_neg Bool.false_ne_true]
  · split
    · rfl
    · simp only [h, Bool.false_and, Bool.false_eq_true, if_false]

theorem State.nextFetchAddress_first (h : s.headerFits s.oe.block = true) : s.nextFetchAddress s.oe.block [] = some s.oe.block :=
  if_pos h

theorem State.nextFetchAddress_unknown {w : Word} {params : List Word} (h : orderKindOfCode (bits w 7 0) = none) :
    s.nextFetchAddress s.oe.block (w :: params) = none := by
  simp only [State.nextFetchAddress, h]

/-- The parameter words of an order of a kind, as far as its fetched words tell: the count of a GIVE PAGES is its first. -/
def fetchedCount (k : OrderKind) (params : List Word) : Nat :=
  if k = .givePages ∧ params ≠ [] ∧ 1 ≤ (params.getD 0 0).toNat ∧ (params.getD 0 0).toNat ≤ 32
  then 1 + (params.getD 0 0).toNat else k.paramWords

theorem State.paramCount_fetched (s : State) (block : Nat) (w : Word) (params : List Word) (k : OrderKind) :
    (if params = [] then k.paramWords else s.paramCount block (w :: params) k) = fetchedCount k params := by
  unfold fetchedCount
  cases params with
  | nil => rw [if_pos rfl, if_neg (by simp)]
  | cons p ps =>
    rw [if_neg (List.cons_ne_nil p ps)]
    cases k with
    | givePages => simp [State.paramCount, State.fetchWord, OrderKind.paramWords]
    | _ => rfl

theorem State.nextFetchAddress_param {w : Word} {params : List Word} {k : OrderKind}
    (hheader : s.headerFits s.oe.block = true) (hk : orderKindOfCode (bits w 7 0) = some k) :
    s.nextFetchAddress s.oe.block (w :: params) =
      if s.oe.block + 16 + 4 * fetchedCount k params ≤ s.windowSize ∧ params.length < fetchedCount k params
      then some (s.oe.block + 16 + 4 * params.length) else none := by
  simp only [State.nextFetchAddress, hk, s.paramCount_fetched, hheader, Bool.true_and, Bool.and_eq_true, State.paramsIn_iff,
    decide_eq_true_eq]
  rfl

theorem State.engineWord_fetching (h : s.oe.step = .fetching got) :
    s.engineWord =
      (s.nextFetchAddress s.oe.block got).map
        (fun a => { s with oe := { s.oe with step := .fetching (got ++ [Memory.readWord s.mem a]) } }) := by
  simp only [State.engineWord, h]
  rfl

end

/-! ## The next word written -/

theorem State.wordWritten_inWindow {p : Nat × Word} (h : p.1 + 4 ≤ s.windowSize) (t : State) :
    s.wordWritten p t = some { t with mem := Memory.writeWord s.mem p.1 p.2 } :=
  if_pos (State.inWindow_iff.mpr h)

section
variable {a : Nat} {w next : Word} {rest : List Word}

theorem State.engineWord_imaging (hin : a + 4 ≤ s.windowSize) (h : s.oe.step = .imaging a (w :: next :: rest)) :
    s.engineWord =
      some { s with mem := Memory.writeWord s.mem a w, oe := { s.oe with step := .imaging (a + 4) (next :: rest) } } := by
  simp only [State.engineWord, h]
  exact State.wordWritten_inWindow (p := (a, w)) hin _

theorem State.engineWord_lastOfImage (h : s.oe.step = .imaging a [w]) : s.engineWord = none := by
  simp only [State.engineWord, h]

theorem State.engineWord_terminating (hin : a + 4 ≤ s.windowSize) {results : List (Nat × Word)} {code : Result} {detail : Nat}
    (h : s.oe.step = .terminating ((a, w) :: results) code detail) :
    s.engineWord =
      some { s with mem := Memory.writeWord s.mem a w, oe := { s.oe with step := .terminating results code detail } } := by
  simp only [State.engineWord, h]
  exact State.wordWritten_inWindow (p := (a, w)) hin _

variable {e : Exchange}

theorem State.exchangeWord_writing (hin : a + 4 ≤ s.windowSize) (he : s.exch = some e)
    (h : e.phase = .writing a (w :: next :: rest)) :
    s.exchangeWord =
      some { s with mem := Memory.writeWord s.mem a w, exch := some { e with phase := .writing (a + 4) (next :: rest) } } := by
  simp only [State.exchangeWord, he, h]
  exact State.wordWritten_inWindow (p := (a, w)) hin _

theorem State.exchangeWord_lastOfPackage (he : s.exch = some e) (h : e.phase = .writing a [w]) : s.exchangeWord = none := by
  simp only [State.exchangeWord, he, h]

theorem State.exchangeWord_reading {got : List Word} (he : s.exch = some e) (h : e.phase = .reading got)
    (hin : e.package + 64 ≤ s.windowSize) :
    s.exchangeWord =
      if got.length < 15 then
        some { s with exch := some { e with
                        phase := .reading (got ++ [Memory.readWord s.mem (e.package + 4 * got.length)]) } }
      else none := by
  simp only [State.exchangeWord, he, h, State.inWindow_iff.mpr hin, Bool.true_and, decide_eq_true_eq]
  rfl

end

section
variable {p : OpenPage} {r : TakeRecord} {rest : List TakeRecord} {made : Nat}

/-- While words of the record itself are left, the next of them comes first, and the record count last. -/
theorem recordLeft_cons (h : made < r.length) :
    ∃ next left, recordLeft p r made = (p.addr + 16 + 4 * (p.used + made), r.words.getD made 0) :: next :: left := by
  have hlt : made < (recordWrites p r).length := by simp [recordWrites]; omega
  obtain ⟨next, left, hrest⟩ : ∃ next left, (recordWrites p r).drop (made + 1) = next :: left := by
    refine List.exists_cons_of_length_pos ?_
    simp [recordWrites]
    omega
  have hword : (recordWrites p r)[made]? = some (p.addr + 16 + 4 * (p.used + made), r.words.getD made 0) := by
    have hmade : made < r.words.length := by rwa [TakeRecord.words_length]
    rw [recordWrites, List.getElem?_append_left (by simpa using h), wordsAt_getElem?, List.getElem?_eq_getElem hmade,
      List.getD_eq_getElem _ _ hmade, Nat.mul_add, ← Nat.add_assoc]
    rfl
  refine ⟨next, left, ?_⟩
  rw [recordLeft, List.drop_eq_getElem_cons hlt, hrest, (List.getElem?_eq_some_iff.mp hword).2]

theorem State.recordWord_writing (hact : s.pw.activity = .writing made) (hpage : s.pw.page = some p)
    (hqueue : s.lu.queue = r :: rest) (hin : p.addr + 16 + 4 * (p.used + r.length) ≤ s.windowSize) (hmade : made < r.length) :
    s.recordWord =
      some { s with mem := Memory.writeWord s.mem (p.addr + 16 + 4 * (p.used + made)) (r.words.getD made 0)
                    pw := { s.pw with activity := .writing (made + 1) } } := by
  obtain ⟨next, left, hleft⟩ := recordLeft_cons (p := p) hmade
  have hnext : s.recordWord =
      s.wordWritten (p.addr + 16 + 4 * (p.used + made), r.words.getD made 0) (s.setActivity (.writing (made + 1))) := by
    simp only [State.recordWord, hact, hpage, hqueue, hleft]
  have hword : p.addr + 16 + 4 * (p.used + made) + 4 ≤ s.windowSize := by omega
  exact hnext.trans (State.wordWritten_inWindow (p := (_, _)) hword _)

theorem State.recordWord_made (hact : s.pw.activity = .writing made) (hpage : s.pw.page = some p)
    (hqueue : s.lu.queue = r :: rest) (hmade : r.length ≤ made) : s.recordWord = none := by
  have hlen : (recordLeft p r made).length ≤ 1 := by
    rw [recordLeft_length]
    omega
  simp only [State.recordWord, hact, hpage, hqueue]
  split
  next hleft => simp [hleft] at hlen
  next => rfl

end

/-- Settles O1: the front command by the step's definition, each word access by its agent's progress. -/
theorem stepRunsFrontCommand : Obligations.StepRunsFrontCommand := by
  refine ⟨step_cons, fun s hempty => ⟨fun h => ?_, fun t h => ?_, fun h => ?_⟩, State.mem_wordAccesses,
    fun s got hstep => ⟨fun h => ?headerFails, fun h0 halign hfits => ?fetch⟩,
    fun s a w next rest hin => ⟨State.engineWord_imaging hin, State.engineWord_lastOfImage,
      fun results code detail => State.engineWord_terminating hin,
      fun e he => ⟨State.exchangeWord_writing hin he, State.exchangeWord_lastOfPackage he⟩⟩,
    fun s e got he hphase hin => ⟨fun h => ?_, fun h => ?_⟩,
    fun s p r rest made hact hpage hqueue hin =>
      ⟨State.recordWord_writing hact hpage hqueue hin, State.recordWord_made hact hpage hqueue⟩,
    Memory.readWord_toNat, fun m a w hwf => ⟨fun k hk => ?_, fun x hx => Memory.read_writeWord_other _ _ _ _ (by omega)⟩⟩
  case headerFails =>
    have hheader : s.headerFits s.oe.block = false := by
      refine Bool.eq_false_iff.mpr fun hfits => ?_
      obtain ⟨h0, halign, hin⟩ := State.headerFits_iff.mp hfits
      omega
    rw [State.engineWord_fetching hstep, State.nextFetchAddress_headerFails hheader]
    rfl
  case fetch =>
    have hheader := State.headerFits_iff.mpr ⟨h0, halign, hfits⟩
    refine ⟨?_, fun w params hgot => ⟨fun hk => ?_, fun k hk => ⟨fun hin hlt => ?_, fun hdone => ?_⟩⟩⟩
    · rintro rfl
      rw [State.engineWord_fetching hstep, State.nextFetchAddress_first hheader]
      rfl
    all_goals
      subst hgot
      rw [← bits_low] at hk
      rw [State.engineWord_fetching hstep]
    · rw [State.nextFetchAddress_unknown hk]
      rfl
    · rw [State.nextFetchAddress_param hheader hk, if_pos ⟨hin, hlt⟩]
      rfl
    · have hnot : ¬(s.oe.block + 16 + 4 * fetchedCount k params ≤ s.windowSize ∧ params.length < fetchedCount k params) :=
        fun h => hdone.elim h.1.not_gt h.2.not_ge
      rw [State.nextFetchAddress_param hheader hk, if_neg hnot]
      rfl
  · rw [step_nil hempty, State.wordAccess_nil h]
  · rw [step_nil hempty, State.wordAccess_one h]
  · obtain ⟨t, ht, hmade⟩ := State.wordAccess_several h
    exact ⟨t, ht, by rw [step_nil hempty, hmade]⟩
  · rw [State.exchangeWord_reading he hphase hin, if_pos h]
  · rw [State.exchangeWord_reading he hphase hin, if_neg h.not_gt]
  · rw [Memory.read_writeWord_byte hwf a w hk, byte_toNat]

end Sys2Proof.Machine
end

section
/-! The timecode word: its cells and the levels of its line (R196). -/

namespace Sys2Proof.Machine

/-! ## The cells -/

/-- A bit of a number's field is the bit of what the field holds. -/
theorem testBit_field {n v lo width i : Nat} (h : n / 2 ^ lo % 2 ^ width = v % 2 ^ width) (hi : i < width) :
    n.testBit (lo + i) = v.testBit i := by
  have hmod (x : Nat) : (x % 2 ^ width).testBit i = x.testBit i := by
    rw [Nat.testBit_mod_two_pow, decide_eq_true hi, Bool.true_and]
  rw [← hmod v, ← h, hmod, Nat.testBit_div_two_pow, Nat.add_comm]

/-- The cells below bit 31 from cell 4 on, as one number. -/
def cellsBelow (l : Label) (f : Fmt) : Nat :=
  l.ff % 64 + 2 ^ 6 * (l.ss % 64) + 2 ^ 12 * (l.mm % 64) + 2 ^ 18 * (l.hh % 32) + 2 ^ 23 * f.drop.toNat +
    2 ^ 24 * (f.base.code % 8)

theorem cellsBelow_lt (l : Label) (f : Fmt) : cellsBelow l f < 2 ^ 27 := by
  have hdrop := f.drop.toNat_le
  unfold cellsBelow
  omega

/-- The parity cell: it makes the number of 1 cells from cell 4 on even. -/
def parityCell (l : Label) (f : Fmt) (w : Word) : Nat :=
  (onesCount 27 (cellsBelow l f) + onesCount 32 w.toNat) % 2

theorem onesCount_add (m : Nat) {k a : Nat} (h : a < 2 ^ k) (b : Nat) :
    onesCount (k + m) (a + 2 ^ k * b) = onesCount k a + onesCount m b := by
  induction k generalizing a with
  | zero =>
    obtain rfl : a = 0 := Nat.lt_one_iff.mp h
    simp [onesCount]
  | succ k ih =>
    have hlow : (a + 2 ^ (k + 1) * b) % 2 = a % 2 := by rw [Nat.pow_succ', Nat.mul_assoc, Nat.add_mul_mod_self_left]
    have hhigh : (a + 2 ^ (k + 1) * b) / 2 = a / 2 + 2 ^ k * b := by
      rw [Nat.pow_succ', Nat.mul_assoc, Nat.add_mul_div_left _ _ (by decide)]
    rw [Nat.pow_succ] at h
    rw [Nat.add_right_comm, onesCount, onesCount, hlow, hhigh, ih (by omega), Nat.add_assoc]

theorem onesCount_zero (n : Nat) : onesCount n 0 = 0 := by
  induction n with
  | zero => rfl
  | succ n ih => simpa [onesCount] using ih

/-- The number of 1 cells is the number of indices of such cells. -/
theorem onesCount_eq_countP (n v : Nat) : onesCount n v = (List.range n).countP v.testBit := by
  induction n generalizing v with
  | zero => rfl
  | succ n ih =>
    rw [onesCount, ih, List.range_succ_eq_map, List.countP_cons, List.countP_map, Nat.add_comm]
    congr 1
    · refine List.countP_congr fun i _ => ?_
      rw [Function.comp_apply, Nat.testBit_succ]
    · rw [Nat.testBit_zero]
      rcases Nat.mod_two_eq_zero_or_one v with h | h <;> simp [h]

/-- The cells as one number: the sync cells, those below the parity cell, the parity cell and the user word. -/
theorem timecodeCells_toNat (l : Label) (f : Fmt) (w : Word) :
    (timecodeCells l f w).toNat =
      13 + 2 ^ 4 * (cellsBelow l f + 2 ^ 27 * (parityCell l f w + 2 * w.toNat)) := by
  have hbelow := cellsBelow_lt l f
  have hw := w.isLt
  have hdrop : (if f.drop then 1 else 0) = f.drop.toNat := by cases f.drop <;> rfl
  have hbody : cellField 4 6 l.ff + cellField 10 6 l.ss + cellField 16 6 l.mm + cellField 22 5 l.hh +
      cellField 27 1 (if f.drop then 1 else 0) + cellField 28 3 f.base.code + cellField 32 32 w.toNat =
      0 + 2 ^ 4 * (cellsBelow l f + 2 ^ 27 * (0 + 2 ^ 1 * w.toNat)) := by
    have hle := f.drop.toNat_le
    rw [hdrop]
    simp only [cellField, cellsBelow, Nat.mod_eq_of_lt hw, Nat.mod_eq_of_lt (show f.drop.toNat < 2 ^ 1 by omega)]
    omega
  have hones : onesCount 64 (0 + 2 ^ 4 * (cellsBelow l f + 2 ^ 27 * (0 + 2 ^ 1 * w.toNat))) % 2 = parityCell l f w := by
    rw [onesCount_add 60 (by decide), onesCount_add 33 hbelow, onesCount_add 32 (by decide), onesCount_zero, onesCount_zero,
      Nat.zero_add, Nat.zero_add, parityCell]
  have hparity : parityCell l f w < 2 := Nat.mod_lt _ (by decide)
  rw [timecodeCells, hbody, hones, BitVec.toNat_ofNat, cellField]
  omega

section
variable (l : Label) (f : Fmt) (w : Word)

theorem timecodeCells_field {v lo width i : Nat} (h : (timecodeCells l f w).toNat / 2 ^ lo % 2 ^ width = v % 2 ^ width)
    (hi : i < width) : (timecodeCells l f w).getLsbD (lo + i) = v.testBit i :=
  testBit_field h hi

theorem timecodeCells_bit {b : Bool} {i : Nat} (h : (timecodeCells l f w).toNat / 2 ^ i % 2 = b.toNat) :
    (timecodeCells l f w).getLsbD i = b :=
  testBit_eq_of_div h

theorem timecodeCells_even :
    (List.range 60).countP (fun i => (timecodeCells l f w).getLsbD (4 + i)) % 2 = 0 := by
  have hshift : (fun i => (timecodeCells l f w).getLsbD (4 + i)) = ((timecodeCells l f w).toNat / 2 ^ 4).testBit := by
    funext i
    rw [Nat.testBit_div_two_pow, Nat.add_comm]
    rfl
  have hdiv : (timecodeCells l f w).toNat / 2 ^ 4 = cellsBelow l f + 2 ^ 27 * (parityCell l f w + 2 ^ 1 * w.toNat) := by
    rw [timecodeCells_toNat]
    omega
  have hparity : parityCell l f w < 2 ^ 1 := Nat.mod_lt _ (by decide)
  have hone : onesCount 1 (parityCell l f w) = parityCell l f w := by
    rw [onesCount, onesCount, Nat.add_zero]
    exact Nat.mod_eq_of_lt hparity
  have hcount : onesCount 60 ((timecodeCells l f w).toNat / 2 ^ 4) =
      onesCount 27 (cellsBelow l f) + (parityCell l f w + onesCount 32 w.toNat) := by
    rw [hdiv, onesCount_add 33 (cellsBelow_lt l f), onesCount_add 32 hparity, hone]
  rw [hshift, ← onesCount_eq_countP, hcount, parityCell]
  generalize onesCount 27 (cellsBelow l f) = a
  generalize onesCount 32 w.toNat = b
  omega

theorem timecodeCells_layout :
    ((timecodeCells l f w).getLsbD 0 = true ∧ (timecodeCells l f w).getLsbD 1 = false ∧
      (timecodeCells l f w).getLsbD 2 = true ∧ (timecodeCells l f w).getLsbD 3 = true) ∧
    (∀ i < 6, (timecodeCells l f w).getLsbD (4 + i) = l.ff.testBit i ∧
      (timecodeCells l f w).getLsbD (10 + i) = l.ss.testBit i ∧ (timecodeCells l f w).getLsbD (16 + i) = l.mm.testBit i) ∧
    (∀ i < 5, (timecodeCells l f w).getLsbD (22 + i) = l.hh.testBit i) ∧ (timecodeCells l f w).getLsbD 27 = f.drop ∧
    (∀ i < 3, (timecodeCells l f w).getLsbD (28 + i) = f.base.code.testBit i) ∧
    (∀ i < 32, (timecodeCells l f w).getLsbD (32 + i) = w.getLsbD i) := by
  have hcells := timecodeCells_toNat l f w
  have hdrop := f.drop.toNat_le
  have hw := w.isLt
  have hparity : parityCell l f w < 2 := Nat.mod_lt _ (by decide)
  rw [cellsBelow] at hcells
  refine ⟨⟨?_, ?_, ?_, ?_⟩, fun i hi => ⟨?_, ?_, ?_⟩, fun i hi => ?_, ?_, fun i hi => ?_, fun i hi => ?_⟩
  · exact timecodeCells_bit l f w (by rw [Bool.toNat_true]; omega)
  · exact timecodeCells_bit l f w (by rw [Bool.toNat_false]; omega)
  · exact timecodeCells_bit l f w (by rw [Bool.toNat_true]; omega)
  · exact timecodeCells_bit l f w (by rw [Bool.toNat_true]; omega)
  · exact timecodeCells_field l f w (by omega) hi
  · exact timecodeCells_field l f w (by omega) hi
  · exact timecodeCells_field l f w (by omega) hi
  · exact timecodeCells_field l f w (by omega) hi
  · exact timecodeCells_bit l f w (by omega)
  · exact timecodeCells_field l f w (by omega) hi
  · exact timecodeCells_field l f w (by omega) hi

end

/-! ## The line -/

/-- The instant at which a cell begins. -/
def TimecodeWord.cellStart (w : TimecodeWord) (i : Nat) : Nat := w.edge + i * (w.next - w.edge) / 64

theorem TimecodeWord.cellStart_mono (w : TimecodeWord) {i j : Nat} (h : i ≤ j) : w.cellStart i ≤ w.cellStart j :=
  Nat.add_le_add_left (Nat.div_le_div_right (Nat.mul_le_mul_right _ h)) _

theorem TimecodeWord.level_iff (w : TimecodeWord) (t : Nat) :
    w.level t = true ↔ ∃ i < 64, w.cells.getLsbD i = true ∧ w.cellStart i ≤ t ∧ t < w.cellStart (i + 1) := by
  simp only [TimecodeWord.level, List.any_eq_true, List.mem_range, Bool.and_eq_true, decide_eq_true_eq, and_assoc]
  rfl

/-- While a cell lasts the line has its level. -/
theorem TimecodeWord.level_cell (w : TimecodeWord) {t i : Nat} (hi : i < 64) (hle : w.cellStart i ≤ t)
    (hlt : t < w.cellStart (i + 1)) : w.level t = w.cells.getLsbD i := by
  refine Bool.eq_iff_iff.mpr (w.level_iff t |>.trans ⟨?_, fun h => ⟨i, hi, h, hle, hlt⟩⟩)
  rintro ⟨j, -, hcell, hjle, hjlt⟩
  have hnot {a b : Nat} (ha : w.cellStart b ≤ t) (hb : t < w.cellStart (a + 1)) : ¬a < b := fun hab =>
    absurd (w.cellStart_mono (show a + 1 ≤ b from hab)) (by omega)
  obtain rfl : i = j := le_antisymm (not_lt.mp (hnot hle hjlt)) (not_lt.mp (hnot hjle hlt))
  exact hcell

/-- Outside the word the line is low. -/
theorem TimecodeWord.level_outside (w : TimecodeWord) {t : Nat} (h : t < w.edge ∨ w.next ≤ t) : w.level t = false := by
  refine Bool.eq_false_iff.mpr fun hlevel => ?_
  obtain ⟨i, hi, -, hle, hlt⟩ := (w.level_iff t).mp hlevel
  have hlast := w.cellStart_mono (show i + 1 ≤ 64 from hi)
  have hedge : w.edge ≤ w.cellStart i := Nat.le_add_right _ _
  have hend : w.cellStart 64 = w.edge + (w.next - w.edge) := by
    rw [TimecodeWord.cellStart, Nat.mul_div_cancel_left _ (by decide)]
  omega

theorem State.timecodeLine_none {s : State} {c : Fin 16} (h : (s.chan c).tcWord = none) : s.timecodeLine c = false := by
  rw [State.timecodeLine, h]

theorem State.timecodeLine_some {s : State} {c : Fin 16} {w : TimecodeWord} (h : (s.chan c).tcWord = some w) :
    s.timecodeLine c = w.level s.tb.st := by
  rw [State.timecodeLine, h]

theorem State.pulseLine_iff {s : State} {c : Fin 16} : s.pulseLine c = true ↔ (s.chan c).pulse ≠ none := by
  rw [State.pulseLine, Option.isSome_iff_ne_none]

end Sys2Proof.Machine
end

section
/-! The channels: the edge event, stops and the channel-stop notice, the armed start, and what a step does to channels and
roster (R46 to R50, R55, R57 to R62, R102). -/

namespace Sys2Proof.Machine

variable {s : State} {c : Fin 16} {ch : Channel} {g : Segment}

/-! ## One channel -/

theorem Channel.nextEdge_some (h : ch.cur = some g) : ch.nextEdge = some (g.instant ((ch.frame : Int) + 1)).toNat := by
  rw [Channel.nextEdge, h]
  rfl

theorem Channel.labelAt_natCast (ch : Channel) (k : Nat) : ch.labelAt k = (ch.cfg.start + k) % ch.cfg.fmt.fday := by
  rw [Channel.labelAt, ← Nat.cast_add, ← Int.natCast_mod, Int.toNat_natCast]

/-- The outputs of an emitted edge (R49, R50). -/
theorem Channel.drive_eq (h : ch.cur = some g) (edge : Nat) :
    ch.drive edge =
      { ch with
        pulse :=
          if min ch.cfg.width (g.rate.n / g.rate.d - 1) = 0 then none
          else some (edge + min ch.cfg.width (g.rate.n / g.rate.d - 1))
        tcWord :=
          if ch.kind = .picture ∧ ch.cfg.labelOut = true then
            some
              { edge := edge
                next := (g.instant ((ch.frame : Int) + 1)).toNat
                cells := timecodeCells (ch.cfg.fmt.labelOf ((ch.cfg.start + ch.frame) % ch.cfg.fmt.fday)) ch.cfg.fmt
                  ch.cfg.userWord }
          else none } := by
  unfold Channel.drive
  rw [h]
  dsimp only
  rw [ch.labelAt_natCast]
  simp only [Bool.and_eq_true, beq_iff_eq]
  rfl

theorem Channel.latch_none (h : ch.staged = none) (edge : Nat) : ch.latch edge = ch := by rw [Channel.latch, h]

theorem Channel.latch_user {w : Word} (h : ch.staged = some (.user w)) (edge : Nat) :
    ch.latch edge = { ch with cfg := { ch.cfg with userWord := w }, staged := none } := by
  rw [Channel.latch, h]

/-- A full staged set takes effect with a new segment, the segment before it ending at the index before (R47). -/
theorem Channel.latch_full {set : Settings} (h : ch.staged = some (.full set)) (hcur : ch.cur = some g) (edge : Nat) :
    ch.latch edge =
      { ch with cfg := set, staged := none, cur := some ⟨edge, ch.frame, set.rate⟩, prior := some ⟨g, ch.frame - 1⟩ } := by
  rw [Channel.latch, h]
  dsimp only [Channel.newSegment]
  rw [hcur]

/-- The record of a latch is a RETIME event for a full staged set, and there is none for another. -/
theorem State.retimeRecord_full {old : Channel} {set : Settings} (h : old.staged = some (.full set))
    (hcur : (s.chan c).cur = some g) :
    s.retimeRecord c old = s.sysEvent (.channelEvent c .retime (some (g.origin, g.base))) := by
  rw [State.retimeRecord, h, hcur]

theorem State.retimeRecord_none {old : Channel} (h : old.staged = none) : s.retimeRecord c old = s := by
  rw [State.retimeRecord, h]

theorem State.retimeRecord_user {old : Channel} {w : Word} (h : old.staged = some (.user w)) :
    s.retimeRecord c old = s := by
  rw [State.retimeRecord, h]

/-! ## The edge event (R46 to R50) -/

theorem exec_channelEdge (hrun : (s.chan c).state = .running) (hcur : (s.chan c).cur = some g)
    (hdue : (g.instant (((s.chan c).frame : Int) + 1)).toNat ≤ s.tb.st) :
    exec (.channelEdge c) s = .next (s.emitEdge c (g.instant (((s.chan c).frame : Int) + 1)).toNat) := by
  show execChannelEdge c s = _
  rw [execChannelEdge, hrun, Channel.nextEdge_some hcur]
  dsimp only
  rw [if_pos hdue]

theorem State.emitEdge_counted (h : (s.chan c).stopPending = false) (edge : Nat) :
    s.emitEdge c edge =
      (s.setChan c ((((s.chan c).count edge).latch edge).drive edge)).retimeRecord c (s.chan c) := by
  rw [State.emitEdge, h]
  rfl

theorem State.emitEdge_stop (h : (s.chan c).stopPending = true) (edge : Nat) : s.emitEdge c edge = s.stopChannel c :=
  if_pos h

theorem frame_two (k : Nat) : ((k + 1 : Nat) : Int) + 1 = (k : Int) + 2 := by omega

/-- Settles O20: the edge event by what is staged; the cells, the line's levels and a channel's change by their lemmas. -/
theorem channelEdge : Obligations.ChannelEdge := by
  refine ⟨fun s c g hrun hstop hcur hdue => ⟨fun hst => ?nothing, fun w hst => ?user, fun set hst => ?full⟩,
    fun l f w => ?cells, fun w t => ⟨fun i hi => w.level_cell hi, w.level_outside⟩,
    fun s c => ⟨State.timecodeLine_none, fun w => State.timecodeLine_some, State.pulseLine_iff⟩,
    fun s c x => ⟨s.setChan_chan_same c x, fun k hk => s.setChan_chan_other c k x hk, rfl⟩⟩
  case nothing =>
    have hlatch := Channel.latch_none (ch := (s.chan c).count (g.instant (((s.chan c).frame : Int) + 1)).toNat) hst
    rw [exec_channelEdge hrun hcur hdue, State.emitEdge_counted hstop, hlatch, State.retimeRecord_none hst,
      Channel.drive_eq (g := g) ?segment]
    case segment => exact hcur
    dsimp only [Channel.count]
    rw [frame_two]
    rfl
  case user =>
    have hlatch := Channel.latch_user (ch := (s.chan c).count (g.instant (((s.chan c).frame : Int) + 1)).toNat) hst
    rw [exec_channelEdge hrun hcur hdue, State.emitEdge_counted hstop, hlatch, State.retimeRecord_user hst,
      Channel.drive_eq (g := g) ?segment]
    case segment => exact hcur
    dsimp only [Channel.count]
    rw [frame_two]
    rfl
  case full =>
    have hlatch := Channel.latch_full (ch := (s.chan c).count (g.instant (((s.chan c).frame : Int) + 1)).toNat) hst hcur
    rw [exec_channelEdge hrun hcur hdue, State.emitEdge_counted hstop, hlatch, Channel.drive_eq rfl,
      State.retimeRecord_full hst (by rw [State.setChan_chan_same])]
    dsimp only [Channel.count]
    rw [frame_two]
    rfl
  case cells =>
    obtain ⟨hsync, hlow, hhours, hdrop, hbase, huser⟩ := timecodeCells_layout l f w
    exact ⟨hsync, hlow, hhours, hdrop, hbase, huser, timecodeCells_even l f w⟩

/-! ## Stops (R57 to R59) -/

theorem Channel.eventSegment_some (h : ch.cur = some g) : ch.eventSegment = some (g.origin, g.base) := by
  rw [Channel.eventSegment, h]
  rfl

theorem stopChannelOrder_badChannel {o : Order} (h : 16 ≤ (o.p 0).toNat) : stopChannelOrder o s = s.report .refusedRange := by
  rw [stopChannelOrder, chanOf_eq_none h]

section
variable {o : Order} (hc : (o.p 0).toNat = c.val)
include hc

theorem stopChannelOrder_stopped (h : (s.chan c).state = .stopped) : stopChannelOrder o s = s.report .refusedState := by
  simp only [stopChannelOrder, chanOf_eq_some hc, h]

theorem stopChannelOrder_armed (h : (s.chan c).state = .armed) :
    stopChannelOrder o s = (s.stopChannel c).report .done := by
  simp only [stopChannelOrder, chanOf_eq_some hc, h]

theorem stopChannelOrder_running (h : (s.chan c).state = .running) :
    stopChannelOrder o s = (s.setChan c { s.chan c with stopPending := true }).report .done := by
  simp only [stopChannelOrder, chanOf_eq_some hc, h]

end

theorem exec_stopChannel_taken {o : Order} (hstep : s.oe.step = .taken o) (hk : o.kind = .stopChannel) :
    exec .stopChannel s = .next (stopChannelOrder o s) :=
  congrArg Host.Outcome.next (s.handOrder_taken _ _ o hstep hk)

/-- Settles O21: the stop edge and the STOP CHANNEL order, each a stop of the channel or a stop made pending. -/
theorem channelStops : Obligations.ChannelStops := by
  refine ⟨fun s c g hrun hstop hcur hdue => ?edge, fun s o hstep hk hrange => ?badChannel,
    fun s o c hstep hk hc => ⟨fun h => ?_, fun h => ?_, fun h => ?_⟩, fun s c => rfl⟩
  case edge =>
    rw [exec_channelEdge hrun hcur hdue, State.emitEdge_stop hstop, State.stopChannel,
      Channel.eventSegment_some hcur]
    rfl
  case badChannel =>
    rw [exec_stopChannel_taken hstep hk, stopChannelOrder_badChannel hrange]
    rfl
  all_goals rw [exec_stopChannel_taken hstep hk]
  · rw [stopChannelOrder_stopped hc h]
    rfl
  · rw [stopChannelOrder_armed hc h]
    rfl
  · rw [stopChannelOrder_running hc h]

/-! ## The channel-stop notice (R102) -/

theorem stoppedState_eq (st : DevState) : stoppedState st = if st = .settling ∨ st = .locked then .drifting else st := by
  cases st <;> rfl

section
variable {i : Fin 48}

theorem State.stopNoticeAt_unmoved
    (h : (s.slot i).boundTo ≠ some c ∨ (s.slot i).state = .empty ∨ (s.slot i).state = .drifting) :
    State.stopNoticeAt c s i = s := by
  rcases h with hbound | hempty | hdrifting
  · exact if_neg hbound
  · simp only [State.stopNoticeAt, hempty, ite_self]
  · simp only [State.stopNoticeAt, hdrifting, ite_self]

variable (hb : (s.slot i).boundTo = some c)
include hb

theorem State.stopNoticeAt_drifts
    (h : (s.slot i).state = .enrolled ∨ (s.slot i).state = .settling ∨ (s.slot i).state = .locked) :
    State.stopNoticeAt c s i = s.enterDrifting i .channelStopped := by
  rcases h with h | h | h <;> simp only [State.stopNoticeAt, hb, if_true, h]

theorem State.stopNoticeAt_absent (h : (s.slot i).state = .absent) :
    State.stopNoticeAt c s i = s.setSlot i { s.slot i with before := (s.slot i).before.map stoppedState } := by
  simp only [State.stopNoticeAt, hb, if_true, h]

theorem State.stopNoticeAt_jamming (h : (s.slot i).state = .jamming) :
    State.stopNoticeAt c s i =
      s.setSlot i
        { s.slot i with jam := (s.slot i).jam.map (fun j => { j with remembered := stoppedState j.remembered }) } := by
  simp only [State.stopNoticeAt, hb, if_true, h]

end

theorem State.recoveryTaken_noRecovery {i : Fin 48} (reason : DriftReason) (h : (s.slot i).recovery = .noRecovery) :
    s.recoveryTaken i reason = .none := by
  rw [State.recoveryTaken, h]
  exact ite_self _

/-- The slot of an update under a raised cause is the record set. -/
theorem State.slot_raise_setSlot (s : State) (i : Fin 48) (x : Device) (a : Cause) :
    ((s.setSlot i x).raise a).slot i = x :=
  (State.slot_congr (by simp) i).trans (s.setSlot_slot_same i x)

/-- Settles O22: the notice at one slot by its binding and its state. -/
theorem channelStopNotice : Obligations.ChannelStopNotice := by
  refine ⟨fun s c i => State.stopNoticeAt_unmoved, fun s c i hb hstate => ?drifts, fun s c i b hb hstate hbefore => ?absent,
    fun s c i j hb hstate hjam => ?jamming, fun s c => rfl⟩
  case drifts =>
    have hnotice := State.stopNoticeAt_drifts hb hstate
    refine ⟨hnotice, hnotice, fun hrec => ?_⟩
    have htaken : State.recoveryTaken ((s.setSlot i { s.slot i with state := .drifting }).raise .device) i
        .channelStopped = .none :=
      State.recoveryTaken_noRecovery _ (by rw [State.slot_raise_setSlot]; exact hrec)
    rw [hnotice, State.enterDrifting]
    dsimp only
    rw [htaken]
    rfl
  case absent => rw [State.stopNoticeAt_absent hb hstate, hbefore, Option.map_some, stoppedState_eq]
  case jamming => rw [State.stopNoticeAt_jamming hb hstate, hjam, Option.map_some, stoppedState_eq]

/-! ## The armed start and the pulse end (R49, R55) -/

theorem exec_channelArmedStart {t0 : Nat} (h : (s.chan c).state = .armed) (hst : (s.chan c).startSt = some t0)
    (hdue : t0 ≤ s.tb.st) : exec (.channelArmedStart c) s = .next (s.armedStart c t0) := by
  show execChannelArmedStart c s = _
  rw [execChannelArmedStart, h, hst]
  dsimp only
  rw [if_pos hdue]

/-- Settles O23: the armed start drives edge 0 of its new segment; a pulse ends at its instant. -/
theorem armedStartAndPulseEnd : Obligations.ArmedStartAndPulseEnd := by
  refine ⟨fun s c t0 harmed hst hdue => ?_, fun s c e hpulse => ?_⟩
  · rw [exec_channelArmedStart harmed hst hdue, State.armedStart, Channel.drive_eq rfl]
    rfl
  · show execPulseEnd c s = _
    rw [execPulseEnd, hpulse]

end Sys2Proof.Machine
end

section
/-! A forward step of studio time at the channels and at the roster (R60 to R62, R107). -/

namespace Sys2Proof.Machine

variable {s : State} {c : Fin 16} {ch : Channel} {g : Segment} {stamp limit : Nat}

/-! ## The edges in the span -/

theorem Segment.instant_base (g : Segment) : g.instant g.base = g.origin := by simp [Segment.instant]

/-- The last edge before a limit, from an edge before it on. -/
theorem Segment.exists_lastBefore (hrate : g.rate.legal = true) {j : Nat} (hlt : g.instant j < limit) :
    ∃ k : Nat, g.edgeAt ((limit : Int) - 1) = k ∧ j ≤ k ∧ g.instant k < limit ∧ (limit : Int) ≤ g.instant ((k : Int) + 1) := by
  have hle : (j : Int) ≤ g.edgeAt ((limit : Int) - 1) := (g.instant_le_iff hrate _ _).mp (by omega)
  obtain ⟨k, hk⟩ : ∃ k : Nat, g.edgeAt ((limit : Int) - 1) = k := ⟨_, (Int.toNat_of_nonneg (by omega)).symm⟩
  have hat : g.instant k ≤ (limit : Int) - 1 := hk ▸ Segment.instant_edgeAt_le hrate _
  have hnext : (limit : Int) - 1 < g.instant ((k : Int) + 1) := (g.lt_instant_iff hrate _ _).mpr (by omega)
  exact ⟨k, hk, by omega, by omega, by omega⟩

/-- A channel at an edge before the limit goes on to the last edge before it. -/
theorem Channel.skipRest_eq {k : Nat} (hcur : ch.cur = some g) (hk : g.edgeAt ((limit : Int) - 1) = k) (hle : ch.frame ≤ k)
    (hlast : ch.lastEdge = some (g.instant ch.frame).toNat) :
    ch.skipRest limit = { ch with frame := k, lastEdge := some (g.instant k).toNat } := by
  rw [Channel.skipRest, hcur]
  dsimp only
  rw [hk]
  split
  next => rfl
  next hnot =>
    obtain rfl : k = ch.frame := by omega
    rw [← hlast, ← hcur]

theorem State.channelStep_running (hrun : (s.chan c).state = .running) :
    State.channelStep stamp limit s c = s.skipEdges c stamp limit := by
  rw [State.channelStep]
  rw [hrun]

section
variable (hcur : (s.chan c).cur = some g)
include hcur

theorem State.skipEdges_outside
    (h : ¬(stamp < (g.instant (((s.chan c).frame : Int) + 1)).toNat ∧
      (g.instant (((s.chan c).frame : Int) + 1)).toNat < limit)) :
    s.skipEdges c stamp limit = s.setChan c (s.chan c).quiet := by
  rw [State.skipEdges]
  rw [Channel.nextEdge_some hcur]
  exact if_neg h

variable (hafter : stamp < (g.instant (((s.chan c).frame : Int) + 1)).toNat)
  (hbefore : (g.instant (((s.chan c).frame : Int) + 1)).toNat < limit)
include hafter hbefore

theorem State.skipEdges_stop (h : (s.chan c).stopPending = true) : s.skipEdges c stamp limit = s.stopChannel c := by
  rw [State.skipEdges]
  rw [Channel.nextEdge_some hcur]
  dsimp only
  rw [if_pos ⟨hafter, hbefore⟩, if_pos h]

theorem State.skipEdges_counted (h : (s.chan c).stopPending = false) :
    s.skipEdges c stamp limit =
      (s.setChan c (((((s.chan c).count (g.instant (((s.chan c).frame : Int) + 1)).toNat).latch
        (g.instant (((s.chan c).frame : Int) + 1)).toNat).skipRest limit).quiet)).retimeRecord c (s.chan c) := by
  rw [State.skipEdges]
  rw [Channel.nextEdge_some hcur]
  dsimp only
  rw [if_pos ⟨hafter, hbefore⟩, h]
  rfl

end

/-- A span without an edge leaves a RUNNING channel but for its lines (R60; log entry 19). -/
theorem State.channelStep_noEdge (hrun : (s.chan c).state = .running) (hcur : (s.chan c).cur = some g)
    (h : ¬(stamp < (g.instant (((s.chan c).frame : Int) + 1)).toNat ∧
      (g.instant (((s.chan c).frame : Int) + 1)).toNat < limit)) :
    State.channelStep stamp limit s c = s.setChan c (s.chan c).quiet :=
  (State.channelStep_running hrun).trans (State.skipEdges_outside hcur h)

theorem State.channelStep_armed {t0 : Nat} (h : (s.chan c).state = .armed) (hst : (s.chan c).startSt = some t0) :
    State.channelStep stamp limit s c =
      if stamp < t0 ∧ t0 < limit then
        (s.setChan c ((((s.chan c).started t0 0 t0).skipRest limit).quiet)).startRecord c t0
      else s := by
  rw [State.channelStep]
  rw [h, hst]

/-! ## The roster's step (R107) -/

/-- The record after a step, as the parts of it that hold an instant move (R107). -/
theorem Device.shift_congr (x : Device) (d : Nat) (move : Tie → Tie) (moveJam : JamContext → JamContext)
    (htie : x.boundTo = none → ∀ t, x.anchor = some t ∨ x.verify = some t → move t = { t with st := instant64 (t.st + d) })
    (hjam : ∀ j, x.jam = some j →
      moveJam j = { j with setInstant := j.setInstant.map (fun t => instant64 (t + d)) }) :
    x.shift d =
      { x with
        anchor := if x.boundTo.isNone then x.anchor.map move else x.anchor
        verify := if x.boundTo.isNone then x.verify.map move else x.verify
        jam := x.jam.map moveJam } := by
  have hj : x.jam.map moveJam =
      x.jam.map (fun j => { j with setInstant := j.setInstant.map (fun t => instant64 (t + d)) }) :=
    Option.map_congr hjam
  rw [hj, Device.shift]
  cases hb : x.boundTo.isNone with
  | true =>
    have hnone := Option.isNone_iff_eq_none.mp hb
    have ha := Option.map_congr fun t ht => (htie hnone t (.inl ht)).symm
    have hv := Option.map_congr fun t ht => (htie hnone t (.inr ht)).symm
    simp only [if_true, ha, hv]
  | false => rfl

theorem JamContext.moved_eq {j : JamContext} {d : Nat} (h : ∀ si, j.setInstant = some si → si + d < 2 ^ 64) :
    { j with setInstant := j.setInstant.map (· + d) } =
      { j with setInstant := j.setInstant.map (fun t => instant64 (t + d)) } := by
  rw [Option.map_congr fun t ht => (instant64_of_lt (h t ht)).symm]

/-- Settles O26: one channel by its state and the edges in the span, then the roster's records by their binding. -/
theorem stepAtChannelsAndRoster : Obligations.StepAtChannelsAndRoster := by
  refine ⟨fun s a b => rfl, fun s a b c hstopped => ?stopped,
    fun s a b c g hrun hcur => ⟨State.channelStep_noEdge hrun hcur, fun ha hb hstop => ?stop,
      fun ha hb hstop hrate => ?counted, fun set ha hb hstop hst hrate => ?full⟩,
    fun s a b t0 c harmed hst => ⟨fun h => ?notStarted, fun ha hb hrate => ?started⟩,
    State.rosterStep_slot, fun x d htie hjam => ⟨fun hb => ?unbound, fun hb => ?bound⟩⟩
  case stopped => simp only [State.channelStep, hstopped]
  case stop => rw [State.channelStep_running hrun, State.skipEdges_stop hcur ha hb hstop]
  case counted =>
    obtain ⟨k, hk, hle, hbefore, hafter⟩ := Segment.exists_lastBefore (j := (s.chan c).frame + 1) (limit := b) hrate
      (by push_cast; omega)
    refine ⟨k, hle, hbefore, hafter, fun hst => ?_, fun w hst => ?_⟩
    all_goals rw [State.channelStep_running hrun, State.skipEdges_counted hcur ha hb hstop]
    · have hlatch := Channel.latch_none (ch := (s.chan c).count (g.instant (((s.chan c).frame : Int) + 1)).toNat) hst
      rw [hlatch, State.retimeRecord_none hst, Channel.skipRest_eq (g := g) ?_ hk ?_ ?_]
      · rfl
      · exact hcur
      · exact hle
      · rfl
    · have hlatch := Channel.latch_user (ch := (s.chan c).count (g.instant (((s.chan c).frame : Int) + 1)).toNat) hst
      rw [hlatch, State.retimeRecord_user hst, Channel.skipRest_eq (g := g) ?_ hk ?_ ?_]
      · rfl
      · exact hcur
      · exact hle
      · rfl
  case full =>
    have hbase := Segment.instant_base
      ⟨(g.instant (((s.chan c).frame : Int) + 1)).toNat, (s.chan c).frame + 1, set.rate⟩
    obtain ⟨k, hk, hle, hbefore, hafter⟩ := Segment.exists_lastBefore
      (g := ⟨(g.instant (((s.chan c).frame : Int) + 1)).toNat, (s.chan c).frame + 1, set.rate⟩)
      (j := (s.chan c).frame + 1) (limit := b) hrate (by rw [hbase]; exact Int.ofNat_lt.mpr hb)
    have hlatch := Channel.latch_full (ch := (s.chan c).count (g.instant (((s.chan c).frame : Int) + 1)).toNat) hst hcur
    refine ⟨k, hle, hbefore, hafter, ?_⟩
    rw [State.channelStep_running hrun, State.skipEdges_counted hcur ha hb hstop, hlatch,
      Channel.skipRest_eq rfl hk hle (congrArg (fun t : Int => some t.toNat) hbase).symm,
      State.retimeRecord_full hst (by rw [State.setChan_chan_same]; rfl)]
    rfl
  case notStarted => rw [State.channelStep_armed harmed hst, if_neg h]
  case started =>
    have hbase := Segment.instant_base ⟨t0, 0, (s.chan c).cfg.rate⟩
    obtain ⟨k, hk, hle, hbefore, hafter⟩ := Segment.exists_lastBefore (g := ⟨t0, 0, (s.chan c).cfg.rate⟩) (j := 0)
      (limit := b) hrate (by rw [hbase]; exact Int.ofNat_lt.mpr hb)
    refine ⟨k, hbefore, hafter, ?_⟩
    rw [State.channelStep_armed harmed hst, if_pos ⟨ha, hb⟩,
      Channel.skipRest_eq rfl hk hle (congrArg (fun t : Int => some t.toNat) hbase).symm]
    rfl
  case unbound =>
    rw [x.shift_congr d (fun t => { t with st := t.st + d }) (fun j => { j with setInstant := j.setInstant.map (· + d) }), hb]
    · rfl
    · intro _ t ht
      rw [instant64_of_lt (htie hb t ht)]
    · exact fun j hj => JamContext.moved_eq (hjam j · hj)
  case bound =>
    rw [x.shift_congr d id (fun j => { j with setInstant := j.setInstant.map (· + d) })]
    · obtain ⟨c, hc⟩ := Option.ne_none_iff_exists'.mp hb
      rw [hc]
      rfl
    · exact fun h => absurd h hb
    · exact fun j hj => JamContext.moved_eq (hjam j · hj)

end Sys2Proof.Machine
end

section
/-! The link's rows: the next turn, a SET turn, the end of a turn, answers and misses (R71, R73 to R86, R99, R123, R127). -/

namespace Sys2Proof.Machine

variable {s : State} {i : Fin 48} {t : Turn}

/-! ## The next turn (R82 to R85) -/

/-- A turn may begin: the link is idle, or the gap has lasted 540 ticks (R80). -/
def State.TurnDue (s : State) : Prop := s.lc.phase = .idle ∨ (s.lc.phase = .gap ∧ 540 ≤ s.lc.timer)

theorem exec_nextTurn_due (h : s.TurnDue) : exec .nextTurn s = .next s.takeTurn := by
  show execNextTurn s = _
  rcases h with h | ⟨h, hgap⟩
  · rw [execNextTurn, h]
  · rw [execNextTurn, h]
    exact congrArg Host.Outcome.next (if_pos hgap)

theorem exec_nextTurn_notDue (hidle : s.lc.phase ≠ .idle) (h : s.lc.phase ≠ .gap ∨ s.lc.timer < 540) :
    exec .nextTurn s = .next s := by
  show execNextTurn s = _
  cases hp : s.lc.phase with
  | idle => exact absurd hp hidle
  | gap =>
    rw [execNextTurn, hp]
    exact congrArg Host.Outcome.next (if_neg (h.resolve_left (not_not.mpr hp)).not_ge)
  | sendingSet => rw [execNextTurn, hp]
  | sendingCall => rw [execNextTurn, hp]
  | window => rw [execNextTurn, hp]
  | answering stamp gen => rw [execNextTurn, hp]

theorem State.takeTurn_none (h : s.nextTurnChoice = none) :
    s.takeTurn = { s with lc := { s.lc with phase := .idle, timer := 0 } } := by
  rw [State.takeTurn, h]

theorem State.takeTurn_rotation (h : s.nextTurnChoice = some (false, i)) : s.takeTurn = s.rotationTurn i := by
  rw [State.takeTurn, h]

theorem State.takeTurn_urgent (h : s.nextTurnChoice = some (true, i)) : s.takeTurn = s.urgentTurn i := by
  rw [State.takeTurn, h]

/-- With no SET pending an urgent turn carries a CALL (R83). -/
theorem State.urgentTurn_call (h : ∀ j, (s.slot i).jam = some j → j.setPending = false) :
    s.urgentTurn i = (s.beginTurn i true).sendCall (s.slot i).linkAddr := by
  unfold State.urgentTurn
  dsimp only
  split
  next j hj => rw [if_neg (by rw [h j hj]; exact Bool.false_ne_true)]
  next => rfl

theorem State.urgentTurn_set {j : JamContext} (hj : (s.slot i).jam = some j) (h : j.setPending = true) :
    s.urgentTurn i = (s.beginTurn i true).setTurn i j (s.slot i).linkAddr := by
  unfold State.urgentTurn
  rw [hj]
  exact if_pos h

/-- Settles O29: the turn taken by the choice, and none before it is due. -/
theorem nextTurn : Obligations.NextTurn := by
  refine ⟨fun s hdue => ⟨fun h => ?_, fun i h => ?_, fun i h hjam => ?_⟩, fun s => exec_nextTurn_notDue⟩
  all_goals rw [exec_nextTurn_due hdue]
  · rw [State.takeTurn_none h]
  · rw [State.takeTurn_rotation h]
    rfl
  · rw [State.takeTurn_urgent h, State.urgentTurn_call hjam]
    rfl

/-! ## The SET turn (R71, R123) -/

theorem setLabel_some {ch : Channel} {st : Nat} {g : Segment} {stale : Bool}
    (h : ch.segmentAt ((st : Int) + 2430) = some (g, stale)) :
    setLabel ch st = some (ch.labelAt (g.edgeAt ((st : Int) + 2430) + 1)) := by
  rw [setLabel, h]

theorem State.setTurn_sent {j : JamContext} {label : Nat} (addr : Nat) (husable : usableSource (s.chan j.source) (s.slot i) = true)
    (hlabel : setLabel (s.chan j.source) s.tb.st = some label) :
    s.setTurn i j addr =
      (s.setSlot i { s.slot i with jam := some (j.setTaken s.tb.st label) }).send .sendingSet
        (setChars addr ((s.chan j.source).cfg.fmt.labelOf label) (s.chan j.source).cfg.fmt.drop) := by
  simp only [State.setTurn, husable, if_true, hlabel]

theorem State.setTurn_unusable {j : JamContext} (addr : Nat)
    (h : usableSource (s.chan j.source) (s.slot i) = false) :
    s.setTurn i j addr = (s.jamEnd i .sourceStopped).sendCall addr := by
  simp only [State.setTurn, h, Bool.false_eq_true, if_false]

/-- Settles O30: a usable source gives the SET's label, any other ends the jam. -/
theorem setTurn : Obligations.SetTurn := by
  intro s i j hdue hchoice hjam hpending
  refine ⟨fun g stale hrun hpicture hfmt hseg => ?_, fun hnot => ?_⟩
  all_goals rw [exec_nextTurn_due hdue, State.takeTurn_urgent hchoice, State.urgentTurn_set hjam hpending]
  · have husable : usableSource ((s.beginTurn i true).chan j.source) ((s.beginTurn i true).slot i) = true :=
      usableSource_iff.mpr ⟨hrun, hpicture, hfmt⟩
    rw [State.setTurn_sent _ husable (setLabel_some hseg)]
    rfl
  · have hunusable : usableSource ((s.beginTurn i true).chan j.source) ((s.beginTurn i true).slot i) = false := by
      refine Bool.eq_false_iff.mpr fun h => ?_
      obtain ⟨hrun, hpicture, hfmt⟩ := usableSource_iff.mp h
      exact hnot.elim (· hrun) (·.elim (· hpicture) (· hfmt))
    rw [State.setTurn_unusable _ hunusable]
    rfl

/-! ## The end of a turn (R80, R83, R86) -/

/-- The link at a turn's end: after an urgent turn a slot that is still JAMMING goes back to the tail of the queue. -/
def State.turnEnded (s : State) (t : Turn) : State :=
  { s with
    lc :=
      { s.lc with
        urgent := if t.urgent = true ∧ (s.slot t.slot).state = .jamming ∧ t.slot ∉ s.lc.urgent then s.lc.urgent ++ [t.slot]
          else s.lc.urgent
        turn := none, phase := .gap, timer := 0, tx := [] } }

theorem State.endTurn_eq (s : State) (t : Turn) : s.endTurn t = (s.turnEnded t).serviceEnded t.slot := by
  have hiff : (t.urgent && (s.slot t.slot).state == .jamming && !s.lc.urgent.contains t.slot) = true ↔
      t.urgent = true ∧ (s.slot t.slot).state = .jamming ∧ t.slot ∉ s.lc.urgent := by
    simp [and_assoc]
  unfold State.endTurn State.turnEnded State.putBack
  simp only [hiff]
  split
  · rfl
  · rfl

theorem State.serviceEnded_other (h : ∀ e, s.exch = some e → e.slot ≠ i ∨ e.phase ≠ .waitService) :
    s.serviceEnded i = s := by
  unfold State.serviceEnded
  split
  next e he => exact if_neg (fun hwait => (h e he).elim (· hwait.1) (· hwait.2))
  next => rfl

section
variable {e : Exchange} (he : s.exch = some e) (hslot : e.slot = i) (hphase : e.phase = .waitService)
include he hslot hphase

theorem State.serviceEnded_reads (h : (s.slot i).state ≠ .jamming) :
    s.serviceEnded i = s.setExchange (some { e with phase := .reading [] }) := by
  rw [State.serviceEnded, he]
  dsimp only
  rw [if_pos ⟨hslot, hphase⟩, if_neg h]

theorem State.serviceEnded_busy (h : (s.slot i).state = .jamming) : s.serviceEnded i = s.endExchange e .refusedBusy := by
  rw [State.serviceEnded, he]
  dsimp only
  rw [if_pos ⟨hslot, hphase⟩, if_pos h]

end

/-- Settles O31: each event when it is due, and a turn's end by the EXCHANGE that waits for it. -/
theorem turnEvents : Obligations.TurnEvents := by
  refine ⟨fun s t hphase hturn hdue => ?_, fun s hphase hdue => ?_, fun s hphase hdue => ?_,
    fun s t => ⟨fun hother => ?_, fun e he hslot hwait => ⟨fun h => ?_, fun h => ?_⟩⟩⟩
  · show execSetTurnEnd s = _
    rw [execSetTurnEnd, hphase, hturn]
    exact congrArg Host.Outcome.next (if_pos hdue)
  · show execAnswerWindowOpen s = _
    rw [execAnswerWindowOpen, hphase]
    exact congrArg Host.Outcome.next (if_pos hdue)
  · show execAnswerStart s = _
    rw [execAnswerStart, hphase]
    exact congrArg Host.Outcome.next (if_pos hdue)
  · exact (s.endTurn_eq t).trans (State.serviceEnded_other (s := s.turnEnded t) hother)
  · exact (s.endTurn_eq t).trans (State.serviceEnded_reads (s := s.turnEnded t) he hslot hwait h)
  · exact (s.endTurn_eq t).trans (State.serviceEnded_busy (s := s.turnEnded t) he hslot hwait h)

/-! ## Misses (R77 to R79, R99, R127) -/

theorem State.holdsAddress_iff : s.holdsAddress t = true ↔ (s.slot t.slot).state ≠ .empty ∧ (s.slot t.slot).linkAddr = t.addr := by
  rw [State.holdsAddress, Bool.and_eq_true, Device.occupied_iff, beq_iff_eq]

theorem State.deliverMiss_held (h : (s.slot t.slot).state ≠ .empty ∧ (s.slot t.slot).linkAddr = t.addr) :
    s.deliverMiss t = s.deviceMiss t.slot :=
  if_pos (State.holdsAddress_iff.mpr h)

theorem State.deliverMiss_gone (h : ¬((s.slot t.slot).state ≠ .empty ∧ (s.slot t.slot).linkAddr = t.addr)) :
    s.deliverMiss t = s :=
  if_neg (mt State.holdsAddress_iff.mp h)

theorem exec_answerWindowClose (hphase : s.lc.phase = .window) (hturn : s.lc.turn = some t) (hdue : 8100 ≤ s.lc.timer) :
    exec .answerWindowClose s = .next ((s.deliverMiss t).endTurn t) := by
  show execAnswerWindowClose s = _
  rw [execAnswerWindowClose, hphase, hturn]
  exact congrArg Host.Outcome.next (if_pos hdue)

theorem State.deviceMiss_counted (he : (s.slot i).state ≠ .empty) (ha : (s.slot i).state ≠ .absent)
    (h : (s.slot i).miss < 7) : s.deviceMiss i = s.setSlot i { s.slot i with miss := (s.slot i).miss + 1 } := by
  unfold State.deviceMiss
  dsimp only
  split
  next hempty => exact absurd hempty he
  next habsent => exact absurd habsent ha
  all_goals exact if_neg (by omega)

theorem State.deviceMiss_absent (h : (s.slot i).state = .absent) : s.deviceMiss i = s := by
  simp only [State.deviceMiss, h]

theorem State.deviceMiss_jamming (h : (s.slot i).state = .jamming) (hmiss : (s.slot i).miss = 7) :
    s.deviceMiss i = (s.setSlot i { s.slot i with miss := 8 }).jamEnd i .noAnswer := by
  unfold State.deviceMiss
  dsimp only
  split
  case h_3 => rw [hmiss, if_pos (by decide)]
  all_goals simp_all

/-- The eighth miss makes a record ABSENT. -/
theorem State.deviceMiss_eighth (hmiss : (s.slot i).miss = 7)
    (hst : (s.slot i).state = .enrolled ∨ (s.slot i).state = .settling ∨ (s.slot i).state = .locked ∨
      (s.slot i).state = .drifting) :
    s.deviceMiss i = (s.setSlot i { s.slot i with miss := 8 }).enterAbsent i (s.slot i).state := by
  have hle : 8 ≤ (s.slot i).miss + 1 := by omega
  rcases hst with h | h | h | h
  all_goals
    simp only [State.deviceMiss, h, if_pos hle]
    rw [hmiss]

theorem State.enterAbsent_setSlot (s : State) (i : Fin 48) (x : Device) (before : DevState) :
    (s.setSlot i x).enterAbsent i before =
      State.sysEvent (.deviceState i x.linkAddr .absent)
        ((s.setSlot i { x with state := .absent, before := some before }).raise .device) := by
  rw [State.enterAbsent, State.setSlot_slot_same, State.setSlot_setSlot]

/-- Settles O32: the miss delivered when the slot still holds the address, and a miss by the record's state. -/
theorem answerWindowClose : Obligations.AnswerWindowClose := by
  refine ⟨fun s t hphase hturn hdue => ⟨fun he ha => ?_, fun h => ?_⟩, fun s i => State.deviceMiss_counted,
    fun s i st hst hmiss hfour => ?_, fun s i => State.deviceMiss_jamming, fun s i => State.deviceMiss_absent⟩
  · rw [exec_answerWindowClose hphase hturn hdue, State.deliverMiss_held ⟨he, ha⟩]
  · have hgone : ¬((s.slot t.slot).state ≠ .empty ∧ (s.slot t.slot).linkAddr = t.addr) :=
      fun hheld => h.elim hheld.1 (· hheld.2)
    rw [exec_answerWindowClose hphase hturn hdue, State.deliverMiss_gone hgone]
  · subst hst
    rw [State.deviceMiss_eighth hmiss hfour, State.enterAbsent_setSlot]

/-! ## Answers (R73 to R78) -/

theorem declaredLength_charAt (chars : List RxChar) : declaredLength chars = (charAt chars 2).toNat % 32 := by
  match chars with
  | [] => rfl
  | [_] => rfl
  | [_, _] => rfl
  | _ :: _ :: _ :: _ => rfl

theorem legalReportLength_iff {n : Nat} : legalReportLength n = true ↔ n ∈ [10, 16, 22, 28] := by
  simp [legalReportLength, or_assoc]

theorem answerComplete_iff {chars : List RxChar} :
    answerComplete chars = true ↔ declaredLength chars ∈ [10, 16, 22, 28] ∧ chars.length = declaredLength chars := by
  rw [answerComplete, Bool.and_eq_true, legalReportLength_iff, beq_iff_eq]

theorem answerCutShort_iff {chars : List RxChar} :
    answerCutShort chars = true ↔
      chars ≠ [] ∧ (declaredLength chars ∉ [10, 16, 22, 28] ∨ chars.length < declaredLength chars) := by
  rw [answerCutShort, Bool.and_eq_true, Bool.or_eq_true, Bool.not_eq_true', ← Bool.not_eq_true, List.isEmpty_iff,
    Bool.not_eq_true', ← Bool.not_eq_true, legalReportLength_iff, decide_eq_true_eq]

theorem garbledAnswer_quiet (chars : List RxChar) (addr : Nat) (d : Device) : garbledAnswer chars true addr d = true :=
  garbledAnswer_of_not fun h => by
    obtain ⟨-, -, -, -, hquiet, -⟩ := garbledAnswer_eq_false_iff.mp h
    cases hquiet

section
variable {stamp : Nat} {gen : BitVec 16} {chars : List RxChar}

theorem exec_answerEnd (hphase : s.lc.phase = .answering stamp gen) (hturn : s.lc.turn = some t)
    (hcomplete : answerComplete chars = true) (hdue : chars.length * 270 ≤ s.lc.timer) :
    exec (.answerEnd chars) s = .next ((s.answerDelivery t stamp gen chars false).endTurn t) := by
  show execAnswerEnd chars s = _
  rw [execAnswerEnd, hphase, hturn]
  refine congrArg Host.Outcome.next (if_pos ?_)
  rw [hcomplete]
  exact decide_eq_true hdue

theorem exec_quietLine (hphase : s.lc.phase = .answering stamp gen) (hturn : s.lc.turn = some t)
    (hcut : answerCutShort chars = true) (hdue : chars.length * 270 + 540 ≤ s.lc.timer) :
    exec (.quietLine chars) s = .next ((s.answerDelivery t stamp gen chars true).endTurn t) := by
  show execQuietLine chars s = _
  rw [execQuietLine, hphase, hturn]
  refine congrArg Host.Outcome.next (if_pos ?_)
  rw [hcut]
  exact decide_eq_true hdue

variable {quiet : Bool}

theorem State.answerDelivery_garbled (h : garbledAnswer chars quiet t.addr (s.slot t.slot) = true) :
    s.answerDelivery t stamp gen chars quiet = State.deliverMiss { s with lc := { s.lc with garbled := s.lc.garbled + 1 } } t :=
  if_pos h

variable (hgood : garbledAnswer chars quiet t.addr (s.slot t.slot) = false)
include hgood

theorem State.answerDelivery_unknown (h : ¬((s.slot t.slot).state ≠ .empty ∧ (s.slot t.slot).linkAddr = t.addr)) :
    s.answerDelivery t stamp gen chars quiet = { s with lc := { s.lc with unknown := s.lc.unknown + 1 } } := by
  rw [State.answerDelivery, hgood, if_neg Bool.false_ne_true,
    if_pos (Bool.eq_false_iff.mpr (mt State.holdsAddress_iff.mp h))]

variable (h : (s.slot t.slot).state ≠ .empty ∧ (s.slot t.slot).linkAddr = t.addr)
include h

theorem State.answerDelivery_spanned (hgen : s.tb.gen ≠ gen) : s.answerDelivery t stamp gen chars quiet = s := by
  rw [State.answerDelivery, hgood, if_neg Bool.false_ne_true, State.holdsAddress_iff.mpr h, if_neg (by simp),
    if_pos hgen]

theorem State.answerDelivery_report (hgen : s.tb.gen = gen) :
    s.answerDelivery t stamp gen chars quiet = s.reportArrival t.slot (readReport (s.slot t.slot) stamp chars) := by
  rw [State.answerDelivery, hgood, if_neg Bool.false_ne_true, State.holdsAddress_iff.mpr h, if_neg (by simp),
    if_neg (not_not.mpr hgen)]

end

/-- A test of R74 that needs no record fails. -/
def AnswerFails (chars : List RxChar) (quiet : Bool) (addr : Nat) : Prop :=
  charAt chars 0 ≠ syncChar ∨ (∃ c ∈ chars, c.framingError = true) ∨ (charAt chars 2).toNat / 32 ≠ 3 ∨
    (charAt chars 2).toNat % 32 ∉ [10, 16, 22, 28] ∨ quiet = true ∨
    (charAt chars 8).toNat / 4 % 4 ≠ ((charAt chars 2).toNat % 32 - 10) / 6 ∨
    crc8 (((chars.map RxChar.value).drop 1).dropLast) ≠ (chars.map RxChar.value).getLastD 0 ∨ (charAt chars 1).toNat ≠ addr

theorem garbledAnswer_eq_false_iff_tests {chars : List RxChar} {quiet : Bool} {addr : Nat} {d : Device} :
    garbledAnswer chars quiet addr d = false ↔
      ¬AnswerFails chars quiet addr ∧ labelValidForSlot d (labelAt chars 3) = true := by
  rw [garbledAnswer_eq_false_iff, declaredLength_charAt, legalReportLength_iff, checkGood, beq_iff_eq, List.any_eq_false]
  simp only [AnswerFails, not_or, not_not, not_exists, not_and, Bool.not_eq_true, and_assoc]
  rfl

/-- Settles O33: the tests of R74, then what each outcome delivers, for a complete answer and for one cut short. -/
theorem answerEnd : Obligations.AnswerEnd := by
  refine ⟨fun s t stamp gen chars hphase hturn hcomplete hdue => ⟨fun hbad => ⟨fun h => ?_, fun h => ?_⟩,
      fun hgood => ⟨fun h => ?_, fun h hgen => ?_, fun h hgen => ?_⟩⟩,
    fun s t stamp gen chars hphase hturn hcut hdue => ⟨fun h => ?_, fun h => ?_⟩,
    fun chars quiet addr d => ⟨fun hfailed => ?_, fun hpassed he => ?_, ?_, ?_⟩⟩
  · rw [exec_answerEnd hphase hturn hcomplete hdue, State.answerDelivery_garbled hbad]
    exact congrArg (fun u : State => Host.Outcome.next (u.endTurn t)) (State.deliverMiss_held h)
  · rw [exec_answerEnd hphase hturn hcomplete hdue, State.answerDelivery_garbled hbad]
    exact congrArg (fun u : State => Host.Outcome.next (u.endTurn t)) (State.deliverMiss_gone h)
  · rw [exec_answerEnd hphase hturn hcomplete hdue, State.answerDelivery_unknown hgood h]
  · rw [exec_answerEnd hphase hturn hcomplete hdue, State.answerDelivery_spanned hgood h hgen]
  · rw [exec_answerEnd hphase hturn hcomplete hdue, State.answerDelivery_report hgood h hgen]
  · rw [exec_quietLine hphase hturn hcut hdue, State.answerDelivery_garbled (garbledAnswer_quiet _ _ _)]
    exact congrArg (fun u : State => Host.Outcome.next (u.endTurn t)) (State.deliverMiss_held h)
  · rw [exec_quietLine hphase hturn hcut hdue, State.answerDelivery_garbled (garbledAnswer_quiet _ _ _)]
    exact congrArg (fun u : State => Host.Outcome.next (u.endTurn t)) (State.deliverMiss_gone h)
  · exact garbledAnswer_of_not fun hgood => (garbledAnswer_eq_false_iff_tests.mp hgood).1 hfailed
  · have hiff : garbledAnswer chars quiet addr d = false ↔ d.fmt.valid (labelAt chars 3) = true := by
      rw [garbledAnswer_eq_false_iff_tests, labelValidForSlot_occupied he]
      exact and_iff_right hpassed
    rw [← Bool.not_eq_false, hiff, Bool.not_eq_true]
    rfl
  · rw [answerComplete_iff, declaredLength_charAt]
    rfl
  · rw [answerCutShort_iff, declaredLength_charAt]
    rfl

end Sys2Proof.Machine
end

section
/-! A REPORT at the roster (R91 to R98): the adoption, the tests of SETTLING and LOCKED, and a return; the entry into
DRIFTING with its recovery (R101, R102). -/

namespace Sys2Proof.Machine

variable {s t : State} {i : Fin 48} {x y d : Device} {label edge : Nat} {c : Fin 16} {g : Segment} {stale : Bool}

/-! ## Adoption (R92) -/

/-- The label offset of a bound record that adopts: the label less the channel's label at the edge nearest to the edge
instant. -/
def Channel.adoptedOffset (ch : Channel) (g : Segment) (label edge : Nat) : Int :=
  labelDiff ch.cfg.fmt.fday ((label : Int) % (ch.cfg.fmt.fday : Int)) (ch.labelAt (g.nearestEdge edge))

theorem State.adoptionOffset_unbound (hb : x.boundTo = none) : t.adoptionOffset x label edge = some none := by
  rw [State.adoptionOffset, hb]

theorem State.adoptionOffset_stopped (hb : x.boundTo = some c) (h : (t.chan c).state ≠ .running) :
    t.adoptionOffset x label edge = none := by
  rw [State.adoptionOffset, hb]
  exact if_neg h

theorem State.adoptionOffset_running (hb : x.boundTo = some c) (h : (t.chan c).state = .running)
    (hseg : (t.chan c).segmentAt edge = some (g, stale)) :
    t.adoptionOffset x label edge = some (some ((t.chan c).adoptedOffset g label edge)) := by
  rw [State.adoptionOffset, hb]
  dsimp only
  rw [if_pos h, hseg]
  rfl

theorem State.adoptReport_some {o : Option Int} (hx : t.slot i = x) (h : t.adoptionOffset x label edge = some o) :
    t.adoptReport i label edge = t.setSlot i (x.adopted label edge o) := by
  rw [State.adoptReport, hx, h]

theorem State.adoptReport_none (hx : t.slot i = x) (h : t.adoptionOffset x label edge = none) :
    t.adoptReport i label edge = t.setSlot i x.notAdopted := by
  rw [State.adoptReport, hx, h]

/-- An adoption by a record just set, in one write. -/
theorem State.adoptReport_setSlot_some {o : Option Int} (h : t.adoptionOffset x label edge = some o) :
    (t.setSlot i x).adoptReport i label edge = t.setSlot i (x.adopted label edge o) := by
  rw [State.adoptReport_some (t.setSlot_slot_same i x) h, State.setSlot_setSlot]

theorem State.adoptReport_setSlot_none (h : t.adoptionOffset x label edge = none) :
    (t.setSlot i x).adoptReport i label edge = t.setSlot i x.notAdopted := by
  rw [State.adoptReport_none (t.setSlot_slot_same i x) h, State.setSlot_setSlot]

/-- A record that is SETTLING already stays so when it adopts again (R95). -/
theorem Device.adopted_settling (h : x.state = .settling) (o : Option Int) :
    x.adopted label edge o =
      { x with anchor := some ⟨label, edge⟩, offset := o, verify := none, good := 1, bad := 0 } := by
  rw [Device.adopted, ← h]

theorem Device.notAdopted_enrolled (h : x.state = .enrolled) :
    x.notAdopted = { x with anchor := none, verify := none, offset := none } := by
  rw [Device.notAdopted, ← h]

/-! ## The record's own update (R91) -/

/-- What every REPORT changes of the record. -/
def Device.reported (d : Device) (r : Report) : Device :=
  { d with miss := 0, protectedFlag := r.protectedFlag, dualTrack := r.dualTrack }

/-- The edge instant of a REPORT for a record (R36). -/
def Report.edgeInstant (r : Report) (d : Device) : Nat := reportEdge r.stamp d.pathDelay d.rate r.edgeAge

section
variable (r : Report)

theorem State.reportUpdate_enrolled (h : (s.slot i).state = .enrolled) :
    s.reportUpdate i r = (s.setSlot i ((s.slot i).reported r)).adoptReport i r.label (r.edgeInstant (s.slot i)) := by
  unfold State.reportUpdate
  dsimp only
  split
  case h_2 => rfl
  all_goals simp_all

theorem State.reportUpdate_tested (h : (s.slot i).state = .settling ∨ (s.slot i).state = .locked) :
    s.reportUpdate i r = (s.setSlot i ((s.slot i).reported r)).testedReport i r.label (r.edgeInstant (s.slot i)) := by
  unfold State.reportUpdate
  dsimp only
  split
  case h_3 => rfl
  case h_4 => rfl
  all_goals simp_all

theorem State.reportUpdate_drifting (h : (s.slot i).state = .drifting) :
    s.reportUpdate i r = s.setSlot i ((s.slot i).reported r) := by
  unfold State.reportUpdate
  dsimp only
  split
  case h_5 => rfl
  all_goals simp_all

theorem State.reportUpdate_jamming (h : (s.slot i).state = .jamming) :
    s.reportUpdate i r = (s.setSlot i ((s.slot i).reported r)).jamReport i r.label (r.edgeInstant (s.slot i)) := by
  unfold State.reportUpdate
  dsimp only
  split
  case h_6 => rfl
  all_goals simp_all

theorem State.reportUpdate_absent (h : (s.slot i).state = .absent) :
    s.reportUpdate i r = (s.setSlot i ((s.slot i).reported r)).returnReport i r.label (r.edgeInstant (s.slot i)) := by
  unfold State.reportUpdate
  dsimp only
  split
  case h_7 => rfl
  all_goals simp_all

end

/-- Settles O35: an ENROLLED record adopts by its binding, and so does any record that adopts. -/
theorem adoptingReport : Obligations.AdoptingReport := by
  refine ⟨fun s i r => rfl, fun s i r => ⟨fun h => s.reportUpdate_drifting r h, fun h hb => ?_, fun c h hb hstopped => ?_,
      fun c g stale h hb hrun hseg => ?_⟩,
    fun s i label edge => ⟨fun hb => ?_, fun c hb hstopped => ?_, fun c g stale hb hrun hseg => ?_⟩,
    fun stamp delay rate age => rfl⟩
  · rw [State.reportUpdate_enrolled r h, State.adoptReport_setSlot_some (x := (s.slot i).reported r) (State.adoptionOffset_unbound hb)]
    rfl
  · rw [State.reportUpdate_enrolled r h,
      State.adoptReport_setSlot_none (x := (s.slot i).reported r) (State.adoptionOffset_stopped hb hstopped),
      Device.notAdopted_enrolled (x := (s.slot i).reported r) h]
    rfl
  · have hseg' : (s.chan c).segmentAt (r.edgeInstant (s.slot i)) = some (g, stale) := hseg
    rw [State.reportUpdate_enrolled r h,
      State.adoptReport_setSlot_some (x := (s.slot i).reported r) (State.adoptionOffset_running hb hrun hseg')]
    rfl
  · exact State.adoptReport_some rfl (State.adoptionOffset_unbound hb)
  · exact State.adoptReport_none rfl (State.adoptionOffset_stopped hb hstopped)
  · exact State.adoptReport_some rfl (State.adoptionOffset_running hb hrun hseg)

/-! ## Consistency and drift (R93 to R96) -/

/-- The drift that a REPORT measures, before its clamp (R40). -/
def Device.driftMeasured (d : Device) (a : Tie) (label edge : Nat) : Int :=
  (2 * ((edge : Int) - a.st) * d.rate.d * 1000000000 + labelDiff d.fmt.fday label a.label * d.rate.n) /
    (2 * labelDiff d.fmt.fday label a.label * d.rate.n) - 1000000000

section
variable {a : Tie} (ha : d.anchor = some a)
include ha

theorem Device.measure_short (h : labelDiff d.fmt.fday label a.label < 1000) :
    d.measure label edge = ({ d with verify := some ⟨label, edge⟩ }, false) := by
  have hnone : measuredDrift d.fmt.fday d.rate a ⟨label, edge⟩ = none := if_pos h
  simp only [Device.measure, ha, hnone]

omit ha in
theorem Device.measuredDrift_some (h : 1000 ≤ labelDiff d.fmt.fday label a.label) :
    measuredDrift d.fmt.fday d.rate a ⟨label, edge⟩ = some (d.driftMeasured a label edge) :=
  if_neg h.not_gt

theorem Device.measure_inRange (h : 1000 ≤ labelDiff d.fmt.fday label a.label)
    (hlow : -100000 ≤ d.driftMeasured a label edge) (hhigh : d.driftMeasured a label edge ≤ 100000) :
    d.measure label edge =
      ({ d with verify := some ⟨label, edge⟩, drift := d.driftMeasured a label edge, driftClamped := false }, false) := by
  simp only [Device.measure, ha, Device.measuredDrift_some h, if_neg hlow.not_gt, if_neg hhigh.not_gt]

theorem Device.measure_clamped (h : 1000 ≤ labelDiff d.fmt.fday label a.label)
    (hout : d.driftMeasured a label edge < -100000 ∨ 100000 < d.driftMeasured a label edge) :
    d.measure label edge =
      ({ d with verify := some ⟨label, edge⟩, driftClamped := true
                drift := if d.driftMeasured a label edge < 0 then -100000 else 100000 }, true) := by
  simp only [Device.measure, ha, Device.measuredDrift_some h]
  rcases hout with hlow | hhigh
  · rw [if_pos hlow, if_pos (by omega)]
  · rw [if_neg (by omega), if_pos hhigh, if_neg (by omega)]

end

/-- A record that a consistent REPORT leaves: LOCKED when it may lock and its lock count is reached (R94). -/
def State.settle (s : State) (i : Fin 48) (y : Device) (good : Nat) (mayLock : Bool) : State :=
  if mayLock && y.state == .settling && decide (y.lockCount ≤ good) then
    State.sysEvent (.deviceState i y.linkAddr .locked) (s.setSlot i { y with state := .locked })
  else s.setSlot i y

theorem State.settle_locks {good : Nat} (h : y.state = .settling ∧ y.lockCount ≤ good) :
    s.settle i y good true =
      State.sysEvent (.deviceState i y.linkAddr .locked) (s.setSlot i { y with state := .locked }) :=
  if_pos (by simp [h])

theorem State.settle_stays {good : Nat} (h : ¬(y.state = .settling ∧ y.lockCount ≤ good)) :
    s.settle i y good true = s.setSlot i y :=
  if_neg (by simpa using h)

section
variable {good : Nat} {mayLock : Bool}

theorem State.consistentReport_untracked (h : s.tracks x = false) :
    (s.setSlot i x).consistentReport i label edge good mayLock =
      s.settle i { x with bad := 0, good := good } good mayLock := by
  have htracks : (s.setSlot i x).tracks { x with bad := 0, good := good } = false := h
  rw [State.consistentReport, State.setSlot_slot_same, htracks, State.setSlot_setSlot]
  simp only [Bool.false_eq_true, if_false, State.setSlot_setSlot]
  rfl

theorem State.consistentReport_measured (h : s.tracks x = true)
    (hm : Device.measure { x with bad := 0, good := good } label edge = (y, false)) :
    (s.setSlot i x).consistentReport i label edge good mayLock = s.settle i y good mayLock := by
  have htracks : (s.setSlot i x).tracks { x with bad := 0, good := good } = true := h
  rw [State.consistentReport, State.setSlot_slot_same, htracks, if_pos rfl, hm]
  simp only [Bool.false_eq_true, if_false, State.setSlot_setSlot]
  rfl

theorem State.consistentReport_clamped (h : s.tracks x = true)
    (hm : Device.measure { x with bad := 0, good := good } label edge = (y, true)) :
    (s.setSlot i x).consistentReport i label edge good mayLock = (s.setSlot i y).enterDrifting i .driftClamp := by
  have htracks : (s.setSlot i x).tracks { x with bad := 0, good := good } = true := h
  rw [State.consistentReport, State.setSlot_slot_same, htracks, if_pos rfl, hm, State.setSlot_setSlot, if_pos rfl]

end

theorem State.tracks_false (h : x.boundTo ≠ none ∨ s.tb.ref = .acquiring ∨ s.tb.ref = .holdover) :
    s.tracks x = false := by
  rcases h with hb | href | href
  · obtain ⟨c, hc⟩ := Option.ne_none_iff_exists'.mp hb
    simp [State.tracks, hc]
  · simp [State.tracks, href]
  · simp [State.tracks, href]

theorem State.tracks_true (hb : x.boundTo = none) (h : s.tb.ref = .locked ∨ s.tb.ref = .free) : s.tracks x = true := by
  simpa [State.tracks, hb] using h

/-- With an instant predicted for its label, a REPORT is consistent within the window of it (R93). -/
theorem State.consistent_eq {p : Nat} (h : (s.translateSlot x label 0).st = some p) :
    s.consistent x label edge = decide (((edge : Int) - p).natAbs ≤ x.window) := by
  rw [State.consistent, h]

section
variable {p : Nat} (hp : (s.translateSlot x label 0).st = some p)
include hp

theorem State.testedReport_near (h : ((edge : Int) - p).natAbs ≤ x.window) :
    (s.setSlot i x).testedReport i label edge =
      (s.setSlot i x).consistentReport i label edge (min 3 (x.good + 1)) true := by
  have hcons : (s.setSlot i x).consistent x label edge = true :=
    (State.consistent_eq (s := s.setSlot i x) hp).trans (decide_eq_true h)
  rw [State.testedReport, State.setSlot_slot_same, hcons]
  rfl

theorem State.testedReport_far (h : ¬((edge : Int) - p).natAbs ≤ x.window) :
    (s.setSlot i x).testedReport i label edge = (s.setSlot i x).inconsistentReport i label edge := by
  have hcons : (s.setSlot i x).consistent x label edge = false :=
    (State.consistent_eq (s := s.setSlot i x) hp).trans (decide_eq_false h)
  rw [State.testedReport, State.setSlot_slot_same, hcons]
  rfl

end

theorem State.inconsistentReport_settling (h : x.state = .settling) :
    (s.setSlot i x).inconsistentReport i label edge = (s.setSlot i x).adoptReport i label edge := by
  simp only [State.inconsistentReport, State.setSlot_slot_same, h]

theorem State.inconsistentReport_first (h : x.state = .locked) (hbad : x.bad = 0) :
    (s.setSlot i x).inconsistentReport i label edge = s.setSlot i { x with bad := 1 } := by
  rw [State.inconsistentReport, State.setSlot_slot_same, State.setSlot_setSlot, hbad]
  split
  case h_2 => rfl
  all_goals simp_all

theorem State.inconsistentReport_second (h : x.state = .locked) (hbad : x.bad = 1) :
    (s.setSlot i x).inconsistentReport i label edge = (s.setSlot i { x with bad := 2 }).enterDrifting i .inconsistent := by
  rw [State.inconsistentReport, State.setSlot_slot_same, State.setSlot_setSlot, hbad]
  split
  case h_2 => rfl
  all_goals simp_all

/-- Settles O36: the REPORT's test, then what it does by consistency, state, binding and the time base. -/
theorem testedReport : Obligations.TestedReport := by
  intro s i r p d edge near good locks locked hstate hp
  have hupdate := s.reportUpdate_tested r hstate
  have hnear (h : near) : s.reportUpdate i r = (s.setSlot i d).consistentReport i r.label edge good true :=
    hupdate.trans (State.testedReport_near hp h)
  have hfar (h : ¬near) : s.reportUpdate i r = (s.setSlot i d).inconsistentReport i r.label edge :=
    hupdate.trans (State.testedReport_far hp h)
  have hadopt (h : ¬near) (hs : d.state = .settling) :
      s.reportUpdate i r = (s.setSlot i d).adoptReport i r.label edge :=
    (hfar h).trans (State.inconsistentReport_settling hs)
  refine ⟨fun h hs hb => ?_, hadopt, fun c h hs hb hstopped => ?_, fun c g stale h hs hb hrun hseg => ?_,
    fun h hs hbad => (hfar h).trans (State.inconsistentReport_first hs hbad),
    fun h hs hbad => (hfar h).trans (State.inconsistentReport_second hs hbad),
    fun h huntracked => ⟨fun hl => ?_, fun hl => ?_⟩,
    fun a h hb href ha => ⟨fun hdf => ⟨fun hl => ?_, fun hl => ?_⟩, fun hdf hlow hhigh => ⟨fun hl => ?_, fun hl => ?_⟩,
      fun hdf hout => ?_⟩⟩
  · rw [hadopt h hs, State.adoptReport_setSlot_some (State.adoptionOffset_unbound hb), Device.adopted_settling hs]
  · rw [hadopt h hs, State.adoptReport_setSlot_none (State.adoptionOffset_stopped hb hstopped)]
    rfl
  · rw [hadopt h hs, State.adoptReport_setSlot_some (State.adoptionOffset_running hb hrun hseg), Device.adopted_settling hs]
    rfl
  · rw [hnear h, State.consistentReport_untracked (State.tracks_false huntracked)]
    exact State.settle_locks hl
  · rw [hnear h, State.consistentReport_untracked (State.tracks_false huntracked)]
    exact State.settle_stays hl
  · rw [hnear h, State.consistentReport_measured (State.tracks_true hb href) (Device.measure_short ha hdf)]
    exact State.settle_locks hl
  · rw [hnear h, State.consistentReport_measured (State.tracks_true hb href) (Device.measure_short ha hdf)]
    exact State.settle_stays hl
  · rw [hnear h, State.consistentReport_measured (State.tracks_true hb href) (Device.measure_inRange ha hdf hlow hhigh)]
    exact State.settle_locks hl
  · rw [hnear h, State.consistentReport_measured (State.tracks_true hb href) (Device.measure_inRange ha hdf hlow hhigh)]
    exact State.settle_stays hl
  · rw [hnear h, State.consistentReport_clamped (State.tracks_true hb href) (Device.measure_clamped ha hdf hout)]
    rfl

end Sys2Proof.Machine
end

section
/-! The entry into DRIFTING with its recovery, and the return of an ABSENT record (R98, R101, R102, R122). -/

namespace Sys2Proof.Machine

variable {s t : State} {i : Fin 48} {x y d : Device} {label edge : Nat} {c : Fin 16}

/-! ## The recovery taken (R102) -/

theorem Device.recoverySource_jam (h : d.jamSource = some c) : d.recoverySource = some c := by
  rw [Device.recoverySource, h]

theorem Device.recoverySource_bound (h : d.jamSource = none) : d.recoverySource = d.boundTo := by
  rw [Device.recoverySource, h]

section
variable {reason : DriftReason} (hx : t.slot i = x)
include hx

theorem State.recoveryTaken_none (h : x.recovery = .noRecovery ∨ reason = .verifyError) :
    t.recoveryTaken i reason = .none := by
  rcases h with h | rfl
  · exact State.recoveryTaken_noRecovery reason (hx ▸ h)
  · rfl

variable (hreason : reason ≠ .verifyError)
include hreason

theorem State.recoveryTaken_adopted (h : x.recovery = .adopt ∨ (x.recovery = .jam ∧ x.protectedFlag = true)) :
    t.recoveryTaken i reason = .adopted := by
  rw [State.recoveryTaken, hx]
  rcases h with h | ⟨h, hprotected⟩
  · simp only [if_neg hreason, h]
  · simp only [if_neg hreason, h, hprotected, if_true]

variable (h : x.recovery = .jam) (hprotected : x.protectedFlag = false)
include h hprotected

theorem State.recoveryTaken_noSource (hsource : x.recoverySource = none) : t.recoveryTaken i reason = .sourceUnusable := by
  rw [State.recoveryTaken, hx]
  simp only [if_neg hreason, h, hprotected, Bool.false_eq_true, if_false, hsource]

theorem State.recoveryTaken_source (hsource : x.recoverySource = some c) :
    t.recoveryTaken i reason = if usableSource (t.chan c) x then .jamStarted else .sourceUnusable := by
  rw [State.recoveryTaken, hx]
  simp only [if_neg hreason, h, hprotected, Bool.false_eq_true, if_false, hsource]

end

/-! ## What it does -/

theorem State.recover_adopted (hx : t.slot i = x) :
    t.recover i .adopted = t.setSlot i { x.forget with state := .enrolled } := by
  rw [State.recover, hx]

theorem State.recover_jamStarted (hx : t.slot i = x) (hsource : x.recoverySource = some c) :
    t.recover i .jamStarted =
      State.urgentInsert
        (t.setSlot i { x with state := .jamming, jam := some (.start c .recovery x.state 1 false) }) i := by
  rw [State.recover, hx]
  simp only [hsource]
  rw [State.startJam, hx]

/-- The state in which a record has become DRIFTING and DEVICE is raised. -/
def State.drifting (s : State) (i : Fin 48) : State := (s.setSlot i { s.slot i with state := .drifting }).raise .device

/-- The entry into DRIFTING told, before the recovery acts. -/
def State.driftTold (s : State) (i : Fin 48) (reason : DriftReason) (taken : RecoveryTaken) : State :=
  State.sysEvent (.deviceState i (s.slot i).linkAddr (.drifting reason taken)) (s.drifting i)

theorem State.drifting_slot (s : State) (i : Fin 48) : (s.drifting i).slot i = { s.slot i with state := .drifting } :=
  State.slot_raise_setSlot s i _ _

theorem State.driftTold_slot (s : State) (i : Fin 48) (reason : DriftReason) (taken : RecoveryTaken) :
    (s.driftTold i reason taken).slot i = { s.slot i with state := .drifting } := by
  rw [State.driftTold, State.sysEvent_slot, State.drifting_slot]

theorem State.enterDrifting_eq {reason : DriftReason} {taken : RecoveryTaken}
    (h : (s.drifting i).recoveryTaken i reason = taken) :
    s.enterDrifting i reason = (s.driftTold i reason taken).recover i taken := by
  subst h
  rfl

/-! ## The return (R98) -/

/-- The state in which a return has been recorded. -/
def State.returned (s : State) (i : Fin 48) (d : Device) : State :=
  State.sysEvent (.deviceState i d.linkAddr .returned) (s.setSlot i d)

theorem State.returned_chan (c : Fin 16) : (s.returned i d).chan c = s.chan c :=
  State.chan_congr (by simp [State.returned]) c

theorem State.returned_ref : (s.returned i d).tb = s.tb := by simp [State.returned]

theorem State.returnReport_drifting (h : d.before = some .drifting) :
    (s.setSlot i d).returnReport i label edge = (s.returned i d).setSlot i { d with state := .drifting, before := none } := by
  rw [State.returnReport, State.setSlot_slot_same]
  exact if_pos h

theorem State.returnReport_adopts (h : d.before ≠ some .drifting) (hadopts : d.before = some .enrolled ∨ d.anchor = none) :
    (s.setSlot i d).returnReport i label edge =
      ((s.returned i d).setSlot i { d with state := .enrolled, before := none }).adoptReport i label edge := by
  rw [State.returnReport, State.setSlot_slot_same]
  dsimp only
  rw [if_neg h, if_pos hadopts]
  rfl

theorem State.returnReport_tested (h : d.before ≠ some .drifting) (htested : ¬(d.before = some .enrolled ∨ d.anchor = none)) :
    (s.setSlot i d).returnReport i label edge =
      if (s.returned i d).consistent { d with state := .settling, before := none } label edge then
        ((s.returned i d).setSlot i { d with state := .settling, before := none }).consistentReport i label edge 1 false
      else ((s.returned i d).setSlot i { d with state := .settling, before := none }).enterDrifting i .inconsistent := by
  rw [State.returnReport, State.setSlot_slot_same]
  dsimp only
  rw [if_neg h, if_neg htested, State.setSlot_slot_same]
  rfl

theorem State.translateSlot_congr (h : t.chans = s.chans) (d : Device) (label sub : Nat) :
    t.translateSlot d label sub = s.translateSlot d label sub := by
  unfold State.translateSlot
  simp only [State.chan_congr h]

/-- Settles O37: the recovery taken by recovery, protection and source, and the return by the state before absence. -/
theorem driftingAndReturn : Obligations.DriftingAndReturn := by
  refine ⟨fun s i reason => ?drift, fun s i r habsent => ?comeBack, fun d => ⟨fun c => Device.recoverySource_jam,
    Device.recoverySource_bound⟩, fun ch d => usableSource_iff⟩
  case drift =>
    intro d s1 told
    have hd : (s.drifting i).slot i = d := s.drifting_slot i
    have htold (taken : RecoveryTaken) : (told taken).slot i = d := s.driftTold_slot i reason taken
    refine ⟨fun h => ?_, fun hreason h => ?_, fun hreason h hprotected => ⟨fun hsource => ?_, fun c hsource =>
      ⟨fun husable => ?_, fun husable => ?_⟩⟩⟩
    · exact State.enterDrifting_eq (State.recoveryTaken_none hd h)
    · exact (State.enterDrifting_eq (State.recoveryTaken_adopted hd hreason h)).trans (State.recover_adopted (x := d) (htold .adopted))
    · exact State.enterDrifting_eq (State.recoveryTaken_noSource hd hreason h hprotected hsource)
    all_goals
      have htaken := State.recoveryTaken_source hd hreason h hprotected hsource
      have hchan : (s.drifting i).chan c = s.chan c := State.chan_congr (by simp [State.drifting]) c
      rw [hchan, husable] at htaken
    · exact State.enterDrifting_eq htaken
    · exact (State.enterDrifting_eq htaken).trans (State.recover_jamStarted (htold .jamStarted) hsource)
  case comeBack =>
    intro d edge s1
    have hupdate := s.reportUpdate_absent r habsent
    have hadopt (h : d.before = some .enrolled ∨ (d.before ≠ some .drifting ∧ d.anchor = none)) :
        s.reportUpdate i r = (s1.setSlot i { d with state := .enrolled, before := none }).adoptReport i r.label edge := by
      refine hupdate.trans (State.returnReport_adopts ?_ (h.imp_right And.right))
      rcases h with h | h
      · rw [show ((s.slot i).reported r).before = some .enrolled from h]
        decide
      · exact h.1
    refine ⟨fun h => hupdate.trans (State.returnReport_drifting h), fun h hb => ?_, hadopt, fun c h hb hstopped => ?_,
      fun c g stale h hb hrun hseg => ?_, fun p h hanchor => ?tested⟩
    · have hb' : ({ d with state := .enrolled, before := none } : Device).boundTo = none := hb
      rw [hadopt h, State.adoptReport_setSlot_some (State.adoptionOffset_unbound hb')]
      rfl
    · have hb' : ({ d with state := .enrolled, before := none } : Device).boundTo = some c := hb
      have hchan : s1.chan c = s.chan c := State.returned_chan c
      rw [hadopt h, State.adoptReport_setSlot_none (State.adoptionOffset_stopped hb' (by rw [hchan]; exact hstopped))]
      rfl
    · have hb' : ({ d with state := .enrolled, before := none } : Device).boundTo = some c := hb
      have hchan : s1.chan c = s.chan c := State.returned_chan c
      rw [hadopt h, State.adoptReport_setSlot_some
        (State.adoptionOffset_running hb' (by rw [hchan]; exact hrun) (by rw [hchan]; exact hseg)), hchan]
      rfl
    case tested =>
      intro x hp
      have hbefore : d.before ≠ some .drifting ∧ d.before ≠ some .enrolled := by
        rcases h with h | h <;> rw [h] <;> decide
      have hp' : (s1.translateSlot x r.label 0).st = some p := by
        rw [State.translateSlot_congr (s := s) (by simp [s1]) x r.label 0]
        exact hp
      have htb : s1.tb = s.tb := State.returned_ref
      have htested := hupdate.trans (State.returnReport_tested hbefore.1 (not_or.mpr ⟨hbefore.2, hanchor⟩))
      have hnear (hn : ((edge : Int) - p).natAbs ≤ d.window) :
          s.reportUpdate i r = (s1.setSlot i x).consistentReport i r.label edge 1 false :=
        htested.trans (if_pos ((State.consistent_eq hp').trans (decide_eq_true hn)))
      refine ⟨fun hfar => ?_, fun hn huntracked => ?_, fun a hn hb href ha => ⟨fun hdf => ?_, fun hdf hlow hhigh => ?_,
        fun hdf hout => ?_⟩⟩
      · have hcons : s1.consistent x r.label edge = false :=
          (State.consistent_eq hp').trans (decide_eq_false hfar.not_ge)
        exact htested.trans (if_neg (Bool.eq_false_iff.mp hcons))
      · rw [hnear hn, State.consistentReport_untracked (State.tracks_false (x := x) (by rw [htb]; exact huntracked))]
        rfl
      · rw [hnear hn, State.consistentReport_measured (x := x) (State.tracks_true hb (by rw [htb]; exact href))
          (Device.measure_short ha hdf)]
        rfl
      · rw [hnear hn, State.consistentReport_measured (x := x) (State.tracks_true hb (by rw [htb]; exact href))
          (Device.measure_inRange ha hdf hlow hhigh)]
        rfl
      · rw [hnear hn, State.consistentReport_clamped (x := x) (State.tracks_true hb (by rw [htb]; exact href))
          (Device.measure_clamped ha hdf hout)]
        rfl

end Sys2Proof.Machine
end

section
/-! A REPORT for a JAMMING record (R124 to R126) and the end of a jam (R128, R129). -/

namespace Sys2Proof.Machine

variable {s t : State} {i : Fin 48} {x y d : Device} {j : JamContext} {label edge : Nat} {c : Fin 16} {g : Segment}
  {stale : Bool}

/-! ## Verification (R124 to R126) -/

section
variable (hj : x.jam = some j)
include hj

theorem State.jamReport_protected (h : x.protectedFlag = true) :
    (s.setSlot i x).jamReport i label edge = (s.setSlot i x).jamEnd i .protectedDevice := by
  rw [State.jamReport, State.setSlot_slot_same, hj]
  exact if_pos h

variable (hprotected : x.protectedFlag = false)
include hprotected

theorem State.jamReport_pending (h : j.setPending = true) : (s.setSlot i x).jamReport i label edge = s.setSlot i x := by
  rw [State.jamReport, State.setSlot_slot_same, hj]
  dsimp only
  rw [hprotected, if_neg Bool.false_ne_true, if_pos h]

variable (hpending : j.setPending = false) {si lab : Nat} (hsi : j.setInstant = some si) (hlab : j.label = some lab)
include hpending hsi hlab

theorem State.jamReport_sent :
    (s.setSlot i x).jamReport i label edge =
      if edge ≤ si + 2430 then s.setSlot i x
      else if labelPasses x.fmt.fday (expectedLabel x.fmt.fday x.rate lab si edge) label then
        (s.setSlot i x).jamPass i label edge
      else (s.setSlot i x).jamFail i j := by
  rw [State.jamReport, State.setSlot_slot_same, hj]
  dsimp only
  rw [hprotected, if_neg Bool.false_ne_true, hpending, if_neg Bool.false_ne_true, hsi, hlab]

theorem State.jamReport_passes (h : si + 2430 < edge)
    (hpass : label = expectedLabel x.fmt.fday x.rate lab si edge ∨
      label = (expectedLabel x.fmt.fday x.rate lab si edge + x.fmt.fday - 1) % x.fmt.fday) :
    (s.setSlot i x).jamReport i label edge = (s.setSlot i x).jamPass i label edge := by
  have hpass : labelPasses x.fmt.fday (expectedLabel x.fmt.fday x.rate lab si edge) label = true := by
    simpa [labelPasses] using hpass
  rw [State.jamReport_sent hj hprotected hpending hsi hlab, if_neg h.not_ge, if_pos hpass]

theorem State.jamReport_fails (h : si + 2430 < edge)
    (hpass : ¬(label = expectedLabel x.fmt.fday x.rate lab si edge ∨
      label = (expectedLabel x.fmt.fday x.rate lab si edge + x.fmt.fday - 1) % x.fmt.fday)) :
    (s.setSlot i x).jamReport i label edge = (s.setSlot i x).jamFail i j := by
  have hpass : ¬labelPasses x.fmt.fday (expectedLabel x.fmt.fday x.rate lab si edge) label = true := by
    simpa [labelPasses] using hpass
  rw [State.jamReport_sent hj hprotected hpending hsi hlab, if_neg h.not_ge, if_neg hpass]

end

theorem State.jamPass_adopts {o : Option Int} (h : s.adoptionOffset x label edge = some o) :
    (s.setSlot i x).jamPass i label edge = (s.setSlot i (x.adopted label edge o)).jamEnd i .done := by
  have h' : (s.setSlot i x).adoptionOffset x label edge = some o := h
  rw [State.jamPass, State.setSlot_slot_same, h', State.setSlot_setSlot]

theorem State.jamPass_notAdopted (h : s.adoptionOffset x label edge = none) :
    (s.setSlot i x).jamPass i label edge = (s.setSlot i { x.forget with state := .enrolled }).jamEnd i .done := by
  have h' : (s.setSlot i x).adoptionOffset x label edge = none := h
  rw [State.jamPass, State.setSlot_slot_same, h', State.setSlot_setSlot]

theorem State.jamFail_reportsLeft (h : 1 < j.reports) :
    (s.setSlot i x).jamFail i j = s.setSlot i { x with jam := some { j with reports := j.reports - 1 } } := by
  rw [State.jamFail, if_pos h, State.setSlot_slot_same, State.setSlot_setSlot]

/-- At the last REPORT the jam ends, or a retry with a usable source begins (R126). -/
theorem State.jamFail_last (h : j.reports ≤ 1) :
    (s.setSlot i x).jamFail i j =
      if j.retries = 0 then (s.setSlot i { x with jam := some { j with reports := 0 } }).jamEnd i .verifyError
      else if usableSource (s.chan j.source) x then
        State.urgentInsert
          (s.setSlot i
            { x with
              jam := some { j with retries := j.retries - 1, reports := 0, setPending := true, setInstant := none
                                   label := none } }) i
      else (s.setSlot i { x with jam := some { j with reports := 0 } }).jamEnd i .sourceStopped := by
  simp only [State.jamFail, if_neg h.not_gt, State.jamRetry, State.setSlot_slot_same, State.setSlot_setSlot]
  rfl

/-- Settles O38: the REPORT's cases in their order, the adoption of a passing one by its binding. -/
theorem verifyReport : Obligations.VerifyReport := by
  intro s i r j hstate hj d s1 edge
  have hupdate := s.reportUpdate_jamming r hstate
  refine ⟨fun h => hupdate.trans (State.jamReport_protected hj h), fun h hp => hupdate.trans (State.jamReport_pending hj h hp),
    fun si lab hprot hpend hsi hlab => ?_⟩
  intro e pass
  have hpass (h : si + 2430 < edge) (hp : pass) : s.reportUpdate i r = s1.jamPass i r.label edge :=
    hupdate.trans (State.jamReport_passes hj hprot hpend hsi hlab h hp)
  have hfail (h : si + 2430 < edge) (hp : ¬pass) : s.reportUpdate i r = s1.jamFail i j :=
    hupdate.trans (State.jamReport_fails hj hprot hpend hsi hlab h hp)
  refine ⟨fun h => ?early, fun h hp hb => ?_, fun c h hp hb hstopped => ?_, fun c g stale h hp hb hrun hseg => ?_,
    fun h hp => ⟨fun hleft => (hfail h hp).trans (State.jamFail_reportsLeft hleft), fun hlast =>
      ⟨fun hr => ?_, fun hr husable => ?_, fun hr husable => ?_⟩⟩⟩
  case early =>
    exact hupdate.trans ((State.jamReport_sent (x := d) hj hprot hpend hsi hlab).trans (if_pos h))
  · rw [hpass h hp, State.jamPass_adopts (State.adoptionOffset_unbound hb)]
    rfl
  · rw [hpass h hp, State.jamPass_notAdopted (State.adoptionOffset_stopped hb hstopped)]
    rfl
  · rw [hpass h hp, State.jamPass_adopts (State.adoptionOffset_running hb hrun hseg)]
    rfl
  · rw [hfail h hp, State.jamFail_last hlast, if_pos hr]
  · rw [hfail h hp, State.jamFail_last hlast, if_neg hr.ne', husable, if_neg Bool.false_ne_true]
  · rw [hfail h hp, State.jamFail_last hlast, if_neg hr.ne', if_pos husable]

/-! ## The end of a jam (R128, R129) -/

theorem JamContext.stateAfter_eq (j : JamContext) :
    j.stateAfter =
      if j.setSent = true ∧ (j.remembered = .settling ∨ j.remembered = .locked) then .enrolled else j.remembered := by
  unfold JamContext.stateAfter
  cases j.setSent with
  | false => simp
  | true => cases j.remembered <;> rfl

/-- The JAM OUTCOME record of a jam that leaves the record `x` (R128, steps 2 to 4). -/
def State.jamOutcome (s : State) (i : Fin 48) (j : JamContext) (x : Device) (o : JamOutcome) : State :=
  State.sysEvent (.jamOutcome i x.linkAddr o j.origin j.sets j.lastLabel x.state)
    (State.urgentRemove (s.setSlot i { x with jam := none }) i)

theorem State.jamRecorded_eq {o : JamOutcome} (h : (s.slot i).jamEnded j o = x) :
    s.jamRecorded i j o = (s.jamOutcome i j x o).jamStateRecords i j o := by
  subst h
  rfl

theorem State.jamStateRecords_stopped (h : j.setSent = false) : t.jamStateRecords i j .sourceStopped = t := by
  have hends : j.endsDrifting .sourceStopped = false := h
  simp only [State.jamStateRecords, hends, Bool.false_eq_true, if_false]

theorem State.jamStateRecords_drifts {o : JamOutcome} (h : j.endsDrifting o = true) :
    t.jamStateRecords i j o = t.enterDrifting i .verifyError :=
  if_pos h

/-- The record at the end of a jam other than DONE: it has lost its tie once a SET has been sent (R128). -/
def Device.afterJam (d : Device) (j : JamContext) : Device :=
  if j.setSent then { d with anchor := none, verify := none, offset := none, good := 0, bad := 0 } else d

theorem Device.afterJam_linkAddr (d : Device) (j : JamContext) : (d.afterJam j).linkAddr = d.linkAddr := by
  unfold Device.afterJam
  split <;> rfl

/-- Settles O39: the record left, its state records, and the delivery, by the outcome. -/
theorem jamEnd : Obligations.JamEnd := by
  refine ⟨fun s i j hj => ?_, fun s i before => rfl⟩
  intro d lost remembered outcome finish
  have hstate : j.stateAfter = remembered := j.stateAfter_eq
  have hlink : (d.afterJam j).linkAddr = d.linkAddr := d.afterJam_linkAddr j
  have hend {o : JamOutcome} {t : State} (h : s.jamRecorded i j o = t) : s.jamEnd i o = finish t o.result := by
    rw [State.jamEnd_some o hj, h]
    cases hp : j.pendingDelay with
    | none =>
      have hdelay : t.applyPendingDelay i j = t := by rw [State.applyPendingDelay, hp]
      simp only [finish, hp, hdelay]
      rfl
    | some delay =>
      simp only [finish, hp, State.applyPendingDelay_some t i hp]
      rfl
  have houtcome (x : Device) (o : JamOutcome) (hx : x.linkAddr = d.linkAddr) : s.jamOutcome i j x o = outcome x o :=
    congrArg (fun a => State.sysEvent (.jamOutcome i a o j.origin j.sets j.lastLabel x.state)
      (State.urgentRemove (s.setSlot i { x with jam := none }) i)) hx
  refine ⟨hend (State.jamRecorded_eq rfl), hend ?_, fun hsent => hend ?_, fun hsent => hend ?_, hend ?_, hend ?_,
    fun t => rfl⟩
  · rw [State.jamRecorded_eq (x := { d.afterJam j with state := j.stateAfter }) rfl,
      houtcome { d.afterJam j with state := j.stateAfter } _ hlink, hstate]
    rfl
  · have hx : d.jamEnded j .sourceStopped = { d with state := j.stateAfter } := by
      simp only [Device.jamEnded, hsent, Bool.false_eq_true, if_false]
    rw [State.jamRecorded_eq hx, houtcome { d with state := j.stateAfter } _ rfl, hstate,
      State.jamStateRecords_stopped hsent]
  · have hx : d.jamEnded j .sourceStopped = { d.afterJam j with state := .drifting } := by
      simp only [Device.jamEnded, Device.afterJam, hsent, if_true]
      rfl
    rw [State.jamRecorded_eq hx, houtcome { d.afterJam j with state := .drifting } _ hlink,
      State.jamStateRecords_drifts (o := .sourceStopped) hsent]
    rfl
  · rw [State.jamRecorded_eq (x := { d.afterJam j with state := .drifting }) rfl,
      houtcome { d.afterJam j with state := .drifting } _ hlink, State.jamStateRecords_drifts rfl]
    rfl
  · rw [State.jamRecorded_eq (x := { d.afterJam j with state := .absent, before := some j.stateAfter }) rfl,
      houtcome { d.afterJam j with state := .absent, before := some j.stateAfter } _ hlink, hstate]
    exact congrArg (State.enterAbsent _ i) hstate

end Sys2Proof.Machine
end

section
/-! The roster's orders ENROL, RELEASE, ADOPT and EXCHANGE, and the submission of a record (R105 to R107, R110 to R113,
R146, R147, R174). -/

namespace Sys2Proof.Machine

variable {s : State} {o : Order} {i : Fin 48} {c : Fin 16}

/-! ## The submission of a record (R146, R147) -/

theorem State.submit_idle (r : TakeRecord) (h : s.lu.queue.length < 64) (hidle : s.pw.activity = .idle) :
    s.submit r =
      State.choose
        { s with
          lu := { s.lu with queue := s.lu.queue ++ [{ r with seq := s.lu.seq, lostBefore := s.lu.lostRun }]
                            lostRun := 0, seq := s.lu.seq + 1 } } false := by
  rw [State.submit, if_pos h, if_pos hidle]

theorem State.submit_busy (r : TakeRecord) (h : s.lu.queue.length < 64) (hbusy : s.pw.activity ≠ .idle) :
    s.submit r =
      { s with
        lu := { s.lu with queue := s.lu.queue ++ [{ r with seq := s.lu.seq, lostBefore := s.lu.lostRun }]
                          lostRun := 0, seq := s.lu.seq + 1 } } := by
  rw [State.submit, if_pos h, if_neg hbusy]

theorem State.sysEvent_take (s : State) (ev : SysEvent) :
    (s.sysEvent ev).lu.slate = s.lu.slate ∧ (s.sysEvent ev).lu.take = s.lu.take := by
  unfold State.sysEvent
  by_cases h : s.lu.queue.length < 64
  · rw [State.submit_lu_room _ _ h]
    exact ⟨rfl, rfl⟩
  · rw [State.submit_full _ _ h]
    exact ⟨rfl, rfl⟩

/-- Settles O50: the submission by the queue's room and the page writer, and what a system event leaves. -/
theorem recordSubmission : Obligations.RecordSubmission := by
  refine ⟨fun s r h => ⟨s.submit_idle r h, s.submit_busy r h⟩, fun s r h => s.submit_full r h.not_gt,
    fun s ev => ⟨rfl, ?_⟩⟩
  obtain ⟨hslate, htake⟩ := s.sysEvent_take ev
  refine ⟨?_, ?_, ?_, ?_, ?_, ?_, hslate, htake⟩ <;> simp

/-! ## Roster orders that wait (R174) -/

theorem State.handRosterOrder_held {k : OrderKind} {e : Exchange} (take : Order → State → State)
    (hstep : s.oe.step = .taken o) (hk : o.kind = k) (hexch : s.exch = some e) :
    s.handRosterOrder k take = { s with oe := { s.oe with step := .held o } } := by
  simp only [State.handRosterOrder, hstep, if_pos hk, hexch, Option.isSome_some, if_true]

/-! ## ENROL (R106, R107) -/

/-- A parameter of an ENROL, its slot apart, is out of range. -/
def EnrolOutOfRange (o : Order) : Prop :=
  (o.p 1).toNat = 0 ∨ 63 < (o.p 1).toNat ∨ Rate.legal ⟨(o.p 3).toNat, (o.p 4).toNat⟩ = false ∨
    fmtOfCode (bits (o.p 2) 7 4) = none ∨ (bit (o.p 2) 8 = true ∧ 16 ≤ bits (o.p 2) 23 16) ∨ 1000000 < (o.p 6).toNat ∨
    bits (o.p 2) 3 2 = 3 ∨ (bit (o.p 2) 9 = true ∧ 16 ≤ bits (o.p 2) 31 24)

/-- The record of an ENROL whose coded fields name these, its last result code apart. -/
def Order.enrolled (o : Order) (f : Fmt) (boundTo : Option (Fin 16)) (recovery : Recovery) (source : Option (Fin 16)) :
    Device :=
  ⟨.enrolled, false, (o.p 1).toNat, classOfCode (bits (o.p 2) 1 0), ⟨(o.p 3).toNat, (o.p 4).toNat⟩, f, boundTo, none,
    bits (o.p 5) 15 0, if (o.p 6).toNat = 0 then 13500 else (o.p 6).toNat, recovery, source, false, false, none, none, 0,
    false, 0, 0, 0, none, none, none, 0⟩

theorem enrolledRecord_outOfRange (h : EnrolOutOfRange o) : enrolledRecord o = none := by
  refine Option.eq_none_iff_forall_ne_some.mpr fun d hd => ?_
  unfold enrolledRecord at hd
  dsimp only at hd
  split at hd
  case h_2 => cases hd
  case h_1 f b w r src hf hb hw hr hsrc =>
    split at hd
    case isFalse => cases hd
    case isTrue hok =>
      obtain ⟨hlow, hhigh, hrate⟩ := hok
      rcases h with h | h | h | h | ⟨hp, h⟩ | h | h | ⟨hp, h⟩
      · omega
      · omega
      · rw [hrate] at h
        cases h
      · rw [hf] at h
        cases h
      · rw [hp, optChan_eq_none h] at hb
        cases hb
      · rw [windowParam_of_gt h] at hw
        cases hw
      · rw [h] at hr
        cases hr
      · rw [hp, optChan_eq_none h] at hsrc
        cases hsrc

theorem enrolledRecord_inRange {f : Fmt} {b source : Option (Fin 16)} {recovery : Recovery} (h : ¬EnrolOutOfRange o)
    (hf : fmtOfCode (bits (o.p 2) 7 4) = some f) (hb : optChan (bit (o.p 2) 8) (bits (o.p 2) 23 16) = some b)
    (hr : recoveryOfCode (bits (o.p 2) 3 2) = some recovery)
    (hs : optChan (bit (o.p 2) 9) (bits (o.p 2) 31 24) = some source) :
    enrolledRecord o = some (o.enrolled f b recovery source) := by
  simp only [EnrolOutOfRange, not_or, not_lt, Bool.not_eq_false] at h
  obtain ⟨hzero, hhigh, hrate, -, -, hwindow, -, -⟩ := h
  simp only [enrolledRecord, hf, hb, windowParam_of_le hwindow, hr, hs]
  exact if_pos ⟨Nat.one_le_iff_ne_zero.mpr hzero, hhigh, hrate⟩

/-- In range, the coded fields name values. -/
theorem exists_enrolledRecord (h : ¬EnrolOutOfRange o) :
    ∃ f b recovery source, fmtOfCode (bits (o.p 2) 7 4) = some f ∧
      optChan (bit (o.p 2) 8) (bits (o.p 2) 23 16) = some b ∧ recoveryOfCode (bits (o.p 2) 3 2) = some recovery ∧
      optChan (bit (o.p 2) 9) (bits (o.p 2) 31 24) = some source := by
  simp only [EnrolOutOfRange, not_or] at h
  obtain ⟨-, -, -, hf, hb, -, hr, hs⟩ := h
  obtain ⟨f, hf⟩ := Option.ne_none_iff_exists'.mp hf
  obtain ⟨b, hb⟩ := exists_optChan hb
  obtain ⟨recovery, hr⟩ := exists_recoveryOfCode hr
  obtain ⟨source, hs⟩ := exists_optChan hs
  exact ⟨f, b, recovery, source, hf, hb, hr, hs⟩

/-- Another occupied slot holds the address of an ENROL. -/
theorem State.addressTaken_iff {addr : Nat} :
    s.addressTaken i addr = true ↔ ∃ j : Fin 48, j ≠ i ∧ (s.slot j).state ≠ .empty ∧ (s.slot j).linkAddr = addr := by
  simp [State.addressTaken, Device.occupied_iff, and_assoc]

section
variable (hi : (o.p 0).toNat = i.val)
include hi

theorem enrolOrder_refused {code : Result} (h : s.enrolCheck i o = .error code) :
    enrolOrder o s = (s.setSlot i { s.slot i with lastResult := some code }).report code := by
  simp only [enrolOrder, slotOf_eq_some hi, h]
  rfl

theorem enrolOrder_unbound {d : Device} (h : s.enrolCheck i o = .ok d) (hb : d.boundTo = none) :
    enrolOrder o s = (s.setSlot i { d with lastResult := some .done }).report .done := by
  simp only [enrolOrder, slotOf_eq_some hi, h, hb, State.raiseBound]
  rw [State.setSlot_rosterReport, hb]

theorem enrolOrder_bound {d : Device} (h : s.enrolCheck i o = .ok d) (hb : d.boundTo = some c) :
    enrolOrder o s =
      ((s.setChan c { s.chan c with bound := (s.chan c).bound + 1 }).setSlot i { d with lastResult := some .done }).report
        .done := by
  have hcomm : (s.setSlot i d).raiseBound (some c) = (s.setChan c { s.chan c with bound := (s.chan c).bound + 1 }).setSlot i d :=
    rfl
  simp only [enrolOrder, slotOf_eq_some hi, h, hb]
  rw [hcomm, State.setSlot_rosterReport, hb]

end

theorem enrolOrder_badSlot (h : 48 ≤ (o.p 0).toNat) : enrolOrder o s = s.report .refusedRange := by
  simp only [enrolOrder, slotOf_eq_none h]

theorem exec_enrol_taken (hstep : s.oe.step = .taken o) (hk : o.kind = .enrol) (hexch : s.exch = none) :
    exec .enrol s = .next (enrolOrder o s) :=
  congrArg Host.Outcome.next (s.handRosterOrder_taken _ _ o hstep hk hexch)

/-! ### The checks in their order -/

theorem State.enrolCheck_outOfRange (h : EnrolOutOfRange o) : s.enrolCheck i o = .error .refusedRange := by
  rw [State.enrolCheck, enrolledRecord_outOfRange h]

section
variable {d : Device} (h : enrolledRecord o = some d)
include h

theorem State.enrolCheck_occupied (he : (s.slot i).state ≠ .empty) : s.enrolCheck i o = .error .refusedOccupied := by
  simp only [State.enrolCheck, h, if_pos ((Device.occupied_iff _).mpr he)]

variable (he : (s.slot i).state = .empty)
include he

theorem State.enrolCheck_empty :
    s.enrolCheck i o =
      if d.cls = .suite ∧ d.recovery = .jam then .error .refusedClass
      else if s.addressTaken i d.linkAddr then .error .refusedDuplicate
      else if s.bindable d.boundTo then .ok d
      else .error .refusedBound := by
  have hocc : ¬(s.slot i).occupied = true := fun hocc => (Device.occupied_iff _).mp hocc he
  simp only [State.enrolCheck, h, if_neg hocc]

variable (hclass : ¬(d.cls = .suite ∧ d.recovery = .jam))
include hclass

theorem State.enrolCheck_duplicate (hdup : s.addressTaken i d.linkAddr = true) :
    s.enrolCheck i o = .error .refusedDuplicate := by
  rw [State.enrolCheck_empty h he, if_neg hclass, if_pos hdup]

theorem State.enrolCheck_last (hdup : ¬s.addressTaken i d.linkAddr = true) :
    s.enrolCheck i o = if s.bindable d.boundTo then .ok d else .error .refusedBound := by
  rw [State.enrolCheck_empty h he, if_neg hclass, if_neg hdup]

end

/-! ### The fields of an order's words (R188, R190) -/

/-- The formats' codes, format by format. -/
theorem fmtOfCode_eq_some_iff {c : Nat} (hc : c < 16) (f : Fmt) :
    fmtOfCode c = some f ↔ (f.drop = true → f.base = .b30 ∨ f.base = .b60) ∧ c = f.base.code + (if f.drop then 8 else 0) := by
  obtain ⟨base, drop⟩ := f
  revert c
  cases base <;> cases drop <;> decide

theorem optChan_absent (n : Nat) : optChan false n = some none := rfl

theorem optChan_present {n : Nat} (h : n = c.val) : optChan true n = some (some c) := by
  simp [optChan, chanOf_eq_some h]

/-- Settles O41: the checks in their order, the accepted record by its bound channel, and the fields of the words. -/
theorem enrol : Obligations.Enrol := by
  refine ⟨fun s o hstep hk hexch hbad => ?badSlot, fun s o i hstep hk hexch hi => ?slot,
    fun w hi lo n => ⟨rfl, rfl, rfl, rfl, fun o => rfl⟩, fun c hc f => fmtOfCode_eq_some_iff hc f,
    ⟨rfl, rfl, fun n => ⟨optChan_absent n, optChan_eq_none⟩, fun c => optChan_present rfl⟩,
    fun s i d => ⟨s.setSlot_slot_same i d, fun k hk => s.setSlot_slot_other i k d hk, rfl⟩⟩
  case badSlot =>
    rw [exec_enrol_taken hstep hk hexch, enrolOrder_badSlot hbad]
    rfl
  case slot =>
    intro w refused cls outOfRange suiteJam duplicate
    have hexec := exec_enrol_taken hstep hk hexch
    have hrefused {code : Result} (h : s.enrolCheck i o = .error code) : exec .enrol s = .next (refused code) := by
      rw [hexec, enrolOrder_refused hi h]
    have hclass {recovery : Recovery} (hr : recoveryOfCode (bits w 3 2) = some recovery) :
        cls = .suite ∧ recovery = .jam ↔ suiteJam := and_congr_right fun _ => recoveryOfCode_eq_jam_iff hr
    refine ⟨fun hout => hrefused (State.enrolCheck_outOfRange hout), fun hin hocc => ?_, fun hin he hsuite => ?_,
      fun hin he hsuite hdup => ?_, fun c hin he hsuite hdup hpresent hc hkind => ?_,
      fun f recovery source hin he hsuite hdup hf hr hs => ⟨fun habsent => ?_, fun c hpresent hc hkind => ?_⟩⟩
    · obtain ⟨f, b, recovery, source, hf, hb, hr, hs⟩ := exists_enrolledRecord hin
      exact hrefused (State.enrolCheck_occupied (enrolledRecord_inRange hin hf hb hr hs) hocc)
    · obtain ⟨f, b, recovery, source, hf, hb, hr, hs⟩ := exists_enrolledRecord hin
      refine hrefused ((State.enrolCheck_empty (enrolledRecord_inRange hin hf hb hr hs) he).trans (if_pos ?_))
      exact (hclass hr).mpr hsuite
    · obtain ⟨f, b, recovery, source, hf, hb, hr, hs⟩ := exists_enrolledRecord hin
      exact hrefused (State.enrolCheck_duplicate (enrolledRecord_inRange hin hf hb hr hs) he (mt (hclass hr).mp hsuite)
        (State.addressTaken_iff.mpr hdup))
    · obtain ⟨f, b, recovery, source, hf, hb, hr, hs⟩ := exists_enrolledRecord hin
      obtain rfl : b = some c := by
        rw [hpresent, optChan_present hc] at hb
        exact (Option.some.inj hb).symm
      refine hrefused ((State.enrolCheck_last (enrolledRecord_inRange hin hf hb hr hs) he (mt (hclass hr).mp hsuite)
        (mt State.addressTaken_iff.mp hdup)).trans (if_neg ?_))
      simpa [State.bindable, Order.enrolled] using hkind
    · have hb : optChan (bit (o.p 2) 8) (bits (o.p 2) 23 16) = some none := by
        rw [habsent]
        exact optChan_absent _
      have hcheck := (State.enrolCheck_last (enrolledRecord_inRange hin hf hb hr hs) he (mt (hclass hr).mp hsuite)
        (mt State.addressTaken_iff.mp hdup)).trans (if_pos rfl)
      rw [hexec, enrolOrder_unbound hi hcheck rfl]
      rfl
    · have hb : optChan (bit (o.p 2) 8) (bits (o.p 2) 23 16) = some (some c) := by
        rw [hpresent]
        exact optChan_present hc
      have hcheck := (State.enrolCheck_last (enrolledRecord_inRange hin hf hb hr hs) he (mt (hclass hr).mp hsuite)
        (mt State.addressTaken_iff.mp hdup)).trans (if_pos (by simpa [State.bindable, Order.enrolled] using hkind))
      rw [hexec, enrolOrder_bound hi hcheck rfl]
      rfl

/-! ## RELEASE (R110) -/

/-- The slot of a RELEASE with its jam abandoned and its urgent entry gone. -/
def State.released (s : State) (i : Fin 48) : State := (s.jamAbandon i).urgentRemove i

theorem State.released_noJam (h : (s.slot i).jam = none) : s.released i = s.urgentRemove i := by
  rw [State.released, State.jamAbandon, h]

theorem State.released_jam {j : JamContext} (h : (s.slot i).jam = some j) :
    s.released i =
      State.urgentRemove
        (State.sysEvent (.jamOutcome i (s.slot i).linkAddr .abandoned j.origin j.sets j.lastLabel .empty)
          (State.urgentRemove (s.setSlot i { s.slot i with jam := none }) i)) i := by
  rw [State.released, State.jamAbandon]
  simp only [h]

/-- The abandoned jam leaves the record's binding. -/
theorem State.released_boundTo (s : State) (i : Fin 48) : ((s.released i).slot i).boundTo = (s.slot i).boundTo := by
  cases h : (s.slot i).jam with
  | none => rw [State.released_noJam h, State.urgentRemove_slot]
  | some j =>
    rw [State.released_jam h, State.urgentRemove_slot, State.sysEvent_slot, State.urgentRemove_slot, State.setSlot_slot_same]

theorem State.emptySlot_rosterReport (s : State) (i : Fin 48) (code : Result) :
    (s.emptySlot i).rosterReport i code =
      (s.setSlot i { Device.emptyRecord with lastResult := some code }).report code := by
  rw [State.emptySlot, State.setSlot_rosterReport]

theorem releaseOrder_badSlot (h : 48 ≤ (o.p 0).toNat) : releaseOrder o s = s.report .refusedRange := by
  simp only [releaseOrder, slotOf_eq_none h]

theorem adoptOrder_badSlot (h : 48 ≤ (o.p 0).toNat) : adoptOrder o s = s.report .refusedRange := by
  simp only [adoptOrder, slotOf_eq_none h]

section
variable (hi : (o.p 0).toNat = i.val)
include hi

theorem releaseOrder_empty (h : (s.slot i).state = .empty) :
    releaseOrder o s = (s.setSlot i { s.slot i with lastResult := some .done }).report .done := by
  rw [releaseOrder, slotOf_eq_some hi]
  exact if_pos h

theorem releaseOrder_occupied (h : (s.slot i).state ≠ .empty) :
    releaseOrder o s =
      (((s.released i).lowerBound (s.slot i).boundTo).setSlot i
        { Device.emptyRecord with lastResult := some .done }).report .done := by
  rw [releaseOrder, slotOf_eq_some hi, ← State.released_boundTo]
  dsimp only
  rw [if_neg h, State.emptySlot_rosterReport]
  rfl

theorem adoptOrder_refusedState (h : (s.slot i).state = .empty) : adoptOrder o s = s.rosterReport i .refusedState := by
  rw [adoptOrder, slotOf_eq_some hi]
  exact if_pos h

theorem adoptOrder_refusedBusy (h : (s.slot i).state = .jamming) : adoptOrder o s = s.rosterReport i .refusedBusy := by
  rw [adoptOrder, slotOf_eq_some hi]
  dsimp only
  rw [if_neg (by rw [h]; decide), if_pos h]

theorem adoptOrder_accepted (hempty : (s.slot i).state ≠ .empty) (hjamming : (s.slot i).state ≠ .jamming) :
    adoptOrder o s = (s.setSlot i { (s.slot i).readopt with lastResult := some .done }).report .done := by
  rw [adoptOrder, slotOf_eq_some hi]
  dsimp only
  rw [if_neg hempty, if_neg hjamming, State.setSlot_rosterReport]

end

theorem Device.readopt_absent {d : Device} (h : d.state = .absent) :
    d.readopt = { d.forget with before := some .enrolled } := by
  rw [Device.readopt, h]

theorem Device.readopt_present {d : Device} (h : d.state ≠ .absent) : d.readopt = { d.forget with state := .enrolled } := by
  unfold Device.readopt
  split
  · contradiction
  · rfl

theorem exec_release_taken (hstep : s.oe.step = .taken o) (hk : o.kind = .release) (hexch : s.exch = none) :
    exec .release s = .next (releaseOrder o s) :=
  congrArg Host.Outcome.next (s.handRosterOrder_taken _ _ o hstep hk hexch)

theorem exec_adopt_taken (hstep : s.oe.step = .taken o) (hk : o.kind = .adopt) (hexch : s.exch = none) :
    exec .adopt s = .next (adoptOrder o s) :=
  congrArg Host.Outcome.next (s.handRosterOrder_taken _ _ o hstep hk hexch)

/-- Settles O43: RELEASE by occupation, jam and binding; ADOPT by the record's state. -/
theorem releaseAndAdopt : Obligations.ReleaseAndAdopt := by
  refine ⟨fun s o hstep hexch hbad => ⟨fun hk => ?_, fun hk => ?_⟩,
    fun s o i hstep hk hexch hi => ?release,
    fun s o i hstep hk hexch hi => ⟨fun h => ?_, fun h => ?_, fun h => ?_, fun h => ?_⟩⟩
  case release =>
    intro d s1 s2
    have hreleased : s.released i = s1 := by
      cases hj : (s.slot i).jam with
      | none => simp only [s1, d, hj, State.released_noJam hj]
      | some j => simp only [s1, d, hj, State.released_jam hj]
    have hlowered : s1.lowerBound d.boundTo = s2 := by
      simp only [s2]
      clear_value s1 d
      cases d.boundTo with
      | none => rfl
      | some c => rfl
    refine ⟨fun hempty => ?_, fun hocc => ?_⟩
    · rw [exec_release_taken hstep hk hexch, releaseOrder_empty hi hempty]
    · rw [exec_release_taken hstep hk hexch, releaseOrder_occupied hi hocc, hreleased, hlowered]
  · rw [exec_release_taken hstep hk hexch, releaseOrder_badSlot hbad]
    rfl
  · rw [exec_adopt_taken hstep hk hexch, adoptOrder_badSlot hbad]
    rfl
  · rw [exec_adopt_taken hstep hk hexch, adoptOrder_refusedState hi h]
    rfl
  · rw [exec_adopt_taken hstep hk hexch, adoptOrder_refusedBusy hi h]
    rfl
  · rw [exec_adopt_taken hstep hk hexch, adoptOrder_accepted hi (by rw [h]; decide) (by rw [h]; decide),
      Device.readopt_absent h]
    rfl
  · have hstate : (s.slot i).state ≠ .empty ∧ (s.slot i).state ≠ .jamming ∧ (s.slot i).state ≠ .absent := by
      rcases h with h | h | h | h <;> rw [h] <;> decide
    obtain ⟨hempty, hjamming, habsent⟩ := hstate
    rw [exec_adopt_taken hstep hk hexch, adoptOrder_accepted hi hempty hjamming, Device.readopt_present habsent]
    rfl

/-! ## EXCHANGE (R112, R113) -/

theorem exchangeOrder_badSlot (h : 48 ≤ (o.p 0).toNat) : exchangeOrder o s = s.report .refusedRange := by
  simp only [exchangeOrder, slotOf_eq_none h]

theorem State.inWindow_eq_false {a n : Nat} : s.inWindow a n = false ↔ s.windowSize < a + n := by
  rw [State.inWindow, decide_eq_false_iff_not, not_le]

section
variable (hi : (o.p 0).toNat = i.val)
include hi

theorem exchangeOrder_busy (h : (s.slot i).state = .jamming) : exchangeOrder o s = s.rosterReport i .refusedBusy := by
  rw [exchangeOrder, slotOf_eq_some hi]
  exact if_pos h

variable (h : (s.slot i).state ≠ .jamming)
include h

theorem exchangeOrder_fault (hbad : (o.p 1).toNat = 0 ∨ (o.p 1).toNat % 4 ≠ 0 ∨ s.windowSize < (o.p 1).toNat + 64) :
    exchangeOrder o s = s.rosterReport i .windowFault := by
  rw [← State.inWindow_eq_false] at hbad
  rw [exchangeOrder, slotOf_eq_some hi]
  dsimp only
  rw [if_neg h, if_pos hbad]

theorem exchangeOrder_accepted (hbad : ¬((o.p 1).toNat = 0 ∨ (o.p 1).toNat % 4 ≠ 0 ∨ s.windowSize < (o.p 1).toNat + 64)) :
    exchangeOrder o s =
      State.keep
        { s.setSlot i { s.slot i with held := true, lastResult := none } with
          exch := some ⟨i, (o.p 1).toNat, if s.inService i then .waitService else .reading [], false⟩ } .exchange := by
  rw [← State.inWindow_eq_false] at hbad
  rw [exchangeOrder, slotOf_eq_some hi]
  dsimp only
  rw [if_neg h, if_neg hbad]
  rfl

end

theorem State.inService_turn {t : Turn} (ht : s.lc.turn = some t) (h : t.slot = i) : s.inService i = true := by
  simp [State.inService, ht, h]

theorem State.inService_other (h : ∀ t, s.lc.turn = some t → t.slot ≠ i) : s.inService i = false := by
  unfold State.inService
  split
  next t ht => simpa using h t ht
  next => rfl

theorem exec_exchange_taken (hstep : s.oe.step = .taken o) (hk : o.kind = .exchange) (hexch : s.exch = none) :
    exec .exchange s = .next (exchangeOrder o s) :=
  congrArg Host.Outcome.next (s.handRosterOrder_taken _ _ o hstep hk hexch)

/-- Settles O45: EXCHANGE by its checks and the turn in progress, and the roster orders that a dropped one holds. -/
theorem exchangeOrder_holds : Obligations.ExchangeOrder := by
  refine ⟨fun s o hstep hk hexch hbad => ?_,
    fun s o i hstep hk hexch hi => ⟨fun h => ?_, fun h hbad => ?_, fun t h hok ht hslot => ?_, fun h hok hother => ?_⟩,
    fun s o e hstep hexch => ?held⟩
  case held =>
    refine ⟨fun hk => ?_, fun hk => ?_, fun hk => ?_, fun hk => ?_, fun hk => ?_, fun hk => ?_⟩ <;>
      exact congrArg Host.Outcome.next (State.handRosterOrder_held _ hstep hk hexch)
  · rw [exec_exchange_taken hstep hk hexch, exchangeOrder_badSlot hbad]
    rfl
  · rw [exec_exchange_taken hstep hk hexch, exchangeOrder_busy hi h]
    rfl
  · rw [exec_exchange_taken hstep hk hexch, exchangeOrder_fault hi h hbad]
    rfl
  · rw [exec_exchange_taken hstep hk hexch, exchangeOrder_accepted hi h hok, State.inService_turn ht hslot, if_pos rfl]
  · rw [exec_exchange_taken hstep hk hexch, exchangeOrder_accepted hi h hok, State.inService_other hother,
      if_neg Bool.false_ne_true]

end Sys2Proof.Machine
end

section
/-! INJECT MARK, the mark entries of a REPORT, the steps of a logged mark and take stamping (R139 to R145, R63). -/

namespace Sys2Proof.Machine

variable {s : State} {o : Order} {i : Fin 48} {kind : Fin 16}

/-! ## INJECT MARK (R145) -/

/-- INJECT_MARK with its order in hand is the log unit's taking of it. -/
theorem exec_injectMark_taken (hstep : s.oe.step = .taken o) (hk : o.kind = .injectMark) :
    exec .injectMark s = .next (injectMarkOrder o s) :=
  congrArg Host.Outcome.next (s.handOrder_taken _ _ o hstep hk)

theorem injectMarkOrder_kind (h : 15 < (o.p 0).toNat) : injectMarkOrder o s = s.report .refusedRange := by
  simp only [injectMarkOrder, chanOf_eq_none h]

theorem injectMarkOrder_error (hkind : (o.p 0).toNat = kind.val) {code : Result}
    (h : s.orderMark o.stForm (o.p 1) (o.p 2) (o.p 3) = .error code) : injectMarkOrder o s = s.report code := by
  simp only [injectMarkOrder, chanOf_eq_some hkind, h]

theorem injectMarkOrder_ok (hkind : (o.p 0).toNat = kind.val) {m : MarkOrigin}
    (h : s.orderMark o.stForm (o.p 1) (o.p 2) (o.p 3) = .ok m) :
    injectMarkOrder o s = (s.takeMark kind m).report .done (s.markFate kind m) := by
  simp only [injectMarkOrder, chanOf_eq_some hkind, h]

/-- A refusal by the checks on the slot, its subframe and its label comes out whatever the kind, when its result is that
of an illegal kind. -/
theorem injectMarkOrder_refusedRange (h : s.orderMark o.stForm (o.p 1) (o.p 2) (o.p 3) = .error .refusedRange) :
    injectMarkOrder o s = s.report .refusedRange := by
  by_cases hkind : 15 < (o.p 0).toNat
  · exact injectMarkOrder_kind hkind
  · exact injectMarkOrder_error (kind := ⟨(o.p 0).toNat, by omega⟩) rfl h

theorem State.takeMark_discarded {m : MarkOrigin} (h : s.markPasses kind m = false) :
    s.takeMark kind m = s.discardMark :=
  if_neg (by simp [h])

theorem State.takeMark_logged {m : MarkOrigin} (h : s.markPasses kind m = true) :
    s.takeMark kind m = s.logMark kind m :=
  if_pos h

theorem State.markFate_discarded {m : MarkOrigin} (h : s.markPasses kind m = false) : s.markFate kind m = 2 :=
  if_neg (by simp [h])

theorem State.markFate_logged {m : MarkOrigin} (h : s.markPasses kind m = true) :
    s.markFate kind m = if s.lu.queue.length < 64 then 0 else 1 :=
  if_pos h

/-! ## A mark entry of a REPORT (R139, R140) -/

theorem State.takeEntry_discarded {e : MarkEntry} (h : 15 < e.kind ∨ (s.slot i).fmt.valid e.label = false) :
    State.takeEntry i s e = s.discardMark := by
  unfold State.takeEntry
  rcases h with hkind | hlabel
  · rw [chanOf_eq_none hkind]
  · rw [Fmt.enter_of_invalid hlabel]
    cases chanOf e.kind <;> rfl

theorem State.takeEntry_valid {e : MarkEntry} (hkind : e.kind = kind.val) (hlabel : (s.slot i).fmt.valid e.label = true) :
    State.takeEntry i s e =
      s.takeMark kind (.slot i ((s.slot i).fmt.indexOf ((s.slot i).fmt.moved e.label)) e.sub
        ((s.slot i).fmt.skipped e.label)) := by
  simp only [State.takeEntry, chanOf_eq_some hkind, Fmt.enter_of_valid hlabel]

/-! ## The steps of a logged mark (R141) -/

theorem State.stampChannels_eq_foldl (s : State) (w : Word) (cs : List (Fin 16)) :
    s.stampChannels w cs =
      cs.foldl (fun t c => if (t.chan c).cfg.stamping then t.setChan c ((t.chan c).stamp w) else t) s := by
  induction cs generalizing s with
  | nil => rfl
  | cons c cs ih => exact ih _

/-- The state in which a mark's record is made: the take counter stepped and the watch channels stamped. -/
def State.markStamped (s : State) (kind : Fin 16) : State :=
  let a := s.lu.actions.get kind
  let counter := s.lu.stepTake a.step
  State.stampChannels { s with lu := counter } counter.takeWord a.watch

theorem State.markStamped_slots (s : State) (kind : Fin 16) : (s.markStamped kind).slots = s.slots := by
  simp [State.markStamped]

theorem State.markStamped_tb (s : State) (kind : Fin 16) : (s.markStamped kind).tb = s.tb := by
  simp [State.markStamped]

theorem State.markStamped_lu (s : State) (kind : Fin 16) :
    (s.markStamped kind).lu = s.lu.stepTake (s.lu.actions.get kind).step := by
  simp [State.markStamped]

theorem State.submit_slot (s : State) (r : TakeRecord) : (s.submit r).slot i = s.slot i :=
  State.slot_congr (by simp) i

theorem State.logMark_eq (s : State) (kind : Fin 16) (m : MarkOrigin) :
    s.logMark kind m =
      let a := s.lu.actions.get kind
      let t := s.markStamped kind
      let t1 := (t.submit (t.markRecord kind a.watch m)).countMark m
      if a.attention then t1.raise .mark else t1 := rfl

theorem State.markRecord_host (s : State) (kind : Fin 16) (watch : List (Fin 16)) (t : Nat) :
    s.markRecord kind watch (.host t) =
      ⟨0, 0, .mark kind none (hostMarkFlags s.tb.ref) (watch.filterMap (fun c => watchEntry c (s.chan c) t)),
        some t, s.tb.gen, s.lu.slate, s.lu.take⟩ := rfl

/-- The record of a slot's mark, its studio time, if any, being that of its translation. -/
theorem State.markRecord_slot (s : State) (kind : Fin 16) (watch : List (Fin 16)) (label sub : Nat) (adjusted : Bool) :
    s.markRecord kind watch (.slot i label sub adjusted) =
      ⟨0, 0, .mark kind (some ⟨i, (s.slot i).linkAddr, label, (s.slot i).fmt, sub⟩)
        (slotMarkFlags s.tb.ref (s.slot i) (s.translateSlot (s.slot i) label sub) adjusted)
        (s.watchEntries watch (s.translateSlot (s.slot i) label sub).st),
        (s.translateSlot (s.slot i) label sub).st, s.tb.gen, s.lu.slate, s.lu.take⟩ := rfl

theorem State.logMark_slot (s : State) (kind : Fin 16) (label sub : Nat) (adjusted : Bool) :
    let a := s.lu.actions.get kind
    let counter := s.lu.stepTake a.step
    let s2 := s.markStamped kind
    let tr := s2.translateSlot (s.slot i) label sub
    let s3 := State.submit
      ⟨0, 0, .mark kind (some ⟨i, (s.slot i).linkAddr, label, (s.slot i).fmt, sub⟩)
        (slotMarkFlags s.tb.ref (s.slot i) tr adjusted) (s2.watchEntries a.watch tr.st), tr.st, s.tb.gen, counter.slate,
        counter.take⟩ s2
    let s4 := s3.setSlot i { s.slot i with marksLogged := (s.slot i).marksLogged + 1 }
    s.logMark kind (.slot i label sub adjusted) = if a.attention then s4.raise .mark else s4 := by
  intro a counter s2 tr s3 s4
  have hslot : s2.slot i = s.slot i := State.slot_congr (s.markStamped_slots kind) i
  have hrec : s2.markRecord kind a.watch (.slot i label sub adjusted) =
      ⟨0, 0, .mark kind (some ⟨i, (s.slot i).linkAddr, label, (s.slot i).fmt, sub⟩)
        (slotMarkFlags s.tb.ref (s.slot i) tr adjusted) (s2.watchEntries a.watch tr.st), tr.st, s.tb.gen, counter.slate,
        counter.take⟩ := by
    rw [State.markRecord_slot, hslot, s.markStamped_tb, s.markStamped_lu]
  have hcount : State.countMark s3 (.slot i label sub adjusted) = s4 := by
    rw [State.countMark, State.submit_slot, hslot]
  have h := s.logMark_eq kind (.slot i label sub adjusted)
  dsimp only at h
  rw [h]
  change (if a.attention then ((s2.submit (s2.markRecord kind a.watch _)).countMark _).raise .mark
    else (s2.submit (s2.markRecord kind a.watch _)).countMark _) = _
  rw [hrec, hcount]

theorem State.logMark_host (s : State) (kind : Fin 16) (t : Nat) :
    let a := s.lu.actions.get kind
    let counter := s.lu.stepTake a.step
    let s2 := s.markStamped kind
    let s3 := State.submit
      ⟨0, 0, .mark kind none (hostMarkFlags s.tb.ref) (a.watch.filterMap (fun c => watchEntry c (s2.chan c) t)), some t,
        s.tb.gen, counter.slate, counter.take⟩ s2
    s.logMark kind (.host t) = if a.attention then s3.raise .mark else s3 := by
  intro a counter s2 s3
  have hrec : s2.markRecord kind a.watch (.host t) =
      ⟨0, 0, .mark kind none (hostMarkFlags s.tb.ref) (a.watch.filterMap (fun c => watchEntry c (s2.chan c) t)), some t,
        s.tb.gen, counter.slate, counter.take⟩ := by
    rw [State.markRecord_host, s.markStamped_tb, s.markStamped_lu]
  have h := s.logMark_eq kind (.host t)
  dsimp only at h
  rw [h]
  change (if a.attention then (s2.submit (s2.markRecord kind a.watch _)).raise .mark
    else s2.submit (s2.markRecord kind a.watch _)) = _
  rw [hrec]

/-! ## Take stamping (R63) -/

theorem Channel.stamp_idle {ch : Channel} (w : Word) (h : ch.state = .stopped ∨ ch.state = .armed) :
    ch.stamp w = { ch with cfg := { ch.cfg with userWord := w } } := by
  rcases h with h | h <;> rw [Channel.stamp, h]

theorem Channel.stamp_user {ch : Channel} (w : Word) (h : ch.state = .running)
    (hstaged : ch.staged = none ∨ ∃ old, ch.staged = some (.user old)) :
    ch.stamp w = { ch with staged := some (.user w) } := by
  rcases hstaged with hs | ⟨old, hs⟩ <;> rw [Channel.stamp, h] <;> dsimp only <;> rw [hs]

theorem Channel.stamp_full {ch : Channel} (w : Word) {set : Settings} (h : ch.state = .running)
    (hs : ch.staged = some (.full set)) :
    ch.stamp w = { ch with staged := some (.full { set with userWord := w }) } := by
  rw [Channel.stamp, h]
  dsimp only
  rw [hs]

/-! ## O51 -/

/-- Settles O51: the order by its checks and the mark's fate, the steps of a logged mark for each origin, the mark entry
by its kind and label, and stamping by the channel's state. -/
theorem injectMark : Obligations.InjectMark := by
  refine ⟨fun s o hstep hk => ?_, fun s kind i label sub adjusted => ⟨?_, fun t => ?_⟩, fun s kind m => ?_,
    fun s i e => ?_, fun ch w => ⟨Channel.stamp_idle w, Channel.stamp_user w, fun set => Channel.stamp_full w⟩⟩
  · rw [exec_injectMark_taken hstep hk]
    refine ⟨fun h => ?_, fun hst h => ?_, fun i hkind hst hi hsub he => ?_, fun i hkind hst hi hsub he hl => ?_,
      fun kind m hkind hm => ?_⟩
    · rw [injectMarkOrder_kind h]
      rfl
    · rw [injectMarkOrder_refusedRange (by rw [hst]; exact s.orderMark_outOfRange h)]
      rfl
    · rw [injectMarkOrder_error (kind := ⟨(o.p 0).toNat, by omega⟩) rfl
        (by rw [hst]; exact s.orderMark_empty hi hsub he)]
      rfl
    · rw [injectMarkOrder_refusedRange (by rw [hst]; exact s.orderMark_invalid hi hsub he hl)]
      rfl
    · have hmark : s.orderMark o.stForm (o.p 1) (o.p 2) (o.p 3) = .ok m := by
        rcases hm with ⟨hst, rfl⟩ | ⟨hst, i, hi, hsub, he, hl, rfl⟩
        · rw [hst]
          exact s.orderMark_host _ _ _
        · rw [hst]
          exact s.orderMark_slot hi hsub he hl
      rw [injectMarkOrder_ok hkind hmark]
      refine ⟨fun hp => ?_, fun hp => ?_⟩
      · rw [State.takeMark_discarded hp, State.markFate_discarded hp]
        rfl
      · rw [State.takeMark_logged hp, State.markFate_logged hp]
  · rw [State.markPasses_slot, Bool.and_eq_true]
  · rw [State.markPasses_host]
  · intro a counter s1 word s2 marked
    have hs2 : s2 = s.markStamped kind := (s1.stampChannels_eq_foldl word a.watch).symm
    clear_value s2
    subst hs2
    refine ⟨fun t hm => ?_, fun i label sub adjusted hm => ?_⟩
    · subst hm
      exact s.logMark_host kind t
    · subst hm
      have h := s.logMark_slot (i := i) kind label sub adjusted
      intro tr
      change State.logMark s kind _ = _ at h
      revert h
      generalize htr : (s.markStamped kind).translateSlot (s.slot i) label sub = tr'
      have : tr = tr' := htr
      clear_value tr
      subst this
      obtain ⟨st, uncertain, stale⟩ := tr
      cases st with
      | none => exact id
      | some t => exact id
  · intro d discarded
    refine ⟨State.takeEntry_discarded, fun kind hkind hl => ?_⟩
    intro skipped mark reached
    have hentry := State.takeEntry_valid (s := s) (i := i) hkind hl
    have hreached : reached (mark (d.fmt.moved e.label) (d.fmt.skipped e.label)) :=
      ⟨fun hp => hentry.trans (State.takeMark_discarded hp), fun hp => hentry.trans (State.takeMark_logged hp)⟩
    refine ⟨fun h => ?_, fun h => ?_⟩
    · have hs : d.fmt.skipped e.label = false := by
        rw [Bool.eq_false_iff]
        exact fun hs => h ((d.fmt.skipped_iff e.label).mp hs)
      rwa [Fmt.moved, hs, if_neg Bool.false_ne_true] at hreached
    · have hs : d.fmt.skipped e.label = true := (d.fmt.skipped_iff e.label).mpr h
      rwa [Fmt.moved, hs, if_pos rfl] at hreached

end Sys2Proof.Machine
end

section
/-! The events of an EXCHANGE: the read image and its checks, the swap, the write, and the end (R114 to R117, R174,
R193). -/

namespace Sys2Proof.Machine

variable {s : State} {e : Exchange} {i : Fin 48} {o : Order}

/-! ## An order handed later is the order handed now (R174)

What a roster order does does not depend on the engine's step, which it sets. -/

/-- The states differ in the engine's step at most. -/
def State.SameButStep (s t : State) : Prop := ∃ x, t = { s with oe := { s.oe with step := x } }

variable {t : State}

theorem State.SameButStep.report (h : s.SameButStep t) (code : Result) (detail : Nat) (results : List (Nat × Word)) :
    t.report code detail results = s.report code detail results := by
  obtain ⟨x, rfl⟩ := h
  rfl

theorem State.SameButStep.rosterReport (h : s.SameButStep t) (i : Fin 48) (code : Result) :
    t.rosterReport i code = s.rosterReport i code := by
  obtain ⟨x, rfl⟩ := h
  rfl

theorem State.SameButStep.setSlot (h : s.SameButStep t) (i : Fin 48) (d : Device) :
    (s.setSlot i d).SameButStep (t.setSlot i d) := by
  obtain ⟨x, rfl⟩ := h
  exact ⟨x, rfl⟩

theorem State.SameButStep.emptySlot (h : s.SameButStep t) (i : Fin 48) : (s.emptySlot i).SameButStep (t.emptySlot i) := by
  obtain ⟨x, rfl⟩ := h
  exact ⟨x, rfl⟩

theorem State.SameButStep.urgentRemove (h : s.SameButStep t) (i : Fin 48) :
    (s.urgentRemove i).SameButStep (t.urgentRemove i) := by
  obtain ⟨x, rfl⟩ := h
  exact ⟨x, rfl⟩

theorem State.SameButStep.lowerBound (h : s.SameButStep t) (c : Option (Fin 16)) :
    (s.lowerBound c).SameButStep (t.lowerBound c) := by
  obtain ⟨x, rfl⟩ := h
  cases c <;> exact ⟨x, rfl⟩

theorem State.SameButStep.raiseBound (h : s.SameButStep t) (c : Option (Fin 16)) :
    (s.raiseBound c).SameButStep (t.raiseBound c) := by
  obtain ⟨x, rfl⟩ := h
  cases c <;> exact ⟨x, rfl⟩

theorem State.SameButStep.setLastResult (h : s.SameButStep t) (i : Fin 48) (r : Option Result) :
    (s.setLastResult i r).SameButStep (t.setLastResult i r) := by
  obtain ⟨x, rfl⟩ := h
  exact ⟨x, rfl⟩

theorem State.SameButStep.slot (h : s.SameButStep t) (i : Fin 48) : t.slot i = s.slot i := by
  obtain ⟨x, rfl⟩ := h
  rfl

theorem State.SameButStep.urgentInsert (h : s.SameButStep t) (i : Fin 48) :
    (s.urgentInsert i).SameButStep (t.urgentInsert i) := by
  obtain ⟨x, rfl⟩ := h
  unfold State.urgentInsert
  change State.SameButStep (ite _ _ _) (if (s.lc.urgent.contains i || s.inUrgentService i) = true then _ else _)
  split_ifs <;> exact ⟨x, rfl⟩

theorem State.SameButStep.startJam (h : s.SameButStep t) (i : Fin 48) (source : Fin 16) (origin : JamOrigin)
    (retries : Nat) (waiting : Bool) :
    (s.startJam i source origin retries waiting).SameButStep (t.startJam i source origin retries waiting) := by
  unfold State.startJam
  rw [h.slot]
  exact (h.setSlot i _).urgentInsert i

theorem State.SameButStep.keep (h : s.SameButStep t) (k : Kept) : t.keep k = s.keep k := by
  obtain ⟨x, rfl⟩ := h
  rfl

theorem State.SameButStep.endFlush (h : s.SameButStep t) (code : Result) (detail : Nat) :
    t.endFlush code detail = s.endFlush code detail := by
  obtain ⟨x, rfl⟩ := h
  rfl

/-- The STARVED writer, its FLUSH LOG not ended yet. -/
def State.starved (s : State) (afterClear : Bool) : State :=
  if afterClear then s.setActivity .starved else (s.setActivity .starved).raise .stock

theorem State.starved_flushLeft (s : State) (afterClear : Bool) : (s.starved afterClear).flushLeft = s.flushLeft := by
  cases afterClear <;> rfl

theorem State.enterStarved_waiting {afterClear : Bool} {n : Nat} (h : s.flushLeft = some (n + 1)) :
    s.enterStarved afterClear = (s.starved afterClear).endFlush .done (n + 1) := by
  have hl := (s.starved_flushLeft afterClear).trans h
  unfold State.enterStarved
  dsimp only
  change (match (s.starved afterClear).flushLeft with | some (n + 1) => _ | _ => _) = _
  rw [hl]
  rfl

theorem State.enterStarved_done {afterClear : Bool} (h : s.flushLeft = none ∨ s.flushLeft = some 0) :
    s.enterStarved afterClear = s.starved afterClear := by
  unfold State.enterStarved
  dsimp only
  change (match (s.starved afterClear).flushLeft with | some (n + 1) => _ | _ => _) = _
  rcases h with h | h <;> rw [s.starved_flushLeft, h] <;> rfl

theorem State.SameButStep.starved (h : s.SameButStep t) (b : Bool) : (s.starved b).SameButStep (t.starved b) := by
  obtain ⟨x, rfl⟩ := h
  cases b <;> exact ⟨x, rfl⟩

theorem State.SameButStep.refl : s.SameButStep s := ⟨s.oe.step, rfl⟩

theorem State.SameButStep.flushLeft (h : s.SameButStep t) : t.flushLeft = s.flushLeft := by
  obtain ⟨x, rfl⟩ := h
  rfl

theorem State.SameButStep.enterStarved (h : s.SameButStep t) (b : Bool) :
    (s.enterStarved b).SameButStep (t.enterStarved b) := by
  match hl : s.flushLeft with
  | none | some 0 =>
    rw [State.enterStarved_done (by simp [hl]), State.enterStarved_done (by simp [h.flushLeft, hl])]
    exact h.starved b
  | some (n + 1) =>
    rw [State.enterStarved_waiting hl, State.enterStarved_waiting (h.flushLeft.trans hl), (h.starved b).endFlush]
    exact .refl

theorem State.SameButStep.chooseWork (h : s.SameButStep t) (b : Bool) :
    (s.chooseWork b).SameButStep (t.chooseWork b) := by
  obtain ⟨x, rfl⟩ := h
  cases hq : s.lu.queue with
  | nil => exact ⟨x, by simp only [State.chooseWork, hq]; rfl⟩
  | cons r rest =>
    cases hp : s.pw.page with
    | some p =>
      by_cases hf : p.fits r = true
      · exact ⟨x, by simp only [State.chooseWork, hq, hp, if_pos hf]; rfl⟩
      · exact ⟨x, by simp only [State.chooseWork, hq, hp, if_neg hf]; rfl⟩
    | none =>
      cases hs : s.pw.stock with
      | cons a stock =>
        simp only [State.chooseWork, hq, hp, hs, State.beginClaim]
        split_ifs <;> exact ⟨x, rfl⟩
      | nil =>
        simp only [State.chooseWork, hq, hp, hs]
        exact State.SameButStep.enterStarved ⟨x, rfl⟩ b

theorem State.choose_flushed {b : Bool} (h : s.flushLeft = some 0) (hr : (s.pw.page.map OpenPage.records).getD 0 = 0) :
    s.choose b = (s.endFlush .done 0).chooseWork b := by
  rw [State.choose, if_pos h, if_pos hr]

theorem State.choose_closes {b : Bool} (h : s.flushLeft = some 0) (hr : (s.pw.page.map OpenPage.records).getD 0 ≠ 0) :
    s.choose b = s.setActivity (.closing .flush false) := by
  rw [State.choose, if_pos h, if_neg hr]

theorem State.choose_work {b : Bool} (h : s.flushLeft ≠ some 0) : s.choose b = s.chooseWork b := if_neg h

theorem State.SameButStep.pw (h : s.SameButStep t) : t.pw = s.pw := by
  obtain ⟨x, rfl⟩ := h
  rfl

theorem State.SameButStep.setActivity (h : s.SameButStep t) (a : Activity) :
    (s.setActivity a).SameButStep (t.setActivity a) := by
  obtain ⟨x, rfl⟩ := h
  exact ⟨x, rfl⟩

theorem State.SameButStep.choose (h : s.SameButStep t) (b : Bool) : (s.choose b).SameButStep (t.choose b) := by
  by_cases hl : s.flushLeft = some 0
  · have hl' := h.flushLeft.trans hl
    by_cases hr : (s.pw.page.map OpenPage.records).getD 0 = 0
    · rw [State.choose_flushed hl hr, State.choose_flushed hl' (by rw [h.pw]; exact hr), h.endFlush]
      exact .refl
    · rw [State.choose_closes hl hr, State.choose_closes hl' (by rw [h.pw]; exact hr)]
      exact h.setActivity _
  · rw [State.choose_work hl, State.choose_work (by rw [h.flushLeft]; exact hl)]
    exact h.chooseWork b

theorem State.SameButStep.sysEvent (h : s.SameButStep t) (ev : SysEvent) : (s.sysEvent ev).SameButStep (t.sysEvent ev) := by
  obtain ⟨x, rfl⟩ := h
  unfold State.sysEvent
  by_cases hroom : s.lu.queue.length < 64
  · by_cases hidle : s.pw.activity = .idle
    · rw [State.submit_idle _ hroom hidle, State.submit_idle _ (by exact hroom) (by exact hidle)]
      exact State.SameButStep.choose ⟨x, rfl⟩ _
    · rw [State.submit_busy _ hroom hidle, State.submit_busy _ (by exact hroom) (by exact hidle)]
      exact ⟨x, rfl⟩
  · rw [State.submit_full _ _ hroom, State.submit_full _ _ (by exact hroom)]
    exact ⟨x, rfl⟩

theorem State.SameButStep.jamAbandon (h : s.SameButStep t) (i : Fin 48) :
    (s.jamAbandon i).SameButStep (t.jamAbandon i) := by
  unfold State.jamAbandon
  rw [h.slot]
  cases (s.slot i).jam with
  | none => exact h
  | some j => exact ((h.setSlot i _).urgentRemove i).sysEvent _

theorem releaseOrder_sameButStep (h : s.SameButStep t) (o : Order) : releaseOrder o t = releaseOrder o s := by
  cases hi : slotOf (o.p 0) with
  | none =>
    simp only [releaseOrder, hi]
    exact h.report _ _ _
  | some i =>
    simp only [releaseOrder, hi, h.slot]
    have h1 := (h.jamAbandon i).urgentRemove i
    rw [h1.slot, ((h1.lowerBound _).emptySlot i).rosterReport, h.rosterReport]

theorem enrolOrder_sameButStep (h : s.SameButStep t) (o : Order) : enrolOrder o t = enrolOrder o s := by
  have hreport := h.report
  have hroster := h.rosterReport
  have hcheck (i : Fin 48) : t.enrolCheck i o = s.enrolCheck i o := by
    obtain ⟨x, rfl⟩ := h
    rfl
  cases hi : slotOf (o.p 0) with
  | none => simp only [enrolOrder, hi, hreport]
  | some i =>
    cases hc : s.enrolCheck i o with
    | error code => simp only [enrolOrder, hi, hcheck, hc, hroster]
    | ok d => simp only [enrolOrder, hi, hcheck, hc, ((h.setSlot i d).raiseBound d.boundTo).rosterReport]

theorem jamOrder_sameButStep (h : s.SameButStep t) (o : Order) : jamOrder o t = jamOrder o s := by
  have hreport := h.report
  have hroster := h.rosterReport
  have hcheck (i : Fin 48) : t.jamCheck i o = s.jamCheck i o := by
    obtain ⟨x, rfl⟩ := h
    rfl
  cases hi : slotOf (o.p 0) with
  | none => simp only [jamOrder, hi, hreport]
  | some i =>
    cases hc : s.jamCheck i o with
    | error code => simp only [jamOrder, hi, hcheck, hc, hroster]
    | ok d =>
      have h1 := (h.setLastResult i none).startJam i d.1 .order d.2 o.waitFlag
      simp only [jamOrder, hi, hcheck, hc, h1.rosterReport, h1.keep]

theorem setDeviceOrder_sameButStep (h : s.SameButStep t) (o : Order) : setDeviceOrder o t = setDeviceOrder o s := by
  simp only [setDeviceOrder, h.report, h.rosterReport, h.slot, (h.setSlot _ _).rosterReport]

theorem adoptOrder_sameButStep (h : s.SameButStep t) (o : Order) : adoptOrder o t = adoptOrder o s := by
  simp only [adoptOrder, h.report, h.rosterReport, h.slot, (h.setSlot _ _).rosterReport]

theorem exchangeOrder_sameButStep (h : s.SameButStep t) (o : Order) : exchangeOrder o t = exchangeOrder o s := by
  obtain ⟨x, rfl⟩ := h
  unfold exchangeOrder
  cases slotOf (o.p 0) <;> rfl

/-- A roster order does to a state what it does with another step in the engine's hand (R174). -/
theorem rosterOrder_sameButStep (h : s.SameButStep t) {o : Order} (hk : o.kind.ofRoster = true) :
    rosterOrder o t = rosterOrder o s := by
  unfold rosterOrder
  cases hkind : o.kind
  case enrol => exact enrolOrder_sameButStep h o
  case setDevice => exact setDeviceOrder_sameButStep h o
  case release => exact releaseOrder_sameButStep h o
  case adopt => exact adoptOrder_sameButStep h o
  case exchange => exact exchangeOrder_sameButStep h o
  case jam => exact jamOrder_sameButStep h o
  all_goals simp [hkind, OrderKind.ofRoster] at hk

/-! ## The end of an EXCHANGE (R114 to R117) -/

/-- The state an EXCHANGE leaves by its end, its order apart. -/
def State.exchangeEnded (s : State) (e : Exchange) (code : Result) : State :=
  { s.setSlot e.slot { s.slot e.slot with held := false, lastResult := some code } with exch := none }

theorem State.exchangeEnded_eq (s : State) (e : Exchange) (code : Result) :
    ((s.clearHold e.slot).setLastResult e.slot (some code)).setExchange none = s.exchangeEnded e code := by
  rw [State.setLastResult, State.clearHold, State.setSlot_slot_same, State.setSlot_setSlot]
  rfl

theorem State.endExchange_kept (h : e.dropped = false) (code : Result) :
    s.endExchange e code = (s.exchangeEnded e code).report code := by
  unfold State.endExchange
  dsimp only
  rw [s.exchangeEnded_eq, if_neg (by simp [h])]

theorem State.endExchange_alone (h : e.dropped = true) (hheld : ∀ o, s.oe.step ≠ .held o) (code : Result) :
    s.endExchange e code = s.exchangeEnded e code := by
  unfold State.endExchange
  dsimp only
  rw [s.exchangeEnded_eq, if_pos h]
  unfold State.handHeld
  split
  next o ho => exact absurd ho (hheld o)
  next => rfl

theorem State.endExchange_hands (h : e.dropped = true) (hheld : s.oe.step = .held o) (code : Result) :
    s.endExchange e code = rosterOrder o (s.exchangeEnded e code) := by
  unfold State.endExchange
  dsimp only
  rw [s.exchangeEnded_eq, if_pos h]
  have hstep : (s.exchangeEnded e code).oe.step = .held o := hheld
  rw [State.handHeld, hstep]

/-! ## The read (R115, R116) -/

theorem exec_exchangeReadDone {got : List Word} (he : s.exch = some e) (hphase : e.phase = .reading got)
    (hin : e.package + 64 ≤ s.windowSize) : exec .exchangeReadDone s = .next (s.exchangeRead e got) := by
  show execExchangeReadDone s = _
  rw [execExchangeReadDone, he]
  dsimp only
  rw [hphase]
  refine s.guarded_next _ _ fun a ha => State.inWindow_iff.mpr ?_
  rcases List.mem_cons.mp ha with rfl | ha
  · omega
  · rw [List.mem_singleton.mp ha]
    omega

theorem State.exchangeRead_busy (h : (s.slot e.slot).state = .jamming) (got : List Word) :
    s.exchangeRead e got = s.endExchange e .refusedBusy := if_pos h

theorem State.exchangeRead_refused {got : List Word} {code : Result} (h : (s.slot e.slot).state ≠ .jamming)
    (hv : s.validateImage e.slot (s.packageImage e got) = .error code) :
    s.exchangeRead e got = s.endExchange e code := by
  rw [State.exchangeRead, if_neg h, hv]

theorem State.exchangeRead_swaps {got : List Word} {d : Device} (h : (s.slot e.slot).state ≠ .jamming)
    (hv : s.validateImage e.slot (s.packageImage e got) = .ok d) :
    s.exchangeRead e got = s.exchangeSwap e d := by
  rw [State.exchangeRead, if_neg h, hv]

/-! ## The write (R117) -/

theorem exec_exchangeWriteDone {a : Nat} {image : List Word} (he : s.exch = some e) (hphase : e.phase = .writing a image)
    (hin : a + 4 * image.length ≤ s.windowSize) :
    exec .exchangeWriteDone s =
      .next (State.endExchange { s with mem := Memory.writeAll s.mem (wordsAt a image) } e .done) := by
  show execExchangeWriteDone s = _
  rw [execExchangeWriteDone, he]
  dsimp only
  rw [hphase]
  exact s.guarded_next _ _ (State.WordsIn.addresses (State.inWindow_wordsAt (State.inWindow_iff.mpr hin)))

/-- Words laid from an address change no byte outside them. -/
theorem Memory.read_wordsAt_outside (m : List Host.Cell) (ws : List Word) {a x : Nat}
    (h : x < a ∨ a + 4 * ws.length ≤ x) : Memory.read (Memory.writeAll m (wordsAt a ws)) x = Memory.read m x := by
  refine Memory.read_writeAll_other _ _ _ fun p hp k hk => ?_
  obtain ⟨j, hj, he⟩ := wordsAt_addr a ws p hp
  omega

end Sys2Proof.Machine
end

section
/-! The checks of a package image, field by field (R115, R193). -/

namespace Sys2Proof.Machine

variable {s : State} {i : Fin 48} {image : List Word}

/-! ## The coded fields -/

theorem devStateOfCode_of_lt {c : Nat} (h : c < 7) : ∃ st, devStateOfCode c = some st ∧ st.code = c := by
  interval_cases c <;> exact ⟨_, rfl, rfl⟩

theorem fmtOfCode_some_code {c : Nat} {f : Fmt} (hc : c < 16) (h : fmtOfCode c = some f) : f.code = c :=
  ((fmtOfCode_eq_some_iff hc f).mp h).2.symm

theorem recoveryOfCode_some_code {c : Nat} {r : Recovery} (h : recoveryOfCode c = some r) : r.code = c := by
  unfold recoveryOfCode at h
  split at h <;> cases h <;> rfl

theorem recoveryOfCode_eq_none_iff {c : Nat} (hc : c < 4) : recoveryOfCode c = none ↔ c = 3 := by
  interval_cases c <;> decide

theorem classOfCode_some_code {c : Nat} (hc : c < 4) : (classOfCode c).code = c := by
  interval_cases c <;> rfl

theorem classOfCode_eq_suite_iff {c : Nat} (hc : c < 4) : classOfCode c = .suite ↔ c = 3 := by
  interval_cases c <;> decide

theorem imageBound_eq_some_iff {c : Fin 16} :
    imageBound image = some c ↔ bit (imageWord image 3) 20 = true ∧ c.val = bits (imageWord image 3) 19 16 := by
  unfold imageBound
  split
  next h => rw [chanOf_eq_some_iff, eq_comm]; simp [h]
  next h => simp [h]

theorem imageBound_isSome_iff : (imageBound image).isSome = true ↔ bit (imageWord image 3) 20 = true := by
  unfold imageBound
  split
  next h =>
    rw [chanOf_eq_some (c := ⟨bits (imageWord image 3) 19 16, bits_lt _ 19 16⟩) rfl]
    simp [h]
  next h => simp [h]

theorem imageAnchor_isSome_iff : (imageAnchor image).isSome = true ↔ bit (imageWord image 3) 29 = true := by
  unfold imageAnchor
  split_ifs with h <;> simp [h]

theorem imageVerify_isSome_iff : (imageVerify image).isSome = true ↔ bit (imageWord image 3) 30 = true := by
  unfold imageVerify
  split_ifs with h <;> simp [h]

/-- The state before absence that an image may name, by its code (R115). -/
def BeforeCode (c : Nat) : Prop := c = 1 ∨ c = 2 ∨ c = 3 ∨ c = 5

theorem imageBefore_of_code (h : BeforeCode (bits (imageWord image 1) 6 4)) :
    ∃ b, imageBefore image = some b ∧ b.code = bits (imageWord image 1) 6 4 := by
  unfold imageBefore
  rcases h with h | h | h | h <;> rw [h] <;> exact ⟨_, rfl, rfl⟩

theorem imageBefore_eq_none (h : ¬BeforeCode (bits (imageWord image 1) 6 4)) : imageBefore image = none := by
  unfold imageBefore
  have hlt : bits (imageWord image 1) 6 4 < 8 := bits_lt _ 6 4
  unfold BeforeCode at h
  generalize bits (imageWord image 1) 6 4 = c at h hlt ⊢
  interval_cases c <;> simp_all [devStateOfCode]

/-! ## The first checks -/

theorem State.validateImage_error
    (h : imageWord image 0 ≠ packageTag ∨ bits (imageWord image 1) 2 0 = 4 ∨ bits (imageWord image 1) 2 0 = 7) :
    s.validateImage i image = .error .packageInvalid := by
  unfold State.validateImage
  split_ifs with htag
  · rfl
  · rcases h with h | h | h
    · exact absurd h htag
    · rw [h]; rfl
    · rw [h]; rfl

/-- The image of an occupied slot, its tag and its state in order, goes on to the checks of its fields. -/
theorem State.validateImage_occupied (htag : imageWord image 0 = packageTag) (h0 : bits (imageWord image 1) 2 0 ≠ 0)
    (h4 : bits (imageWord image 1) 2 0 ≠ 4) (h7 : bits (imageWord image 1) 2 0 ≠ 7) :
    ∃ st, st.code = bits (imageWord image 1) 2 0 ∧ s.validateImage i image = s.imageCheck i image st := by
  have hlt : bits (imageWord image 1) 2 0 < 8 := bits_lt _ 2 0
  obtain ⟨st, hst, hcode⟩ := devStateOfCode_of_lt (c := bits (imageWord image 1) 2 0) (by omega)
  refine ⟨st, hcode, ?_⟩
  unfold State.validateImage
  rw [if_neg (fun hne => hne htag), hst]
  cases st
  case empty => exact absurd hcode.symm h0
  case jamming => exact absurd hcode.symm h4
  all_goals rfl

section
variable {st : DevState}

theorem State.imageCheck_before (hst : st = .absent) (h : imageBefore image = none) :
    s.imageCheck i image st = .error .packageInvalid := by
  rw [State.imageCheck]
  exact if_pos ⟨hst, h⟩

theorem State.imageCheck_address (h : bits (imageWord image 1) 13 8 = 0) :
    s.imageCheck i image st = .error .packageInvalid := by
  rw [State.imageCheck]
  dsimp only
  rw [if_pos h, ite_self]

variable (hbefore : ¬(st = .absent ∧ imageBefore image = none)) (haddr : bits (imageWord image 1) 13 8 ≠ 0)
include hbefore haddr

theorem State.imageCheck_taken (h : s.addressTaken i (bits (imageWord image 1) 13 8) = true) :
    s.imageCheck i image st = .error .refusedDuplicate := by
  rw [State.imageCheck]
  dsimp only
  rw [if_neg hbefore, if_neg haddr, if_pos h]

variable (hfree : s.addressTaken i (bits (imageWord image 1) 13 8) = false)
include hfree

theorem State.imageCheck_code
    (h : fmtOfCode (bits (imageWord image 1) 27 24) = none ∨ recoveryOfCode (bits (imageWord image 1) 19 18) = none) :
    s.imageCheck i image st = .error .packageInvalid := by
  rw [State.imageCheck]
  dsimp only
  rw [if_neg hbefore, if_neg haddr, if_neg (by simp [hfree])]
  split
  next hf hr => simp [hf, hr] at h
  next => rfl

/-- The checks on the record of an image with legal codes, in the order of R115's table. -/
def State.fieldsPass (s : State) (d : Device) : Bool :=
  d.rate.legal && decide (1 ≤ d.window) && decide (d.window ≤ 1000000)
    && !(d.cls == .suite && d.recovery == .jam) && s.bindable d.boundTo && d.anchorFits
    && (d.boundTo.isSome || d.verify.isNone || d.anchor.isSome) && s.offsetFits d
    && decide (-100000 ≤ d.drift) && decide (d.drift ≤ 100000)

theorem State.imageCheck_fields {f : Fmt} {r : Recovery} (hf : fmtOfCode (bits (imageWord image 1) 27 24) = some f)
    (hr : recoveryOfCode (bits (imageWord image 1) 19 18) = some r) :
    s.imageCheck i image st =
      if s.fieldsPass (imageRecord image st f r) then .ok (imageRecord image st f r) else .error .packageInvalid := by
  rw [State.imageCheck]
  dsimp only
  rw [if_neg hbefore, if_neg haddr, if_neg (by simp [hfree]), hf, hr]
  rfl

end

/-! ## The checks of the fields -/

theorem State.bindable_iff {b : Option (Fin 16)} :
    s.bindable b = true ↔ ¬∃ c, b = some c ∧ (s.chan c).kind ≠ .picture := by
  cases b <;> simp [State.bindable]

theorem State.offsetFits_iff {d : Device} :
    s.offsetFits d = true ↔
      ¬∃ c o, d.boundTo = some c ∧ d.offset = some o ∧
        (o < 1 - ((s.chan c).cfg.fmt.fday : Int) / 2 ∨ ((s.chan c).cfg.fmt.fday : Int) / 2 < o ∨ (s.chan c).cur = none) := by
  unfold State.offsetFits
  split
  next c o hc ho =>
    simp only [hc, ho, Option.some.injEq, Bool.and_eq_true, decide_eq_true_eq, Option.isSome_iff_ne_none]
    constructor
    · rintro ⟨⟨hlow, hhigh⟩, hcur⟩ ⟨_, _, rfl, rfl, h | h | h⟩
      · omega
      · omega
      · exact hcur h
    · intro h
      refine ⟨⟨?_, ?_⟩, fun hcur => h ⟨c, o, rfl, rfl, .inr (.inr hcur)⟩⟩
      · by_contra hlow
        exact h ⟨c, o, rfl, rfl, .inl (by omega)⟩
      · by_contra hhigh
        exact h ⟨c, o, rfl, rfl, .inr (.inl (by omega))⟩
  next hno =>
    refine iff_of_true rfl ?_
    rintro ⟨c, o, hc, ho, -⟩
    exact hno c o hc ho

section
variable (image)

/-- A rate, label format, window, recovery or class of the image is not allowed. -/
def ImageIllegal : Prop :=
  Rate.legal ⟨bits (imageWord image 2) 23 0, bits (imageWord image 3) 15 0⟩ = false ∨
    fmtOfCode (bits (imageWord image 1) 27 24) = none ∨ bits (imageWord image 5) 19 0 = 0 ∨
    1000000 < bits (imageWord image 5) 19 0 ∨ bits (imageWord image 1) 19 18 = 3 ∨
    (bits (imageWord image 1) 17 16 = 3 ∧ bits (imageWord image 1) 19 18 = 1)

/-- The image is bound to a channel that is no PICTURE channel. -/
def State.ImageUnbindable (s : State) : Prop :=
  bit (imageWord image 3) 20 = true ∧ ∃ c : Fin 16, c.val = bits (imageWord image 3) 19 16 ∧ (s.chan c).kind ≠ .picture

/-- The image has no anchor where its state asks for one, or one in ENROLLED. -/
def ImageUnanchored : Prop :=
  ((bits (imageWord image 1) 2 0 = 2 ∨ bits (imageWord image 1) 2 0 = 3 ∨
      (bits (imageWord image 1) 2 0 = 6 ∧ (bits (imageWord image 1) 6 4 = 2 ∨ bits (imageWord image 1) 6 4 = 3))) ∧
    ¬bit (imageWord image 3) 29 = true) ∨ (bits (imageWord image 1) 2 0 = 1 ∧ bit (imageWord image 3) 29 = true)

/-- The image is unbound and has a verify point without an anchor. -/
def ImageLoose : Prop :=
  ¬bit (imageWord image 3) 20 = true ∧ bit (imageWord image 3) 30 = true ∧ ¬bit (imageWord image 3) 29 = true

/-- The image is bound and anchored, and its label offset is out of range or its channel holds no current segment. -/
def State.ImageUnplaced (s : State) : Prop :=
  bit (imageWord image 3) 20 = true ∧ bit (imageWord image 3) 29 = true ∧
    ∃ c : Fin 16, c.val = bits (imageWord image 3) 19 16 ∧
      ((imageWord image 7).toInt < 1 - ((s.chan c).cfg.fmt.fday : Int) / 2 ∨
        ((s.chan c).cfg.fmt.fday : Int) / 2 < (imageWord image 7).toInt ∨ (s.chan c).cur = none)

/-- The image is unbound and its drift is out of range. -/
def ImageDrifted : Prop :=
  ¬bit (imageWord image 3) 20 = true ∧ ((imageWord image 6).toInt < -100000 ∨ 100000 < (imageWord image 6).toInt)

/-- A check of R115 on the fields fails. -/
def State.ImageBad (s : State) : Prop :=
  ImageIllegal image ∨ s.ImageUnbindable image ∨ ImageUnanchored image ∨ ImageLoose image ∨ s.ImageUnplaced image ∨
    ImageDrifted image

end

variable {st : DevState} {f : Fmt} {r : Recovery}

theorem imageLegal_iff (hf : fmtOfCode (bits (imageWord image 1) 27 24) = some f)
    (hr : recoveryOfCode (bits (imageWord image 1) 19 18) = some r) :
    ((imageRecord image st f r).rate.legal = true ∧ 1 ≤ (imageRecord image st f r).window ∧
        (imageRecord image st f r).window ≤ 1000000 ∧
        ¬((imageRecord image st f r).cls = .suite ∧ (imageRecord image st f r).recovery = .jam)) ↔
      ¬ImageIllegal image := by
  have hcls := classOfCode_eq_suite_iff (c := bits (imageWord image 1) 17 16) (bits_lt _ 17 16)
  have hrec := recoveryOfCode_eq_jam_iff hr
  have hr3 : bits (imageWord image 1) 19 18 ≠ 3 := fun h3 => by
    rw [h3] at hr
    cases hr
  have hfmt : fmtOfCode (bits (imageWord image 1) 27 24) ≠ none := by simp [hf]
  unfold ImageIllegal
  simp only [imageRecord, hcls, hrec, ← Bool.not_eq_true]
  constructor
  · rintro ⟨hrate, hw, hw', hc⟩ (h | h | h | h | h | h)
    · exact h hrate
    · exact hfmt h
    · omega
    · omega
    · exact hr3 h
    · exact hc h
  · intro h
    simp only [not_or, not_not] at h
    obtain ⟨hrate, -, hw, hw', -, hc⟩ := h
    exact ⟨hrate, by omega, by omega, hc⟩

theorem imageBindable_iff :
    s.bindable (imageRecord image st f r).boundTo = true ↔ ¬s.ImageUnbindable image := by
  rw [State.bindable_iff]
  refine not_congr ⟨?_, ?_⟩
  · rintro ⟨c, hc, hkind⟩
    obtain ⟨hbit, hval⟩ := imageBound_eq_some_iff.mp hc
    exact ⟨hbit, c, hval, hkind⟩
  · rintro ⟨hbit, c, hval, hkind⟩
    exact ⟨c, imageBound_eq_some_iff.mpr ⟨hbit, hval⟩, hkind⟩

theorem imageLoose_iff :
    ((imageRecord image st f r).boundTo.isSome || (imageRecord image st f r).verify.isNone ||
      (imageRecord image st f r).anchor.isSome) = true ↔ ¬ImageLoose image := by
  have hbound := imageBound_isSome_iff (image := image)
  have hanchor := imageAnchor_isSome_iff (image := image)
  have hverify := imageVerify_isSome_iff (image := image)
  simp only [imageRecord, ImageLoose, ← hbound, ← hanchor, ← hverify]
  cases imageBound image <;> cases imageVerify image <;> cases imageAnchor image <;> simp

theorem imagePlaced_iff : s.offsetFits (imageRecord image st f r) = true ↔ ¬s.ImageUnplaced image := by
  have hbound := imageBound_isSome_iff (image := image)
  have hanchor := imageAnchor_isSome_iff (image := image)
  have hoffset (o : Int) : (imageRecord image st f r).offset = some o ↔
      (bit (imageWord image 3) 20 = true ∧ bit (imageWord image 3) 29 = true) ∧ (imageWord image 7).toInt = o := by
    simp only [imageRecord, ← hbound, ← hanchor]
    cases imageBound image <;> cases imageAnchor image <;> simp
  rw [State.offsetFits_iff]
  refine not_congr ⟨?_, ?_⟩
  · rintro ⟨c, o, hc, ho, hbad⟩
    obtain ⟨⟨hb, ha⟩, rfl⟩ := (hoffset o).mp ho
    exact ⟨hb, ha, c, (imageBound_eq_some_iff.mp hc).2, hbad⟩
  · rintro ⟨hb, ha, c, hval, hbad⟩
    exact ⟨c, _, imageBound_eq_some_iff.mpr ⟨hb, hval⟩, (hoffset _).mpr ⟨⟨hb, ha⟩, rfl⟩, hbad⟩

theorem imageDrifted_iff :
    (-100000 ≤ (imageRecord image st f r).drift ∧ (imageRecord image st f r).drift ≤ 100000) ↔ ¬ImageDrifted image := by
  have hbound := imageBound_isSome_iff (image := image)
  simp only [imageRecord, ImageDrifted, ← hbound]
  cases imageBound image with
  | none =>
    simp only [Option.isSome_none, Bool.false_eq_true, if_false, not_false_eq_true, true_and]
    omega
  | some c => simp

/-- The record's anchor fits its state unless the state asks for one and there is none, or it is ENROLLED with one. -/
theorem Device.anchorFits_iff (d : Device) :
    d.anchorFits = true ↔
      ¬(((d.state = .settling ∨ d.state = .locked ∨
            (d.state = .absent ∧ (d.before = some .settling ∨ d.before = some .locked))) ∧ ¬d.anchor.isSome = true) ∨
        (d.state = .enrolled ∧ d.anchor.isSome = true)) := by
  unfold Device.anchorFits
  split
  case h_4 hs =>
    split
    next hb => simp [hs, hb, Option.isSome_iff_ne_none]
    next hb => simp [hs, hb, Option.isSome_iff_ne_none]
    next hset hlock => simp [hs, show ¬d.before = some .settling from hset, show ¬d.before = some .locked from hlock]
  all_goals simp [*, Option.isSome_iff_ne_none]

theorem DevState.code_inj {a b : DevState} : a.code = b.code ↔ a = b := by
  constructor
  · intro h
    have := congrArg devStateOfCode h
    rwa [devStateOfCode_code, devStateOfCode_code, Option.some.injEq] at this
  · exact congrArg DevState.code

theorem imageAnchored_iff (hcode : st.code = bits (imageWord image 1) 2 0)
    (hbefore : ¬(st = .absent ∧ imageBefore image = none)) :
    (imageRecord image st f r).anchorFits = true ↔ ¬ImageUnanchored image := by
  have hremembered (b : DevState) : st = .absent →
      ((imageRecord image st f r).before = some b ↔ bits (imageWord image 1) 6 4 = b.code) := by
    rintro rfl
    have hcodes : BeforeCode (bits (imageWord image 1) 6 4) := by
      by_contra hno
      exact hbefore ⟨rfl, imageBefore_eq_none hno⟩
    obtain ⟨b', hb', hc⟩ := imageBefore_of_code hcodes
    simp only [imageRecord, if_true, hb', Option.some.injEq, ← hc, DevState.code_inj]
  have hstate (x : DevState) : bits (imageWord image 1) 2 0 = x.code ↔ st = x := by rw [← hcode, DevState.code_inj]
  have habsent : (st = .absent ∧ ((imageRecord image st f r).before = some .settling ∨
        (imageRecord image st f r).before = some .locked)) ↔
      (st = .absent ∧ (bits (imageWord image 1) 6 4 = 2 ∨ bits (imageWord image 1) 6 4 = 3)) :=
    and_congr_right fun h => or_congr (hremembered .settling h) (hremembered .locked h)
  have h1 := hstate .enrolled
  have h2 := hstate .settling
  have h3 := hstate .locked
  have h6 := hstate .absent
  simp only [DevState.code] at h1 h2 h3 h6
  rw [Device.anchorFits_iff, ImageUnanchored, h1, h2, h3, h6, ← habsent, ← imageAnchor_isSome_iff]
  rfl

/-! ## The checks together -/

theorem State.fieldsPass_iff (hcode : st.code = bits (imageWord image 1) 2 0)
    (hbefore : ¬(st = .absent ∧ imageBefore image = none)) (hf : fmtOfCode (bits (imageWord image 1) 27 24) = some f)
    (hr : recoveryOfCode (bits (imageWord image 1) 19 18) = some r) :
    s.fieldsPass (imageRecord image st f r) = true ↔ ¬s.ImageBad image := by
  have hclass (d : Device) : (!(d.cls == .suite && d.recovery == .jam)) = true ↔ ¬(d.cls = .suite ∧ d.recovery = .jam) := by
    simp [imp_iff_not_or]
  unfold State.fieldsPass State.ImageBad
  rw [Bool.and_eq_true, Bool.and_eq_true, Bool.and_eq_true, Bool.and_eq_true, Bool.and_eq_true, Bool.and_eq_true,
    Bool.and_eq_true, Bool.and_eq_true, Bool.and_eq_true, decide_eq_true_iff, decide_eq_true_iff, decide_eq_true_iff,
    decide_eq_true_iff, hclass, imageBindable_iff, imageAnchored_iff hcode hbefore, imageLoose_iff, imagePlaced_iff]
  have hlegal := imageLegal_iff (st := st) hf hr
  have hdrift := imageDrifted_iff (image := image) (st := st) (f := f) (r := r)
  tauto

section
variable (hcode : st.code = bits (imageWord image 1) 2 0) (hbefore : ¬(st = .absent ∧ imageBefore image = none))
  (haddr : bits (imageWord image 1) 13 8 ≠ 0) (hfree : s.addressTaken i (bits (imageWord image 1) 13 8) = false)
include hcode hbefore haddr hfree

theorem State.imageCheck_bad (h : s.ImageBad image) : s.imageCheck i image st = .error .packageInvalid := by
  cases hf : fmtOfCode (bits (imageWord image 1) 27 24) with
  | none => exact State.imageCheck_code hbefore haddr hfree (.inl hf)
  | some f =>
    cases hr : recoveryOfCode (bits (imageWord image 1) 19 18) with
    | none => exact State.imageCheck_code hbefore haddr hfree (.inr hr)
    | some r =>
      rw [State.imageCheck_fields hbefore haddr hfree hf hr, if_neg]
      exact fun hpass => (State.fieldsPass_iff hcode hbefore hf hr).mp hpass h

theorem State.imageCheck_good (h : ¬s.ImageBad image) :
    ∃ f r, fmtOfCode (bits (imageWord image 1) 27 24) = some f ∧ recoveryOfCode (bits (imageWord image 1) 19 18) = some r ∧
      s.imageCheck i image st = .ok (imageRecord image st f r) := by
  have hlegal : ¬ImageIllegal image := fun hi => h (.inl hi)
  have hlt : bits (imageWord image 1) 19 18 < 4 := bits_lt _ 19 18
  obtain ⟨f, hf⟩ := Option.ne_none_iff_exists'.mp fun hf => hlegal (.inr (.inl hf))
  obtain ⟨r, hr⟩ := Option.ne_none_iff_exists'.mp fun hr =>
    hlegal (.inr (.inr (.inr (.inr (.inl ((recoveryOfCode_eq_none_iff hlt).mp hr))))))
  refine ⟨f, r, hf, hr, ?_⟩
  rw [State.imageCheck_fields hbefore haddr hfree hf hr, if_pos ((State.fieldsPass_iff hcode hbefore hf hr).mpr h)]

end

/-! ## The record that a good image describes (R116) -/

theorem imageRecord_bound : (imageRecord image st f r).boundTo.map Fin.val =
    if bit (imageWord image 3) 20 = true then some (bits (imageWord image 3) 19 16) else none := by
  show (imageBound image).map Fin.val = _
  split_ifs with h
  · rw [(imageBound_eq_some_iff (c := ⟨bits (imageWord image 3) 19 16, bits_lt _ 19 16⟩)).mpr ⟨h, rfl⟩]
    rfl
  · rw [← imageBound_isSome_iff, Option.not_isSome_iff_eq_none] at h
    rw [h]
    rfl

theorem imageRecord_source : (imageRecord image st f r).jamSource.map Fin.val =
    if bit (imageWord image 3) 28 = true then some (bits (imageWord image 3) 27 24) else none := by
  show (if bit (imageWord image 3) 28 = true then chanOf (bits (imageWord image 3) 27 24) else none).map Fin.val = _
  split_ifs with h
  · rw [chanOf_eq_some (c := ⟨bits (imageWord image 3) 27 24, bits_lt _ 27 24⟩) rfl]
    rfl
  · rfl

theorem imageRecord_before (hcode : st.code = bits (imageWord image 1) 2 0)
    (hbefore : ¬(st = .absent ∧ imageBefore image = none)) :
    (imageRecord image st f r).before.map DevState.code =
      if bits (imageWord image 1) 2 0 = 6 then some (bits (imageWord image 1) 6 4) else none := by
  rw [← hcode]
  show (if st = .absent then imageBefore image else none).map DevState.code = _
  have h6 : st.code = 6 ↔ st = .absent := DevState.code_inj (b := .absent)
  by_cases hst : st = .absent
  · have hcodes : BeforeCode (bits (imageWord image 1) 6 4) := by
      by_contra hno
      exact hbefore ⟨hst, imageBefore_eq_none hno⟩
    obtain ⟨b, hb, hc⟩ := imageBefore_of_code hcodes
    rw [if_pos hst, hb, if_pos (h6.mpr hst), Option.map_some, hc]
  · rw [if_neg hst, if_neg (fun h => hst (h6.mp h))]
    rfl

theorem imageRecord_verify : (imageRecord image st f r).verify =
    if ¬bit (imageWord image 3) 20 = true ∧ bit (imageWord image 3) 30 = true then
      some ⟨(imageWord image 11).toNat, wide (imageWord image 12) (imageWord image 13)⟩ else none := by
  simp only [← imageBound_isSome_iff]
  show (if (imageBound image).isSome then none else imageVerify image) = _
  unfold imageVerify
  split_ifs <;> simp_all

theorem imageRecord_drift : (imageRecord image st f r).drift =
    if bit (imageWord image 3) 20 = true then 0 else (imageWord image 6).toInt := by
  simp only [← imageBound_isSome_iff]
  rfl

theorem imageRecord_offset : (imageRecord image st f r).offset =
    if bit (imageWord image 3) 20 = true ∧ bit (imageWord image 3) 29 = true then some (imageWord image 7).toInt else none := by
  simp only [← imageBound_isSome_iff, ← imageAnchor_isSome_iff, ← Bool.and_eq_true]
  rfl

theorem imageRecord_marks : (imageRecord image st f r).marksLogged.toNat = bits (imageWord image 4) 31 16 := by
  show (BitVec.ofNat 16 (bits (imageWord image 4) 31 16)).toNat = _
  rw [BitVec.toNat_ofNat, Nat.mod_eq_of_lt (bits_lt _ 31 16)]

/-! ## O46 -/

/-- A roster order in hand, no exchange running on, does what its row does to the state without it in hand. -/
theorem rosterOrder_handed {t : State} {o : Order} {k : OrderKind} {take : Order → State → State} (h : s.SameButStep t)
    (hstep : t.oe.step = .taken o) (hexch : t.exch = none) (hk : o.kind = k) (hroster : k.ofRoster = true)
    (htake : rosterOrder o t = take o t) : t.handRosterOrder k take = rosterOrder o s := by
  rw [t.handRosterOrder_taken k take o hstep hk hexch, ← htake, rosterOrder_sameButStep h (hk ▸ hroster)]

/-- Settles O46: the read by the slot's state and the image's checks, the write and the end of an exchange, each by its
own lemma; the checks of R115 one after the other, and the fields of a good image. -/
theorem exchangeEvents : Obligations.ExchangeEvents := by
  refine ⟨fun s e got he hphase hin => ?_, fun s e a image he hphase hin hwf => ?_, fun s e code => ?_,
    fun s i image => ?_, by decide, fun s => ⟨rfl, rfl, fun c => ⟨rfl, rfl⟩⟩, fun s o hexch => ?_⟩
  · rw [exec_exchangeReadDone he hphase hin]
    refine ⟨fun h => ?_, fun code h hv => ?_, fun d h hv => ?_⟩
    · rw [State.exchangeRead_busy h]
    · rw [State.exchangeRead_refused h hv]
    · rw [State.exchangeRead_swaps h hv]
      rfl
  · exact ⟨_, exec_exchangeWriteDone he hphase hin, fun k hk => Memory.readWord_wordsAt image s.mem a k hwf hk,
      fun x hx => Memory.read_wordsAt_outside s.mem image hx⟩
  · exact ⟨fun h => State.endExchange_kept h code, fun h hheld => State.endExchange_alone h hheld code,
      fun o h hheld => State.endExchange_hands h hheld code⟩
  · intro tagged st before addr plain
    have occupied (h : plain) : ∃ state : DevState, state.code = st ∧ ¬(state = .absent ∧ imageBefore image = none) ∧
        s.validateImage i image = s.imageCheck i image state := by
      obtain ⟨htag, h0, h4, h7, h6⟩ := h
      obtain ⟨state, hcode, heq⟩ := State.validateImage_occupied (s := s) (i := i) htag h0 h4 h7
      refine ⟨state, hcode, ?_, heq⟩
      rintro ⟨rfl, hno⟩
      obtain ⟨b, hb, -⟩ := imageBefore_of_code (h6 hcode.symm)
      rw [hb] at hno
      cases hno
    refine ⟨State.validateImage_error, fun htag h0 => State.validateImage_empty htag h0, fun htag h6 hno => ?_,
      fun h h0 => ?_, fun j h h0 hj hocc haddr => ?_, fun h h0 hfree => ⟨fun hbad => ?_, fun hgood => ?_⟩⟩
    · have hst : bits (imageWord image 1) 2 0 = 6 := h6
      obtain ⟨state, hcode, heq⟩ :=
        State.validateImage_occupied (s := s) (i := i) htag (by omega) (by omega) (by omega)
      rw [heq]
      exact State.imageCheck_before ((DevState.code_inj (b := .absent)).mp (hcode.trans h6)) (imageBefore_eq_none hno)
    · obtain ⟨state, -, -, heq⟩ := occupied h
      rw [heq]
      exact State.imageCheck_address h0
    · obtain ⟨state, -, hbefore, heq⟩ := occupied h
      rw [heq]
      exact State.imageCheck_taken hbefore h0 (State.addressTaken_iff.mpr ⟨j, hj, hocc, haddr⟩)
    · obtain ⟨state, hcode, hbefore, heq⟩ := occupied h
      rw [heq]
      exact State.imageCheck_bad hcode hbefore h0 (State.addressTaken_eq_false hfree) hbad
    · obtain ⟨state, hcode, hbefore, heq⟩ := occupied h
      obtain ⟨f, r, hf, hr, hok⟩ :=
        State.imageCheck_good hcode hbefore h0 (State.addressTaken_eq_false hfree) hgood
      exact ⟨imageRecord image state f r, heq.trans hok,
        ⟨hcode, rfl, classOfCode_some_code (bits_lt _ 17 16), rfl, fmtOfCode_some_code (bits_lt _ 27 24) hf, rfl, rfl,
          recoveryOfCode_some_code hr, rfl, rfl, rfl, imageRecord_marks⟩, ⟨rfl, rfl, rfl, rfl, rfl, rfl⟩,
        imageRecord_before hcode hbefore, imageRecord_bound, imageRecord_source, rfl, imageRecord_verify,
        imageRecord_drift, imageRecord_offset⟩
  · have ht : s.SameButStep { s with oe := { s.oe with step := .taken o } } := ⟨_, rfl⟩
    refine ⟨fun hk => ?_, fun hk => ?_, fun hk => ?_, fun hk => ?_, fun hk => ?_, fun hk => ?_⟩
    · exact congrArg Host.Outcome.next (rosterOrder_handed ht rfl hexch hk rfl (by simp only [rosterOrder, hk]))
    · exact congrArg Host.Outcome.next (rosterOrder_handed ht rfl hexch hk rfl (by simp only [rosterOrder, hk]))
    · exact congrArg Host.Outcome.next (rosterOrder_handed ht rfl hexch hk rfl (by simp only [rosterOrder, hk]))
    · exact congrArg Host.Outcome.next (rosterOrder_handed ht rfl hexch hk rfl (by simp only [rosterOrder, hk]))
    · exact congrArg Host.Outcome.next (rosterOrder_handed ht rfl hexch hk rfl (by simp only [rosterOrder, hk]))
    · exact congrArg Host.Outcome.next (rosterOrder_handed ht rfl hexch hk rfl (by simp only [rosterOrder, hk]))

end Sys2Proof.Machine
end

section
/-! The page writer's choice, and its orders GIVE PAGES and FLUSH LOG (R158, R159, R161, R164 to R166). -/

namespace Sys2Proof.Machine

variable {s : State} {b : Bool}

/-! ## The choice from its second row on (R158) -/

theorem State.chooseWork_idle (h : s.lu.queue = []) : s.chooseWork b = s.setActivity .idle := by
  rw [State.chooseWork, h]

section
variable {r : TakeRecord} {rest : List TakeRecord} (hq : s.lu.queue = r :: rest)
include hq

theorem State.chooseWork_writes {p : OpenPage} (hp : s.pw.page = some p) (hfits : p.used + r.length ≤ 252) :
    s.chooseWork b = s.setActivity (.writing 0) := by
  simp only [State.chooseWork, hq, hp, OpenPage.fits, decide_eq_true hfits, if_true]

theorem State.chooseWork_closes {p : OpenPage} (hp : s.pw.page = some p) (hfull : 252 < p.used + r.length) :
    s.chooseWork b = s.setActivity (.closing .full false) := by
  simp only [State.chooseWork, hq, hp, OpenPage.fits, decide_eq_false hfull.not_ge, Bool.false_eq_true, if_false]

theorem State.chooseWork_claims {a : Nat} {stock : List Nat} (hp : s.pw.page = none) (hs : s.pw.stock = a :: stock) :
    s.chooseWork b = s.beginClaim a stock := by
  simp only [State.chooseWork, hq, hp, hs]

theorem State.chooseWork_starves (hp : s.pw.page = none) (hs : s.pw.stock = []) : s.chooseWork b = s.enterStarved b := by
  simp only [State.chooseWork, hq, hp, hs]

end

theorem State.flushLeft_none (h : s.pw.flush = none) : s.flushLeft = none := by
  rw [State.flushLeft, h, Option.map_none]

theorem State.flushLeft_some {f : FlushSet} (h : s.pw.flush = some f) :
    s.flushLeft = some (unwrittenUpTo f.tail s.lu.queue) := by
  rw [State.flushLeft, h, Option.map_some]

theorem State.choose_noFlush (h : s.pw.flush = none) : s.choose b = s.chooseWork b :=
  State.choose_work (by rw [State.flushLeft_none h]; exact nofun)

theorem State.noRecords_iff :
    (s.pw.page.map OpenPage.records).getD 0 = 0 ↔ ∀ p : OpenPage, s.pw.page = some p → p.records = 0 := by
  cases s.pw.page <;> simp

/-! ## What the choice leaves -/

/-- The page writer's page and its counters are as they were. -/
def State.SamePage (s t : State) : Prop :=
  t.pw.page = s.pw.page ∧ t.pw.pageSeq = s.pw.pageSeq ∧ t.pw.refused = s.pw.refused

theorem State.starved_samePage (s : State) (b : Bool) : s.SamePage (s.starved b) := by
  cases b <;> exact ⟨rfl, rfl, rfl⟩

theorem State.enterStarved_samePage (s : State) (b : Bool) : s.SamePage (s.enterStarved b) := by
  match hl : s.flushLeft with
  | none | some 0 =>
    rw [State.enterStarved_done (by simp [hl])]
    exact s.starved_samePage b
  | some (n + 1) =>
    rw [State.enterStarved_waiting hl]
    exact s.starved_samePage b

theorem State.chooseWork_samePage (s : State) (b : Bool) : s.SamePage (s.chooseWork b) := by
  rcases s.chooseWork_cases b with ⟨-, h⟩ | ⟨r, rest, p, -, -, h⟩ | ⟨r, rest, a, stock, -, -, -, h⟩ | ⟨r, rest, -, -, -, h⟩
  · rw [h]; exact ⟨rfl, rfl, rfl⟩
  · rw [h]; exact ⟨rfl, rfl, rfl⟩
  · rw [h, State.beginClaim]
    dsimp only
    split_ifs <;> exact ⟨rfl, rfl, rfl⟩
  · rw [h]; exact s.enterStarved_samePage b

theorem State.choose_samePage (s : State) (b : Bool) : s.SamePage (s.choose b) := by
  rcases s.choose_cases b with ⟨-, -, h⟩ | ⟨-, -, h⟩ | ⟨-, h⟩
  · rw [h]; exact (s.endFlush .done 0).chooseWork_samePage b
  · rw [h]; exact ⟨rfl, rfl, rfl⟩
  · rw [h]; exact s.chooseWork_samePage b

/-! ## The choice while a FLUSH LOG waits (R165, R166) -/

/-- The state with the flush set forgotten. -/
def State.unflushed (s : State) : State := { s with pw := { s.pw with flush := none } }

theorem State.unflushed_choose (s : State) (b : Bool) : s.unflushed.choose b = s.unflushed.chooseWork b :=
  State.choose_noFlush rfl

/-- With a page open, or one to claim, the choice's row is the same whether a FLUSH LOG waits or not. -/
theorem State.chooseWork_unflushed (h : s.pw.page.isSome = true ∨ s.pw.stock ≠ []) :
    s.chooseWork b =
      { s.unflushed.chooseWork b with pw := { (s.unflushed.chooseWork b).pw with flush := s.pw.flush } } := by
  cases hq : s.lu.queue with
  | nil =>
    rw [State.chooseWork_idle hq, State.chooseWork_idle (s := s.unflushed) hq]
    rfl
  | cons r rest =>
    cases hp : s.pw.page with
    | some p =>
      rcases Nat.lt_or_ge 252 (p.used + r.length) with hfull | hfits
      · rw [State.chooseWork_closes hq hp hfull, State.chooseWork_closes (s := s.unflushed) hq hp hfull]
        rfl
      · rw [State.chooseWork_writes hq hp hfits, State.chooseWork_writes (s := s.unflushed) hq hp hfits]
        rfl
    | none =>
      cases hs : s.pw.stock with
      | cons a stock =>
        rw [State.chooseWork_claims hq hp hs, State.chooseWork_claims (s := s.unflushed) hq hp hs]
        unfold State.beginClaim
        dsimp only
        split_ifs <;> rfl
      | nil => simp [hp, hs] at h

theorem unwrittenUpTo_nil (tail : Option Word) : unwrittenUpTo tail [] = 0 := by
  cases tail <;> rfl

theorem State.chooseWork_flushStarved {n : Nat} (hl : s.flushLeft = some (n + 1)) (hp : s.pw.page = none)
    (hs : s.pw.stock = []) : s.chooseWork b = (s.unflushed.chooseWork b).report .done (n + 1) := by
  cases hq : s.lu.queue with
  | nil =>
    obtain ⟨f, -, hf⟩ := Option.map_eq_some_iff.mp hl
    rw [hq, unwrittenUpTo_nil] at hf
    cases hf
  | cons r rest =>
    rw [State.chooseWork_starves hq hp hs, State.chooseWork_starves (s := s.unflushed) hq hp hs,
      State.enterStarved_waiting hl, State.enterStarved_done (s := s.unflushed) (.inl (State.flushLeft_none rfl))]
    cases b <;> rfl

/-- Settles O54: the choice with no FLUSH LOG waiting row by row, what a waiting one adds, and what it leaves. -/
theorem pageWriterChoice : Obligations.PageWriterChoice := by
  refine ⟨fun s b hf => ?_, fun s b f hf => ?_, fun s b => ?_⟩
  · rw [State.choose_noFlush hf]
    refine ⟨State.chooseWork_idle, fun r rest hq => ⟨fun p hp => ⟨State.chooseWork_writes hq hp,
      State.chooseWork_closes hq hp⟩, fun a stock hp hs => ?_, fun hp hs => ?_⟩⟩
    · rw [State.chooseWork_claims hq hp hs]
      exact ⟨fun h => if_pos h, fun h => if_neg h.not_gt⟩
    · rw [State.chooseWork_starves hq hp hs, State.enterStarved_done (.inl (State.flushLeft_none hf))]
      refine ⟨fun h => ?_, fun h => ?_⟩ <;> rw [h] <;> rfl
  · have hl := State.flushLeft_some hf
    refine ⟨fun h0 => ⟨fun p hp hpos => ?_, fun hnone => ?_⟩, fun hpos => ⟨fun h => ?_, fun hp hs => ?_⟩⟩
    · refine State.choose_closes (hl.trans (congrArg some h0)) ?_
      rw [hp]
      exact hpos.ne'
    · rw [State.choose_flushed (hl.trans (congrArg some h0)) (State.noRecords_iff.mpr hnone)]
      exact (State.choose_noFlush rfl).symm
    · rw [State.choose_work (by rw [hl]; simpa using hpos.ne'), State.chooseWork_unflushed h, ← s.unflushed_choose, hf]
      rfl
    · obtain ⟨n, hn⟩ := Nat.exists_eq_succ_of_ne_zero hpos.ne'
      rw [State.choose_work (by rw [hl]; simpa using hpos.ne'), hn,
        State.chooseWork_flushStarved (hl.trans (congrArg some hn)) hp hs, ← s.unflushed_choose]
      rfl
  · obtain ⟨hpage, hseq, href⟩ := s.choose_samePage b
    exact ⟨by simp, by simp, by simp, by simp, by simp, hpage, hseq, href⟩

/-! ## GIVE PAGES (R159) -/

variable {o : Order}

theorem exec_givePages_taken (hstep : s.oe.step = .taken o) (hk : o.kind = .givePages) :
    exec .givePages s = .next (givePagesOrder o s) :=
  congrArg Host.Outcome.next (s.handOrder_taken _ _ o hstep hk)

theorem givePagesOrder_refused (h : (o.p 0).toNat = 0 ∨ 32 < (o.p 0).toNat) :
    givePagesOrder o s = s.report .refusedRange := if_pos h

section
variable (hcount : ¬((o.p 0).toNat = 0 ∨ 32 < (o.p 0).toNat))
include hcount

/-- The stock after a GIVE PAGES. -/
def State.stockGiven (s : State) (o : Order) : List Nat :=
  s.stockWith s.pw.stock (((o.params.drop 1).take (o.p 0).toNat).map BitVec.toNat)

theorem givePagesOrder_starved (h : s.pw.activity = .starved) (hgiven : s.pw.stock.length < (s.stockGiven o).length) :
    givePagesOrder o s =
      (State.report { s with pw := { s.pw with stock := s.stockGiven o } } .done
        ((s.stockGiven o).length - s.pw.stock.length)).choose false := by
  unfold givePagesOrder
  dsimp only
  rw [if_neg hcount]
  exact if_pos ⟨h, Nat.sub_pos_of_lt hgiven⟩

theorem givePagesOrder_given
    (h : ¬(s.pw.activity = .starved ∧ s.pw.stock.length < (s.stockGiven o).length)) :
    givePagesOrder o s =
      State.report { s with pw := { s.pw with stock := s.stockGiven o } } .done
        ((s.stockGiven o).length - s.pw.stock.length) := by
  unfold givePagesOrder
  dsimp only
  rw [if_neg hcount]
  exact if_neg fun hs => h ⟨hs.1, Nat.lt_of_sub_pos hs.2⟩

end

theorem State.pageInUse_iff {a : Nat} :
    s.pageInUse a = true ↔ (∃ p, s.pw.page = some p ∧ p.addr = a) ∨ ∃ cleared, s.pw.activity = .claiming a cleared := by
  unfold State.pageInUse
  rw [Bool.or_eq_true]
  refine or_congr ?_ ?_
  · cases s.pw.page <;> simp
  · cases s.pw.activity <;> simp

theorem State.pageAcceptable_iff {stock : List Nat} {a : Nat} :
    s.pageAcceptable stock a = true ↔
      ¬(a = 0 ∨ a % 1024 ≠ 0 ∨ s.windowSize < a + 1024 ∨ a ∈ stock ∨ (∃ p, s.pw.page = some p ∧ p.addr = a) ∨
        (∃ cleared, s.pw.activity = .claiming a cleared) ∨ 32 ≤ stock.length) := by
  have huse := State.pageInUse_iff (s := s) (a := a)
  simp only [State.pageAcceptable, Bool.and_eq_true, bne_iff_ne, beq_iff_eq, Bool.not_eq_true', ← Bool.not_eq_true, huse,
    List.contains_iff_mem, State.inWindow_iff, decide_eq_true_eq, not_or, not_not, not_lt, not_le]
  tauto

/-! ## FLUSH LOG (R164 to R166) -/

theorem unwrittenUpTo_absent {queue : List TakeRecord} {t : Word} (h : ∀ r ∈ queue, r.seq ≠ t) :
    unwrittenUpTo (some t) queue = 0 := by
  have : queue.findIdx? (fun r => r.seq == t) = none := by
    rw [List.findIdx?_eq_none_iff]
    exact fun r hr => beq_eq_false_iff_ne.mpr (h r hr)
  simp only [unwrittenUpTo, this]

/-- The queue's records being told apart by their sequence numbers, a tail counts the records up to it. -/
theorem unwrittenUpTo_getElem {queue : List TakeRecord} {n : Nat} {r : TakeRecord}
    (hdup : (queue.map TakeRecord.seq).Nodup) (h : queue[n]? = some r) : unwrittenUpTo (some r.seq) queue = n + 1 := by
  obtain ⟨hn, hr⟩ := List.getElem?_eq_some_iff.mp h
  have hfind : queue.findIdx? (fun x => x.seq == r.seq) = some n := by
    rw [List.findIdx?_eq_some_iff_getElem]
    refine ⟨hn, by rw [hr, beq_self_eq_true], fun j hj heq => ?_⟩
    have hsame : (queue.map TakeRecord.seq)[j]'(by simp; omega) = (queue.map TakeRecord.seq)[n]'(by simp; omega) := by
      rw [List.getElem_map, List.getElem_map, hr]
      exact beq_iff_eq.mp heq
    have := (List.Nodup.getElem_inj_iff hdup).mp hsame
    omega
  simp only [unwrittenUpTo, hfind]

theorem unwrittenUpTo_last {queue : List TakeRecord} (hdup : (queue.map TakeRecord.seq).Nodup) :
    unwrittenUpTo (queue.getLast?.map TakeRecord.seq) queue = queue.length := by
  cases hl : queue.getLast? with
  | none =>
    rw [List.getLast?_eq_none_iff.mp hl]
    rfl
  | some r =>
    have hlen : queue.length ≠ 0 := fun h0 => by
      rw [List.length_eq_zero_iff.mp h0] at hl
      cases hl
    rw [List.getLast?_eq_getElem?] at hl
    rw [Option.map_some, unwrittenUpTo_getElem hdup hl]
    omega

theorem exec_flushLog_taken (hstep : s.oe.step = .taken o) (hk : o.kind = .flushLog) :
    exec .flushLog s = .next (flushLogOrder o s) :=
  congrArg Host.Outcome.next (s.handOrder_taken _ _ o hstep hk)

/-- The state with the flush set of a FLUSH LOG noted and the order kept. -/
def State.flushNoted (s : State) : State :=
  State.keep { s with pw := { s.pw with flush := some ⟨s.lu.queue.getLast?.map TakeRecord.seq, false⟩ } } .flushLog

theorem State.flushNoted_left (s : State) :
    s.flushNoted.flushLeft = some (unwrittenUpTo (s.lu.queue.getLast?.map TakeRecord.seq) s.lu.queue) := rfl

theorem flushLogOrder_waits (hidle : s.pw.activity ≠ .idle) (hstarved : s.pw.activity ≠ .starved) :
    flushLogOrder o s = s.flushNoted := by
  unfold flushLogOrder
  dsimp only
  split
  next h => exact absurd h hidle
  next h => exact absurd h hstarved
  next => rfl

theorem flushLogOrder_idle (hidle : s.pw.activity = .idle) : flushLogOrder o s = s.flushNoted.choose false := by
  rw [flushLogOrder, hidle]
  rfl

theorem flushLogOrder_starved (hstarved : s.pw.activity = .starved) :
    flushLogOrder o s =
      s.flushNoted.endFlush .done (unwrittenUpTo (s.lu.queue.getLast?.map TakeRecord.seq) s.lu.queue) := by
  rw [flushLogOrder, hstarved]
  rfl

theorem State.setActivity_idle (h : s.pw.activity = .idle) : s.setActivity .idle = s := by
  rw [State.setActivity, ← h]

theorem State.flushNoted_idleQueue (hidle : s.pw.activity = .idle) (hq : s.lu.queue = [])
    (hpage : ∀ p, s.pw.page = some p → p.records = 0) :
    s.flushNoted.choose false = s.flushNoted.endFlush .done 0 := by
  have hl : s.flushNoted.flushLeft = some 0 := by
    rw [s.flushNoted_left, hq]
    rfl
  rw [State.choose_flushed hl (State.noRecords_iff.mpr hpage),
    State.chooseWork_idle (s := s.flushNoted.endFlush .done 0) hq]
  exact State.setActivity_idle hidle

/-- Settles O53: GIVE PAGES by its count and the writer's activity, the stock address by address, FLUSH LOG by the
writer's activity, and the unwritten count by the tail's place. -/
theorem pageOrders : Obligations.PageOrders := by
  refine ⟨fun s o hstep hk => ?_, fun s stock => rfl, fun s stock rest a => ?_, fun s o hstep hk => ?_,
    fun queue => rfl, fun queue t => unwrittenUpTo_absent, fun queue n r => unwrittenUpTo_getElem⟩
  · intro count stock given
    rw [exec_givePages_taken hstep hk]
    refine ⟨fun h => ?_, fun hpos hle => ⟨fun h hgiven => ?_, fun h => ?_⟩⟩
    · rw [givePagesOrder_refused h]
      rfl
    · rw [givePagesOrder_starved (not_or.mpr ⟨hpos.ne', hle.not_gt⟩) h hgiven]
      rfl
    · rw [givePagesOrder_given (not_or.mpr ⟨hpos.ne', hle.not_gt⟩) h]
      rfl
  · intro skipped
    refine ⟨fun h => ?_, fun h => ?_⟩
    · rw [State.stockWith, if_neg fun hok => State.pageAcceptable_iff.mp hok h]
    · rw [State.stockWith, if_pos (State.pageAcceptable_iff.mpr h)]
  · intro noted kept ended
    rw [exec_flushLog_taken hstep hk]
    refine ⟨fun hidle hstarved => ?_, fun hidle hq hpage => ?_, fun p hidle hq hp hpos => ?_, fun hstarved hdup => ?_⟩
    · rw [flushLogOrder_waits hidle hstarved]
      rfl
    · rw [flushLogOrder_idle hidle, State.flushNoted_idleQueue hidle hq hpage]
      rfl
    · have hl : s.flushNoted.flushLeft = some 0 := by
        rw [s.flushNoted_left, hq]
        rfl
      have hrecords : (s.flushNoted.pw.page.map OpenPage.records).getD 0 ≠ 0 := by
        show (s.pw.page.map OpenPage.records).getD 0 ≠ 0
        rw [hp]
        exact hpos.ne'
      rw [flushLogOrder_idle hidle, State.choose_closes hl hrecords]
      rfl
    · rw [flushLogOrder_starved hstarved, unwrittenUpTo_last hdup]
      rfl

end Sys2Proof.Machine
end

section
/-! The words of a take record in its page (R191, R192). -/

namespace Sys2Proof.Machine

variable {r : TakeRecord}

/-! ## The words of any record -/

/-- A record's words, its four middle ones named. -/
theorem TakeRecord.words_eq {a b c d : Word} (h : r.middle = [a, b, c, d]) :
    r.words = r.seq :: r.lostBefore :: a :: b :: c :: d :: lowWord (r.st.getD 0) :: highWord (r.st.getD 0) ::
      r.body.watch.flatMap Watch.words := by
  rw [TakeRecord.words, h]
  rfl

theorem TakeRecord.exists_middle (r : TakeRecord) : ∃ a b c d, r.middle = [a, b, c, d] := by
  unfold TakeRecord.middle
  split <;> exact ⟨_, _, _, _, rfl⟩

/-- The words of a watch entry stand at its place among the entries. -/
theorem watchWords_getD {ws : List Watch} {n : Nat} {w : Watch} (h : ws[n]? = some w) :
    [(ws.flatMap Watch.words).getD (2 * n) 0, (ws.flatMap Watch.words).getD (2 * n + 1) 0] = w.words := by
  have hlen (a : Watch) : (Watch.words a).length = 2 := rfl
  have h0 : (2 * n) / 2 = n ∧ 2 * n % 2 = 0 := by omega
  have h1 : (2 * n + 1) / 2 = n ∧ (2 * n + 1) % 2 = 1 := by omega
  rw [List.getD_eq_getElem?_getD, List.getD_eq_getElem?_getD, flatMap_getElem? hlen (by decide),
    flatMap_getElem? hlen (by decide), h0.1, h0.2, h1.1, h1.2, h]
  rfl

theorem TakeRecord.watch_getD {n : Nat} {w : Watch} (h : r.body.watch[n]? = some w) :
    [r.words.getD (8 + 2 * n) 0, r.words.getD (9 + 2 * n) 0] = w.words := by
  obtain ⟨a, b, c, d, hm⟩ := r.exists_middle
  rw [TakeRecord.words_eq hm, show 8 + 2 * n = 2 * n + 8 by omega, show 9 + 2 * n = 2 * n + 1 + 8 by omega]
  exact watchWords_getD h

/-- A watch entry's words, as numbers (R192). -/
theorem Watch.words_toNat {w : Watch} (hsub : w.sub ≤ 255) (hindex : w.sample = false → w.index < 2 ^ 23) :
    ∃ w0 w1 : Word, w.words = [w0, w1] ∧
      w0.toNat =
        w.chan.val + (if w.sample then 16 else 0) + (if w.stale then 32 else 0) + (if w.stopped then 64 else 0) +
          2 ^ 8 * (if w.sample then 0 else w.fmt.code) + 2 ^ 16 * w.sub + 2 ^ 24 * (w.index / 2 ^ 32 % 2 ^ 8) ∧
      w1.toNat = w.index % 2 ^ 32 := by
  have hc := w.chan.isLt
  have hf := w.fmt.code_lt
  have hflag (b : Bool) (n : Nat) : (if b then n else 0) = n * b.toNat := by cases b <;> simp
  refine ⟨_, _, rfl, ?_, ?_⟩
  · rw [flagBit_eq_field, flagBit_eq_field, flagBit_eq_field]
    have h := orAll_toNat [(0, 4, w.chan.val), (4, 1, w.sample.toNat), (5, 1, w.stale.toNat), (6, 1, w.stopped.toNat),
      (8, 4, if w.sample then 0 else w.fmt.code), (16, 8, w.sub),
      (24, 8, (if w.sample then w.index % 2 ^ 40 else w.index) / 2 ^ 32)] (start := 0) (by simp [FieldsFit])
    refine h.trans ?_
    simp only [List.map_cons, List.map_nil, List.sum_cons, List.sum_nil, Field.value_mk, hflag]
    have h1 := w.sample.toNat_le
    have h2 := w.stale.toNat_le
    have h3 := w.stopped.toNat_le
    cases hs : w.sample with
    | false =>
      have := hindex hs
      simp only [Bool.false_eq_true, if_false, Bool.toNat_false]
      omega
    | true =>
      simp only [if_true, Bool.toNat_true]
      omega
  · rw [BitVec.toNat_ofNat]
    split <;> omega

/-! ## The middle words of a MARK (R191) -/

section
variable {kind : Fin 16} {source : Option MarkSource} {flags : MarkFlags} {watch : List Watch}
  (hbody : r.body = .mark kind source flags watch)
include hbody

theorem TakeRecord.mark_word2 (hwatch : watch.length ≤ 4) :
    (r.words.getD 2 0).toNat = flags.byte + 2 ^ 8 * kind.val + 2 ^ 12 * watch.length + 2 ^ 16 * r.gen.toNat := by
  have h := orAll_toNat [(0, 8, flags.byte), (8, 4, kind.val), (12, 3, watch.length), (16, 16, r.gen.toNat)] (start := 0)
    (by simp [FieldsFit])
  simp only [List.map_cons, List.map_nil, List.sum_cons, List.sum_nil, Field.value_mk] at h
  have hm := TakeRecord.words_eq (r := r) (by rw [TakeRecord.middle, hbody])
  have hb := flags.byte_bits.1
  have hk := kind.isLt
  have hg := r.gen.isLt
  rw [hm]
  refine h.trans ?_
  omega

theorem TakeRecord.mark_word3 (hslate : r.slate ≤ 9999) (htake : r.take ≤ 999) :
    (r.words.getD 3 0).toNat =
      r.slate + 2 ^ 14 * r.take + 2 ^ 24 * (source.map (fun m => m.slot.val)).getD 63 := by
  have h := orAll_toNat [(0, 14, r.slate), (14, 10, r.take), (24, 6, (source.map (fun m => m.slot.val)).getD 63)]
    (start := 0) (by simp [FieldsFit])
  simp only [List.map_cons, List.map_nil, List.sum_cons, List.sum_nil, Field.value_mk] at h
  have hm := TakeRecord.words_eq (r := r) (by rw [TakeRecord.middle, hbody])
  have hs : (source.map (fun m => m.slot.val)).getD 63 < 64 := by
    cases source with
    | none => decide
    | some m => exact m.slot.isLt.trans (by decide)
  have hw : r.words.getD 3 0 = orAll ([(0, 14, r.slate), (14, 10, r.take),
      (24, 6, (source.map (fun m => m.slot.val)).getD 63)].map Field.word) := by
    rw [hm]
    cases source <;> rfl
  rw [hw]
  refine h.trans ?_
  omega

end

theorem TakeRecord.mark_host {kind : Fin 16} {flags : MarkFlags} {watch : List Watch}
    (hbody : r.body = .mark kind none flags watch) : r.words.getD 4 0 = 0 ∧ r.words.getD 5 0 = 0 := by
  rw [TakeRecord.words_eq (r := r) (by rw [TakeRecord.middle, hbody])]
  exact ⟨rfl, rfl⟩

theorem TakeRecord.mark_slot {kind : Fin 16} {m : MarkSource} {flags : MarkFlags} {watch : List Watch}
    (hbody : r.body = .mark kind (some m) flags watch) (hlabel : m.label < 2 ^ 23) (hsub : m.sub ≤ 255)
    (haddr : m.linkAddr ≤ 63) :
    (r.words.getD 4 0).toNat = m.label + 2 ^ 24 * m.fmt.code ∧ (r.words.getD 5 0).toNat = m.sub + 2 ^ 8 * m.linkAddr := by
  have h4 := orAll_toNat [(0, 23, m.label), (24, 4, m.fmt.code)] (start := 0) (by simp [FieldsFit])
  have h5 := orAll_toNat [(0, 8, m.sub), (8, 6, m.linkAddr)] (start := 0) (by simp [FieldsFit])
  simp only [List.map_cons, List.map_nil, List.sum_cons, List.sum_nil, Field.value_mk] at h4 h5
  have hf := m.fmt.code_lt
  rw [TakeRecord.words_eq (r := r) (by rw [TakeRecord.middle, hbody])]
  refine ⟨h4.trans ?_, h5.trans ?_⟩
  · omega
  · omega

/-! ## The middle words of a SYSTEM record (R192) -/

/-- The four middle words of a SYSTEM record show these numbers. -/
def TakeRecord.Laid (r : TakeRecord) (subkind detail source word4 word5 : Nat) : Prop :=
  (r.words.getD 2 0).toNat = detail + 2 ^ 8 * subkind + 2 ^ 15 + 2 ^ 16 * r.gen.toNat ∧
    (r.words.getD 3 0).toNat = r.slate + 2 ^ 14 * r.take + 2 ^ 24 * source ∧
    (r.words.getD 4 0).toNat = word4 ∧ (r.words.getD 5 0).toNat = word5

theorem TakeRecord.laid_system {ev : SysEvent} (hbody : r.body = .system ev) (hslate : r.slate ≤ 9999)
    (htake : r.take ≤ 999) (hdetail : ev.detailByte < 256) (hsource : ev.sourceByte < 256) :
    r.Laid ev.subkind ev.detailByte ev.sourceByte ev.word4.toNat ev.word5.toNat := by
  have h2 := orAll_toNat [(0, 8, ev.detailByte), (8, 4, ev.subkind), (15, 1, true.toNat), (16, 16, r.gen.toNat)]
    (start := 0) (by simp [FieldsFit])
  have h3 := orAll_toNat [(0, 14, r.slate), (14, 10, r.take), (24, 8, ev.sourceByte)] (start := 0) (by simp [FieldsFit])
  simp only [List.map_cons, List.map_nil, List.sum_cons, List.sum_nil, Field.value_mk, Bool.toNat_true] at h2 h3
  have hg := r.gen.isLt
  have hsub : ev.subkind < 16 := by cases ev <;> simp [SysEvent.subkind]
  unfold TakeRecord.Laid
  rw [TakeRecord.words_eq (r := r) (by rw [TakeRecord.middle, hbody])]
  refine ⟨?_, h3.trans ?_, rfl, rfl⟩
  · rw [flagBit_eq_field]
    refine h2.trans ?_
    omega
  · omega

theorem RefState.code_lt (x : RefState) : x.code < 4 := by cases x <;> decide

theorem DriftReason.code_lt (x : DriftReason) : x.code < 4 := by cases x <;> decide

theorem RecoveryTaken.code_lt (x : RecoveryTaken) : x.code < 4 := by cases x <;> decide

theorem JamOutcome.code_lt (x : JamOutcome) : x.code < 6 := by cases x <;> decide

theorem JamOrigin.code_lt (x : JamOrigin) : x.code < 2 := by cases x <;> decide

theorem ChannelEventKind.code_lt (x : ChannelEventKind) : x.code < 4 := by cases x <;> decide

theorem DeviceEvent.code_lt (x : DeviceEvent) : x.code < 256 := by
  cases x with
  | drifting reason taken =>
    have h1 := reason.code_lt
    have h2 := taken.code_lt
    show 4 + 8 * reason.code + 32 * taken.code < 256
    omega
  | _ => decide

/-- The link address in word 5 of a record about a slot. -/
theorem addressWord_toNat {addr : Nat} (h : addr ≤ 63) : (field 8 6 addr).toNat = 2 ^ 8 * addr := by
  rw [field_toNat (by decide)]
  omega

section
variable {ev : SysEvent} (hslate : r.slate ≤ 9999) (htake : r.take ≤ 999)
include hslate htake

theorem TakeRecord.laid_timeStep {d : Nat} (hbody : r.body = .system (.timeStep d)) (hd : d < 2 ^ 32) :
    r.Laid 1 0 63 d 0 := by
  have h := TakeRecord.laid_system hbody hslate htake (by show 0 < 256; decide) (by show 63 < 256; decide)
  have h4 : (BitVec.ofNat 32 d).toNat = d := by rw [BitVec.toNat_ofNat, Nat.mod_eq_of_lt hd]
  exact h4 ▸ h

theorem TakeRecord.laid_reference {new old : RefState} (hbody : r.body = .system (.referenceState new old)) :
    r.Laid 2 (new.code + 4 * old.code) 63 0 0 := by
  have h1 := new.code_lt
  have h2 := old.code_lt
  exact TakeRecord.laid_system hbody hslate htake (by show new.code + 4 * old.code < 256; omega) (by show 63 < 256; decide)

variable {i : Fin 48} {addr : Nat} (haddr : addr ≤ 63)

theorem TakeRecord.laid_channel {c : Fin 16} {kind : ChannelEventKind}
    (hbody : r.body = .system (.channelEvent c kind none)) : r.Laid 5 0 (c.val + 16 * kind.code) 0 0 := by
  have h1 := c.isLt
  have h2 := kind.code_lt
  exact TakeRecord.laid_system hbody hslate htake (by show 0 < 256; decide)
    (by show c.val + 16 * kind.code + 0 < 256; omega)

theorem TakeRecord.laid_segment {c : Fin 16} {kind : ChannelEventKind} {origin base : Nat}
    (hbody : r.body = .system (.channelEvent c kind (some (origin, base)))) :
    r.Laid 5 (origin / 2 ^ 32 % 2 ^ 8) (c.val + 16 * kind.code + 64 + 128 * (origin / 2 ^ 40 % 2)) (origin % 2 ^ 32)
      (base % 2 ^ 32) := by
  have h1 := c.isLt
  have h2 := kind.code_lt
  have h := TakeRecord.laid_system hbody hslate htake (by show origin / 2 ^ 32 % 256 < 256; omega)
    (by show c.val + 16 * kind.code + (64 + 128 * (origin / 2 ^ 40 % 2)) < 256; omega)
  have h4 : SysEvent.word4 (.channelEvent c kind (some (origin, base))) = BitVec.ofNat 32 origin := rfl
  have h5 : SysEvent.word5 (.channelEvent c kind (some (origin, base))) = BitVec.ofNat 32 base := rfl
  have hs : SysEvent.sourceByte (.channelEvent c kind (some (origin, base))) =
      c.val + 16 * kind.code + 64 + 128 * (origin / 2 ^ 40 % 2) := by
    show c.val + 16 * kind.code + (64 + 128 * (origin / 2 ^ 40 % 2)) = _
    omega
  rw [h4, h5, hs, BitVec.toNat_ofNat, BitVec.toNat_ofNat] at h
  exact h

include haddr

theorem TakeRecord.laid_device {e : DeviceEvent} (hbody : r.body = .system (.deviceState i addr e)) :
    r.Laid 3 e.code i.val 0 (2 ^ 8 * addr) := by
  have h1 := i.isLt
  have h := TakeRecord.laid_system hbody hslate htake e.code_lt (by show i.val < 256; omega)
  have h5 : (SysEvent.word5 (.deviceState i addr e)).toNat = 2 ^ 8 * addr := addressWord_toNat haddr
  rw [h5] at h
  exact h

theorem TakeRecord.laid_jam {o : JamOutcome} {origin : JamOrigin} {sets : Nat} {last : Option Nat} {left : DevState}
    (hbody : r.body = .system (.jamOutcome i addr o origin sets last left)) (hsets : sets ≤ 4)
    (hlast : ∀ l, last = some l → l < 2 ^ 23) :
    r.Laid 4 (o.code + 8 * origin.code + 16 * sets + (if last = none then 0 else 128)) i.val
      (last.getD 0 + 2 ^ 24 * left.code) (2 ^ 8 * addr) := by
  have h0 := i.isLt
  have h1 := o.code_lt
  have h2 := origin.code_lt
  have h3 := left.code_lt
  have hdetail : SysEvent.detailByte (.jamOutcome i addr o origin sets last left) =
      o.code + 8 * origin.code + 16 * sets + (if last = none then 0 else 128) := by
    show o.code + 8 * origin.code + 16 * (sets % 8) + (if last.isSome then 128 else 0) = _
    cases last <;> simp <;> omega
  have hl : last.getD 0 < 2 ^ 23 := by
    cases last with
    | none => exact Nat.two_pow_pos 23
    | some l => exact hlast l rfl
  have hlt : o.code + 8 * origin.code + 16 * sets + (if last = none then 0 else 128) < 256 := by split <;> omega
  have h := TakeRecord.laid_system hbody hslate htake (by rw [hdetail]; exact hlt) (by show i.val < 256; omega)
  have h4 : (SysEvent.word4 (.jamOutcome i addr o origin sets last left)).toNat = last.getD 0 + 2 ^ 24 * left.code := by
    have h := orAll_toNat [(0, 23, last.getD 0), (24, 3, left.code)] (start := 0) (by simp [FieldsFit])
    simp only [List.map_cons, List.map_nil, List.sum_cons, List.sum_nil, Field.value_mk] at h
    refine h.trans ?_
    omega
  have h5 : (SysEvent.word5 (.jamOutcome i addr o origin sets last left)).toNat = 2 ^ 8 * addr := addressWord_toNat haddr
  rw [hdetail, h4, h5] at h
  exact h

end

end Sys2Proof.Machine
end

section
/-! The events of the page writer: the claim of a page, a record written, a page closed (R160, R162, R163, R165, R167,
R168). -/

namespace Sys2Proof.Machine

variable {s : State}

/-! ## Words laid in memory -/

theorem wordsAt_drop (a : Nat) (ws : List Word) (n : Nat) : (wordsAt a ws).drop n = wordsAt (a + 4 * n) (ws.drop n) := by
  induction n generalizing a ws with
  | zero => rfl
  | succ n ih =>
    cases ws with
    | nil => rfl
    | cons w ws =>
      show (wordsAt (a + 4) ws).drop n = wordsAt (a + 4 * (n + 1)) (ws.drop n)
      rw [ih, show a + 4 + 4 * n = a + 4 * (n + 1) by omega]

theorem Memory.writeAll_append (m : List Host.Cell) (ws ws' : List (Nat × Word)) :
    Memory.writeAll m (ws ++ ws') = Memory.writeAll (Memory.writeAll m ws) ws' := List.foldl_append

theorem Memory.readWord_writeWord_other (m : List Host.Cell) {a b : Nat} (w : Word) (h : b + 4 ≤ a ∨ a + 4 ≤ b) :
    Memory.readWord (Memory.writeWord m b w) a = Memory.readWord m a :=
  Memory.readWord_writeAll_other [(b, w)] m a fun p hp => by
    rw [List.mem_singleton.mp hp]
    exact h

theorem Memory.read_writeWord_outside (m : List Host.Cell) {a x : Nat} (w : Word) (h : x < a ∨ a + 4 ≤ x) :
    Memory.read (Memory.writeWord m a w) x = Memory.read m x :=
  Memory.read_writeWord_other _ _ _ _ fun k hk => by omega

theorem State.isPage_iff {a : Nat} : s.isPage a = true ↔ a ≠ 0 ∧ a % 1024 = 0 ∧ a + 1024 ≤ s.windowSize := by
  simp only [State.isPage, Bool.and_eq_true, bne_iff_ne, beq_iff_eq, State.inWindow_iff, and_assoc]

/-! ## The claim (R160) -/

section
variable {a : Nat} {cleared : Bool} (hact : s.pw.activity = .claiming a cleared) (hpage : s.isPage a = true)
include hact hpage

theorem exec_pageClaim : exec .pageClaim s =
    .next (if Memory.readWord s.mem a = 0 then s.claimEmpty a cleared else s.claimRefused cleared) := by
  show execPageClaim s = _
  rw [execPageClaim, hact]
  refine s.guarded_next _ _ fun x hx => ?_
  rcases List.mem_cons.mp hx with rfl | hx
  · exact State.isPage_in hpage (by omega)
  · rw [List.mem_singleton.mp hx]
    exact State.isPage_in hpage (by omega)

end

/-- The memory after the claim of an EMPTY page. -/
theorem State.claimWrites_mem {r : TakeRecord} {rest : List TakeRecord} (hq : s.lu.queue = r :: rest)
    (hwf : Memory.wf s.mem = true) (a : Nat) :
    let m := Memory.writeAll s.mem (s.claimWrites a)
    Memory.readWord m a = 1 ∧ Memory.readWord m (a + 4) = s.pw.pageSeq ∧ Memory.readWord m (a + 8) = 0 ∧
      Memory.readWord m (a + 12) = r.seq ∧ ∀ x : Nat, x < a ∨ a + 16 ≤ x → Memory.read m x = Memory.read s.mem x := by
  have hws : s.claimWrites a = wordsAt a [1, s.pw.pageSeq, 0, r.seq] := by
    rw [State.claimWrites, hq]
    rfl
  have h (k : Nat) (hk : k < 4) := Memory.readWord_wordsAt [1, s.pw.pageSeq, 0, r.seq] s.mem a k hwf hk
  dsimp only
  rw [hws]
  exact ⟨h 0 (by decide), h 1 (by decide), h 2 (by decide), h 3 (by decide),
    fun x hx => Memory.read_wordsAt_outside s.mem _ hx⟩

/-! ## A record written (R162) -/

section
variable {p : OpenPage} {r : TakeRecord} {rest : List TakeRecord} {made : Nat}

theorem exec_recordWritten (hact : s.pw.activity = .writing made) (hp : s.pw.page = some p)
    (hq : s.lu.queue = r :: rest) (hpage : s.isPage p.addr = true) (hfits : p.used + r.length ≤ 252) :
    exec .recordWritten s = .next (s.recordDone p r rest made) := by
  show execRecordWritten s = _
  simp only [execRecordWritten, hact, hp, hq]
  exact s.guarded_next _ _
    (State.WordsIn.addresses (State.WordsIn.drop (State.recordWrites_in hpage (decide_eq_true hfits)) made))

/-- What is left of a record write: the record's other words, and the record count. -/
theorem recordLeft_eq (h : made ≤ r.length) :
    recordLeft p r made =
      wordsAt (p.addr + 16 + 4 * (p.used + made)) (r.words.drop made) ++
        [(p.addr + 8, BitVec.ofNat 32 (p.records + 1))] := by
  rw [recordLeft, recordWrites, List.drop_append_of_le_length (by rw [wordsAt_length, TakeRecord.words_length]; exact h),
    wordsAt_drop, show p.addr + 16 + 4 * p.used + 4 * made = p.addr + 16 + 4 * (p.used + made) by omega]

theorem recordLeft_mem (h : made ≤ r.length) {m : List Host.Cell} (hwf : Memory.wf m = true) :
    let m' := Memory.writeAll m (recordLeft p r made)
    (∀ n : Nat, made ≤ n → n < r.length →
      Memory.readWord m' (p.addr + 16 + 4 * (p.used + n)) = r.words.getD n 0) ∧
    Memory.readWord m' (p.addr + 8) = BitVec.ofNat 32 (p.records + 1) ∧
    (∀ x : Nat, (x < p.addr + 8 ∨ p.addr + 12 ≤ x) →
      (x < p.addr + 16 + 4 * (p.used + made) ∨ p.addr + 16 + 4 * (p.used + r.length) ≤ x) →
      Memory.read m' x = Memory.read m x) := by
  dsimp only
  rw [recordLeft_eq h, Memory.writeAll_append]
  show (∀ n : Nat, made ≤ n → n < r.length → Memory.readWord (Memory.writeWord _ _ _) _ = _) ∧
    Memory.readWord (Memory.writeWord _ _ _) _ = _ ∧
      ∀ x : Nat, _ → _ → Memory.read (Memory.writeWord _ _ _) x = _
  have hlen : (r.words.drop made).length = r.length - made := by rw [List.length_drop, TakeRecord.words_length]
  refine ⟨fun n hn hlt => ?_, Memory.readWord_writeWord _ _ _ (Memory.wf_writeAll _ _ hwf), fun x hcount hx => ?_⟩
  · rw [Memory.readWord_writeWord_other _ _ (by omega),
      show p.addr + 16 + 4 * (p.used + n) = p.addr + 16 + 4 * (p.used + made) + 4 * (n - made) by omega,
      Memory.readWord_wordsAt _ _ _ _ hwf (by omega), List.getD_eq_getElem?_getD, List.getD_eq_getElem?_getD,
      List.getElem?_drop, Nat.add_sub_cancel' hn]
  · rw [Memory.read_writeWord_outside _ _ (by omega), Memory.read_wordsAt_outside _ _ (by omega)]

end

/-! ## A page closed (R163, R165, R167) -/

section
variable {p : OpenPage} {why : CloseWhy} {cleared : Bool}

theorem exec_pageCloseDone (hact : s.pw.activity = .closing why cleared) (hp : s.pw.page = some p)
    (hpage : s.isPage p.addr = true) : exec .pageCloseDone s = .next (s.closeDone p why cleared) := by
  show execPageCloseDone s = _
  simp only [execPageCloseDone, hact, hp]
  refine s.guarded_next _ _ fun x hx => ?_
  rw [List.mem_singleton.mp hx]
  exact State.isPage_in hpage (by omega)

theorem State.afterClose_flush_none (h : s.pw.flush = none) : s.afterClose .flush cleared = s.choose cleared := by
  simp only [State.afterClose, h]

theorem State.afterClose_flush_some {f : FlushSet} (h : s.pw.flush = some f) :
    s.afterClose .flush cleared = (s.endFlush (if f.aborted then .aborted else .done) 0).choose cleared := by
  simp only [State.afterClose, h]

end

/-! ## O55 -/

/-- Settles O55: the three events, each with the words it leaves in memory, and the layout of a record. -/
theorem pageWriterEvents : Obligations.PageWriterEvents := by
  refine ⟨fun s a cleared hact hpage => ⟨fun hfull => ?_, fun r rest hempty hq hwf => ?_⟩,
    fun s p r rest made hact hp hq hpage hfits hmade hwf => ?_, fun s p why cleared hact hp hpage hwf => ?_, fun r => ?_,
    fun r kind source flags watch hbody hslate htake hwatch => ⟨TakeRecord.mark_word2 hbody hwatch, ?_, ?_⟩,
    fun r ev hbody hslate htake => ?_, by decide, fun w => Watch.words_toNat, fun s a => State.isPage_iff⟩
  · rw [exec_pageClaim hact hpage, if_neg hfull]
    rfl
  · refine ⟨Memory.writeAll s.mem (s.claimWrites a), fun hc => ?_, fun hc => ?_, State.claimWrites_mem hq hwf a⟩
    · rw [exec_pageClaim hact hpage, if_pos hempty, State.claimEmpty, if_neg (by simp [hc])]
    · rw [exec_pageClaim hact hpage, if_pos hempty, State.claimEmpty, if_pos hc]
      rfl
  · exact ⟨_, exec_recordWritten hact hp hq hpage hfits, recordLeft_mem hmade hwf⟩
  · refine ⟨Memory.writeWord s.mem p.addr 2, ?_⟩
    intro closed ended
    rw [exec_pageCloseDone hact hp hpage]
    refine ⟨fun h => by rw [h]; rfl, fun h => by rw [h]; rfl, fun h hf => ?_, fun f h hf hab => ?_, fun f h hf hab => ?_,
      Memory.readWord_writeWord _ _ _ hwf, fun x hx => Memory.read_writeWord_outside _ _ hx⟩
    · rw [h]
      exact congrArg Host.Outcome.next (State.afterClose_flush_none (s := closed) hf)
    · rw [h]
      refine congrArg Host.Outcome.next ((State.afterClose_flush_some (s := closed) hf).trans ?_)
      rw [hab]
      rfl
    · rw [h]
      refine congrArg Host.Outcome.next ((State.afterClose_flush_some (s := closed) hf).trans ?_)
      rw [hab]
      rfl
  · obtain ⟨a, b, c, d, hm⟩ := r.exists_middle
    refine ⟨r.words_length, rfl, ?_, ?_, ?_, ?_, fun n w hw => TakeRecord.watch_getD hw⟩ <;>
      rw [TakeRecord.words_eq hm] <;> rfl
  · rintro rfl
    exact ⟨TakeRecord.mark_word3 hbody hslate htake, TakeRecord.mark_host hbody⟩
  · rintro m rfl hlabel hsub haddr
    exact ⟨TakeRecord.mark_word3 hbody hslate htake, TakeRecord.mark_slot hbody hlabel hsub haddr⟩
  · refine ⟨fun d he hd => ?_, fun new old he => ?_, fun i addr haddr => ⟨fun he => ?_, fun he => ?_, fun he => ?_,
      fun reason taken he => ?_, fun o origin sets last left he hsets hlast => ?_⟩,
      fun c kind => ⟨fun he => ?_, fun origin base he => ?_⟩⟩ <;> subst he
    · exact TakeRecord.laid_timeStep hslate htake hbody hd
    · exact TakeRecord.laid_reference hslate htake hbody
    · exact TakeRecord.laid_device hslate htake haddr hbody
    · exact TakeRecord.laid_device hslate htake haddr hbody
    · exact TakeRecord.laid_device hslate htake haddr hbody
    · exact TakeRecord.laid_device hslate htake haddr hbody
    · exact TakeRecord.laid_jam hslate htake haddr hbody hsets hlast
    · exact TakeRecord.laid_channel hslate htake hbody
    · exact TakeRecord.laid_segment hslate htake hbody

end Sys2Proof.Machine
end

section
/-! Writes to ORDER HEAD: a chain's start, the return to IDLE, abort by the engine's step, refusals (R172, R177, R178,
R189). -/

namespace Sys2Proof.Machine

variable {s : State} {v : Word}

/-! ## The write by its value and the chain state (R172) -/

theorem startsChain_iff : startsChain v = true ↔ v ≠ 0 ∧ v.toNat % 4 = 0 := by
  simp [startsChain]

theorem State.orderHeadWrite_starts (h0 : v ≠ 0) (h4 : v.toNat % 4 = 0) (hchain : s.oe.chain = .idle) :
    s.orderHeadWrite v =
      .next (State.beginFetch { s with oe := { s.oe with chain := .running, head := v.toNat } } v.toNat) := by
  have h2 : v ≠ 2 := by
    rintro rfl
    exact absurd h4 (by decide)
  rw [State.orderHeadWrite, if_neg h2, if_pos ⟨startsChain_iff.mpr ⟨h0, h4⟩, hchain⟩]

theorem State.orderHeadWrite_idle (h : s.oe.chain = .done ∨ s.oe.chain = .stopped) :
    s.orderHeadWrite 0 = .next { s with oe := { s.oe with chain := .idle, head := 0 } } := by
  rw [State.orderHeadWrite, if_neg (by decide), if_neg (fun hs => absurd hs.1 (by decide)), if_pos ⟨rfl, h⟩]

theorem State.orderHeadWrite_abort (h : s.oe.chain = .running) : s.orderHeadWrite 1 = .next s.abortChain := by
  rw [State.orderHeadWrite, if_neg (by decide), if_neg (fun hs => absurd hs.1 (by decide)),
    if_neg (fun hs => absurd hs.1 (by decide)), if_pos ⟨rfl, h⟩]

theorem State.orderHeadWrite_refused (h2 : v ≠ 2) (hstart : v ≠ 0 → v.toNat % 4 = 0 → s.oe.chain ≠ .idle)
    (hidle : v = 0 → ¬(s.oe.chain = .done ∨ s.oe.chain = .stopped)) (habort : v = 1 → s.oe.chain ≠ .running) :
    s.orderHeadWrite v = .next s.refuseHead := by
  rw [State.orderHeadWrite, if_neg h2, if_neg, if_neg fun h => hidle h.1 h.2, if_neg fun h => habort h.1 h.2]
  rintro ⟨hs, hchain⟩
  obtain ⟨h0, h4⟩ := startsChain_iff.mp hs
  exact hstart h0 h4 hchain

/-! ## Abort by the engine's step (R177, R178) -/

theorem State.abortChain_again (h : s.oe.stopAfter = true) : s.abortChain = s := if_pos h

theorem State.headerPassed_iff {got : List Word} :
    s.headerPassed got = true ↔
      got ≠ [] ∧ s.oe.block ≠ 0 ∧ s.oe.block % 4 = 0 ∧ s.oe.block + 16 ≤ s.windowSize := by
  rw [State.headerPassed, Bool.and_eq_true, State.headerFits_iff]
  simp

section
variable (hstop : s.oe.stopAfter = false)
include hstop

theorem State.abortChain_none (h : s.oe.step = .none) : s.abortChain = s := by
  rw [State.abortChain, if_neg (by simp [hstop]), h]

theorem State.abortChain_unread {got : List Word} (h : s.oe.step = .fetching got)
    (hgot : got = [] ∨ s.oe.block = 0 ∨ s.oe.block % 4 ≠ 0 ∨ s.windowSize < s.oe.block + 16) :
    s.abortChain = s.chainEnd .stopped := by
  have hpassed : ¬s.headerPassed got = true := by
    rw [State.headerPassed_iff]
    rintro ⟨hne, h0, h4, hin⟩
    rcases hgot with hgot | hgot | hgot | hgot
    · exact hne hgot
    · exact h0 hgot
    · exact hgot h4
    · omega
  rw [State.abortChain, if_neg (by simp [hstop]), h]
  exact if_neg hpassed

theorem State.abortChain_fetching {got : List Word} (h : s.oe.step = .fetching got) (hgot : s.headerPassed got = true) :
    s.abortChain = s.setStopAfter.report .aborted := by
  rw [State.abortChain, if_neg (by simp [hstop]), h]
  exact if_pos hgot

theorem State.abortChain_unhanded {o : Order} (h : s.oe.step = .taken o ∨ s.oe.step = .held o) :
    s.abortChain = s.setStopAfter.report .aborted := by
  rcases h with h | h <;> rw [State.abortChain, if_neg (by simp [hstop]), h]

theorem State.abortChain_finishes
    (h : (∃ a image, s.oe.step = .imaging a image) ∨ (∃ ws code n, s.oe.step = .terminating ws code n) ∨
      ∃ code, s.oe.step = .linking code) : s.abortChain = s.setStopAfter := by
  rcases h with ⟨a, image, h⟩ | ⟨ws, code, n, h⟩ | ⟨code, h⟩ <;> rw [State.abortChain, if_neg (by simp [hstop]), h]

theorem State.abortChain_kept {k : Kept} (h : s.oe.step = .waiting k) : s.abortChain = s.setStopAfter.abortKept k := by
  rw [State.abortChain, if_neg (by simp [hstop]), h]

end

theorem State.abortJam_some {i : Fin 48} {j : JamContext} (h : (s.slot i).jam = some j) :
    s.abortJam i =
      (s.setSlot i { s.slot i with jam := some { j with waiting := false }, lastResult := some .aborted }).report
        .aborted := by
  rw [State.abortJam, h]
  rfl

section
variable {e : Exchange} (he : s.exch = some e)
include he

theorem State.abortExchange_waits (hphase : e.phase = .waitService) : s.abortExchange = s.endExchange e .aborted := by
  rw [State.abortExchange, he]
  exact if_pos hphase

theorem State.abortExchange_past (hphase : e.phase ≠ .waitService) : s.abortExchange = s := by
  rw [State.abortExchange, he]
  exact if_neg hphase

end

theorem State.abortFlush_closing {cleared : Bool} {f : FlushSet} (hact : s.pw.activity = .closing .flush cleared)
    (hf : s.pw.flush = some f) :
    s.abortFlush = { s with pw := { s.pw with flush := some { f with aborted := true } } } := by
  rw [State.abortFlush, hact, hf]

theorem State.abortFlush_ends (hact : ∀ cleared, s.pw.activity ≠ .closing .flush cleared) :
    s.abortFlush = s.endFlush .aborted 0 := by
  unfold State.abortFlush
  split
  next cleared _ h _ => exact absurd h (hact cleared)
  next => rfl

/-! ## Reading ORDER HEAD (R189) -/

theorem ChainState.code_lt (c : ChainState) : c.code < 4 := by cases c <;> decide

theorem State.orderHeadRead_toNat (s : State) :
    s.orderHeadRead.toNat = s.oe.chain.code + 4 * (s.oe.head / 4 % 2 ^ 30) := by
  have hc := s.oe.chain.code_lt
  have hhead : s.oe.head / 4 * 4 % 2 ^ 32 = 2 ^ 2 * (s.oe.head / 4 % 2 ^ 30) := by omega
  have hcode : s.oe.chain.code % 2 ^ 32 = s.oe.chain.code := Nat.mod_eq_of_lt (by omega)
  rw [State.orderHeadRead, BitVec.toNat_or, BitVec.toNat_ofNat, BitVec.toNat_ofNat, hhead, hcode,
    ← Nat.two_pow_add_eq_or_of_lt (by exact hc), Nat.add_comm]

/-! ## O57 -/

/-- Settles O57: the write by its value and the chain state, and an abort by the engine's step and the kept order. -/
theorem orderHeadWrites : Obligations.OrderHeadWrites := by
  refine ⟨fun s v h0 h4 hchain => State.orderHeadWrite_starts h0 h4 hchain, fun s h => State.orderHeadWrite_idle h,
    fun s hrun => ?_, fun s => ⟨fun v h0 h1 h2 hbad => ?_, fun h => ?_, fun h => ?_⟩, State.orderHeadRead_toNat, by decide⟩
  · intro b stopping aborted
    have hexec : exec .abort s = .next s.abortChain := State.orderHeadWrite_abort hrun
    rw [hexec]
    refine ⟨fun hagain => by rw [State.abortChain_again hagain], fun hstop => ⟨fun h => ?_, fun got h hgot => ?_,
      fun w params h h0 h4 hin => ?_, fun o h => ?_, fun h => ?_, fun i j h hj => ?_,
      fun e h he => ⟨fun hphase hdropped => ?_, fun hphase => ?_⟩, fun h => ⟨fun cleared f hact hf => ?_, fun hact => ?_⟩⟩⟩
    · rw [State.abortChain_none hstop h]
    · rw [State.abortChain_unread hstop h hgot]
      rfl
    · rw [State.abortChain_fetching hstop h (State.headerPassed_iff.mpr ⟨by simp, h0, h4, hin⟩)]
      rfl
    · rw [State.abortChain_unhanded hstop h]
      rfl
    · rw [State.abortChain_finishes hstop h]
      rfl
    · rw [State.abortChain_kept hstop h]
      exact congrArg Host.Outcome.next (State.abortJam_some (s := s.setStopAfter) hj)
    · rw [State.abortChain_kept hstop h]
      exact congrArg Host.Outcome.next ((State.abortExchange_waits (s := s.setStopAfter) he hphase).trans
        (State.endExchange_kept hdropped .aborted))
    · rw [State.abortChain_kept hstop h]
      exact congrArg Host.Outcome.next (State.abortExchange_past (s := s.setStopAfter) he hphase)
    · rw [State.abortChain_kept hstop h]
      exact congrArg Host.Outcome.next (State.abortFlush_closing (s := s.setStopAfter) hact hf)
    · rw [State.abortChain_kept hstop h]
      exact congrArg Host.Outcome.next (State.abortFlush_ends (s := s.setStopAfter) hact)
  · have hr : s.orderHeadWrite v = .next s.refuseHead :=
      State.orderHeadWrite_refused h2 (fun _ h4 hidle => hbad.elim (fun hne => hne h4) (fun hne => hne hidle))
        (fun h => absurd h h0) (fun h => absurd h h1)
    exact ⟨hr, hr⟩
  · have hr : s.orderHeadWrite 0 = .next s.refuseHead :=
      State.orderHeadWrite_refused (by decide) (fun h0 => absurd rfl h0) (fun _ hend => by rcases h with h | h <;> simp [h] at hend)
        (fun h1 => absurd h1 (by decide))
    exact ⟨hr, hr⟩
  · have hr : s.orderHeadWrite 1 = .next s.refuseHead :=
      State.orderHeadWrite_refused (by decide) (fun _ h4 => absurd h4 (by decide)) (fun h0 => absurd h0 (by decide))
        (fun _ => h)
    exact ⟨hr, hr⟩

end Sys2Proof.Machine
end

section
/-! Engine clear, and the attention registers (R168, R179, R185, R186). -/

namespace Sys2Proof.Machine

variable {s : State}

/-! ## Writes that are cut off (R168, R179) -/

/-- `t` is `s` after writes `ws` that were cut off: memory differs in these words alone, the free-value counter with it,
and neither does when there is no word to write. -/
structure State.CutShort (s : State) (ws : List (Nat × Word)) (t : State) : Prop where
  frame : t = { s with mem := t.mem, free := t.free }
  read : ∀ x : Nat, (∀ q ∈ ws, x < q.1 ∨ q.1 + 4 ≤ x) → Memory.read t.mem x = Memory.read s.mem x
  unchanged : ws = [] → t.mem = s.mem ∧ t.free = s.free

theorem State.CutShort.none (s : State) : s.CutShort [] s := ⟨rfl, fun _ _ => rfl, fun _ => ⟨rfl, rfl⟩⟩

theorem State.CutShort.first (s : State) {ws : List (Nat × Word)} (hne : ws ≠ []) (n f : Nat) :
    s.CutShort ws { s with mem := Memory.writeFirst s.mem ws n, free := f } :=
  ⟨rfl, fun x hx => Memory.read_writeAll_other _ _ _ fun q hq k hk => by
    have := hx q (List.mem_of_mem_take hq)
    omega, fun h => absurd h hne⟩

theorem State.cutEngine_cutShort (s : State) : s.CutShort s.engineWrites s.cutEngine := by
  unfold State.cutEngine
  split
  next h => rw [h]; exact .none s
  next hne => exact .first s (fun h => hne h) _ _

theorem State.cutRecord_cutShort (s : State) (p : OpenPage) (r : TakeRecord) (made : Nat) :
    s.CutShort (recordWordsLeft p r made) (s.cutRecord p r made) := by
  unfold State.cutRecord
  split
  next h => rw [h]; exact .none s
  next hne => exact .first s (fun h => hne h) _ _

/-! ## The page writer's action (R168) -/

/-- The words of the record being written, that engine clear cuts off. -/
def State.recordCut (s : State) : List (Nat × Word) :=
  match s.pw.activity, s.pw.page, s.lu.queue with
  | .writing made, some p, r :: _ => recordWordsLeft p r made
  | _, _, _ => []

theorem State.recordCut_writing {made : Nat} {p : OpenPage} {r : TakeRecord} {rest : List TakeRecord}
    (hact : s.pw.activity = .writing made) (hp : s.pw.page = some p) (hq : s.lu.queue = r :: rest) :
    s.recordCut = recordWordsLeft p r made := by
  simp only [State.recordCut, hact, hp, hq]

theorem State.recordCut_none
    (hno : ∀ (made : Nat) (p : OpenPage) (r : TakeRecord) (rest : List TakeRecord), s.pw.activity = .writing made →
      s.pw.page = some p → s.lu.queue = r :: rest → False) : s.recordCut = [] := by
  unfold State.recordCut
  split
  next ha hp hq => exact (hno _ _ _ _ ha hp hq).elim
  next => rfl

theorem State.clearAreas_eq (s : State) : s.clearAreas = (s.engineWrites ++ s.recordCut).map Prod.fst := by
  rw [State.clearAreas, List.map_append]
  refine congrArg (_ ++ ·) ?_
  split
  next ha hp hq => rw [State.recordCut_writing ha hp hq]
  next hno => rw [State.recordCut_none hno]; rfl

theorem State.mem_recordCut {q : Nat × Word} (h : q ∈ s.recordCut) :
    ∃ made p r rest, s.pw.activity = .writing made ∧ s.pw.page = some p ∧ s.lu.queue = r :: rest ∧
      ∃ k < r.length, made ≤ k ∧ q.1 = p.addr + 16 + 4 * (p.used + k) := by
  unfold State.recordCut at h
  split at h
  next made p r rest ha hp hq => exact ⟨made, p, r, rest, ha, hp, hq, mem_recordWordsLeft p r made q h⟩
  next => cases h

/-- The page writer's activity after an engine clear. -/
def PageWriter.clearedActivity (pw : PageWriter) : Activity :=
  match pw.activity, pw.page with
  | .claiming page _, _ => .claiming page true
  | .closing .full _, _ => .closing .full true
  | .closing .flush _, _ => .closing .clear true
  | .closing .clear _, _ => .closing .clear true
  | .writing _, some _ => .closing .clear true
  | .idle, some _ => .closing .clear true
  | act, _ => act

/-- The state with the page writer as engine clear leaves it. -/
def State.writerCleared (s : State) : State :=
  { s with pw := { s.pw with stock := [], flush := none, activity := s.pw.clearedActivity } }

theorem State.pageWriterClear_writing {made : Nat} {p : OpenPage} {r : TakeRecord} {rest : List TakeRecord}
    (hact : s.pw.activity = .writing made) (hp : s.pw.page = some p) (hq : s.lu.queue = r :: rest) :
    s.pageWriterClear =
      (State.cutRecord { s with pw := { s.pw with stock := [], flush := none } } p r made).setActivity
        (.closing .clear true) := by
  unfold State.pageWriterClear
  simp only [hact, hp, hq]

theorem State.CutShort.of_eq {t u : State} (hws : t.recordCut = []) (h : u = s) : s.CutShort t.recordCut u := by
  rw [hws, h]
  exact .none s

/-- Engine clear leaves the page writer so, a record write being cut off. -/
theorem State.pageWriterClear_cutShort (s : State) : s.writerCleared.CutShort s.recordCut s.pageWriterClear := by
  cases hact : s.pw.activity with
  | claiming a cleared =>
    refine .of_eq ?_ ?_
    · simp only [State.recordCut, hact]
    · simp only [State.pageWriterClear, State.writerCleared, PageWriter.clearedActivity, hact]
      rfl
  | closing why cleared =>
    refine .of_eq ?_ ?_
    · simp only [State.recordCut, hact]
    · cases why with
      | full | flush | clear =>
        simp only [State.pageWriterClear, State.writerCleared, PageWriter.clearedActivity, hact]
        rfl
  | starved =>
    refine .of_eq ?_ ?_
    · simp only [State.recordCut, hact]
    · simp only [State.pageWriterClear, State.writerCleared, PageWriter.clearedActivity, hact]
  | idle =>
    refine .of_eq ?_ ?_
    · simp only [State.recordCut, hact]
    · cases hp : s.pw.page with
      | none => simp only [State.pageWriterClear, State.writerCleared, PageWriter.clearedActivity, hact, hp]
      | some p =>
        simp only [State.pageWriterClear, State.writerCleared, PageWriter.clearedActivity, hact, hp]
        rfl
  | writing made =>
    cases hp : s.pw.page with
    | none =>
      refine .of_eq ?_ ?_
      · simp only [State.recordCut, hact, hp]
      · simp only [State.pageWriterClear, State.writerCleared, PageWriter.clearedActivity, hact, hp]
    | some p =>
      cases hq : s.lu.queue with
      | nil =>
        refine .of_eq ?_ ?_
        · simp only [State.recordCut, hact, hp, hq]
        · simp only [State.pageWriterClear, State.writerCleared, PageWriter.clearedActivity, hact, hp, hq]
          rfl
      | cons r rest =>
        rw [State.recordCut_writing hact hp hq, State.pageWriterClear_writing hact hp hq]
        obtain ⟨hframe, hread, hsame⟩ :=
          State.cutRecord_cutShort { s with pw := { s.pw with stock := [], flush := none } } p r made
        have hactivity : s.pw.clearedActivity = .closing .clear true := by simp only [PageWriter.clearedActivity, hact, hp]
        refine ⟨?_, hread, hsame⟩
        rw [State.writerCleared, hactivity]
        exact congrArg (State.setActivity · (.closing .clear true)) hframe

/-! ## The kept order dropped (R179) -/

theorem State.dropKept_slot {i : Fin 48} (hjam : s.oe.step ≠ .waiting (.jam i)) (hexch : s.oe.step ≠ .waiting .exchange) :
    s.dropKept.slot i = s.slot i := by
  unfold State.dropKept
  split
  next k h => exact State.setSlot_slot_other _ _ _ _ fun hik => hjam (hik ▸ h)
  next h => exact absurd h hexch
  next => rfl

theorem State.dropKept_exch (hexch : s.oe.step ≠ .waiting .exchange) : s.dropKept.exch = s.exch := by
  unfold State.dropKept
  split
  next => rfl
  next h => exact absurd h hexch
  next => rfl

theorem State.dropKept_jam {i : Fin 48} {j : JamContext} (h : s.oe.step = .waiting (.jam i)) (hj : (s.slot i).jam = some j) :
    s.dropKept = s.setSlot i { s.slot i with jam := some { j with waiting := false } } := by
  rw [State.dropKept, h]
  dsimp only
  rw [hj, Option.map_some]

section
variable {e : Exchange} (h : s.oe.step = .waiting .exchange) (he : s.exch = some e)
include h he

theorem State.dropKept_waits (hphase : e.phase = .waitService) :
    s.dropKept = (s.clearHold e.slot).setExchange none := by
  simp only [State.dropKept, h, he, if_pos hphase]

theorem State.dropKept_runs (hphase : e.phase ≠ .waitService) :
    s.dropKept = s.setExchange (some { e with dropped := true }) := by
  simp only [State.dropKept, h, he, if_neg hphase]

end

/-- What is dropped goes by the step, the slots and the exchange, not by the memory. -/
theorem State.dropKept_mem (s : State) (m : List Host.Cell) (f : Nat) :
    State.dropKept { s with mem := m, free := f } = { s.dropKept with mem := m, free := f } := by
  unfold State.dropKept
  dsimp only
  split
  · rfl
  · split
    · split_ifs <;> rfl
    · rfl
  · rfl

/-! ## Engine clear (R179) -/

theorem State.clearEngine_exists (s : State) :
    ∃ m f, s.clearEngine =
        { s.dropKept with
          oe := s.oe.cleared, mem := m, free := f
          pw := { s.pw with stock := [], flush := none, activity := s.pw.clearedActivity } } ∧
      (∀ x : Nat, (∀ q ∈ s.engineWrites ++ s.recordCut, x < q.1 ∨ q.1 + 4 ≤ x) → Memory.read m x = Memory.read s.mem x) ∧
      (s.engineWrites ++ s.recordCut = [] → m = s.mem ∧ f = s.free) := by
  obtain ⟨hframe, hread, hsame⟩ := s.cutEngine_cutShort
  have hdrop := s.dropKept_mem s.cutEngine.mem s.cutEngine.free
  rw [← hframe] at hdrop
  have hpw : s.dropKept.pw = s.pw := by simp
  have hlu : s.dropKept.lu = s.lu := by simp
  have hoe : s.dropKept.oe = s.oe := by simp
  have hclear : s.clearEngine =
      State.pageWriterClear
        { s.dropKept with oe := s.oe.cleared, mem := s.cutEngine.mem, free := s.cutEngine.free } := by
    rw [State.clearEngine]
    dsimp only
    rw [hdrop]
    dsimp only
    rw [hoe]
  have hcut : State.recordCut
      { s.dropKept with oe := s.oe.cleared, mem := s.cutEngine.mem, free := s.cutEngine.free } = s.recordCut := by
    simp only [State.recordCut, hpw, hlu]
  obtain ⟨hframe', hread', hsame'⟩ := State.pageWriterClear_cutShort
    { s.dropKept with oe := s.oe.cleared, mem := s.cutEngine.mem, free := s.cutEngine.free }
  rw [← hclear] at hframe' hread' hsame'
  rw [hcut] at hread' hsame'
  refine ⟨s.clearEngine.mem, s.clearEngine.free, ?_, fun x hx => ?_, fun h => ?_⟩
  · refine hframe'.trans ?_
    simp only [State.writerCleared, hpw]
  · rw [hread' x fun q hq => hx q (List.mem_append_right _ hq)]
    exact hread x fun q hq => hx q (List.mem_append_left _ hq)
  · obtain ⟨he, hr⟩ := List.append_eq_nil_iff.mp h
    obtain ⟨hm, hf⟩ := hsame he
    obtain ⟨hm', hf'⟩ := hsame' hr
    exact ⟨hm'.trans hm, hf'.trans hf⟩

theorem Memory.readWord_congr {m m' : List Host.Cell} {a : Nat}
    (h : ∀ k < 4, Memory.read m (a + k) = Memory.read m' (a + k)) : Memory.readWord m a = Memory.readWord m' a := by
  have h0 := h 0 (by decide)
  rw [Nat.add_zero] at h0
  rw [Memory.readWord, Memory.readWord, h0, h 1 (by decide), h 2 (by decide), h 3 (by decide)]

theorem exec_engineClear (hin : ∀ a ∈ s.clearAreas, a + 4 ≤ s.windowSize) :
    exec .engineClear s = .next s.clearEngine :=
  (show s.orderHeadWrite 2 = _ from if_pos rfl).trans
    (s.guarded_next _ _ fun a ha => State.inWindow_iff.mpr (hin a ha))

theorem State.mem_engineWrites {q : Nat × Word} (h : q ∈ s.engineWrites) :
    (q.1 = s.oe.block + 12 ∧ ∃ results code n, s.oe.step = .terminating results code n) ∨
      (∃ results code n, s.oe.step = .terminating results code n ∧ q ∈ results) ∨
      (∃ a image, s.oe.step = .imaging a image ∧ ∃ k < image.length, q.1 = a + 4 * k) := by
  unfold State.engineWrites at h
  split at h
  next area image hstep => exact .inr (.inr ⟨area, image, hstep, wordsAt_addr area image q h⟩)
  next results code detail hstep =>
    rcases List.mem_append.mp h with h | h
    · exact .inr (.inl ⟨results, code, detail, hstep, h⟩)
    · rw [List.mem_singleton.mp h]
      exact .inl ⟨rfl, results, code, detail, hstep⟩
  all_goals cases h

/-! ## The attention registers (R185, R186) -/

theorem State.interruptLine_iff :
    s.interruptLine = true ↔ ∃ n < 8, s.oe.causes.getLsbD n = true ∧ s.oe.mask.getLsbD n = true := by
  rw [State.interruptLine, bne_iff_ne]
  constructor
  · intro hne
    by_contra hno
    refine hne (BitVec.eq_of_getLsbD_eq fun n hn => ?_)
    rw [BitVec.getLsbD_and, BitVec.ofNat_eq_ofNat, BitVec.getLsbD_zero, Bool.and_eq_false_iff]
    by_contra hboth
    simp only [not_or, Bool.not_eq_false] at hboth
    exact hno ⟨n, hn, hboth⟩
  · rintro ⟨n, -, hc, hm⟩ h0
    have := congrArg (·.getLsbD n) h0
    simp [hc, hm] at this

/-- The causes in the order of their bits. -/
def Cause.inOrder : List Cause := [.chain, .page, .stock, .reference, .device, .mark, .refused, .cleared]

/-- A cause's mask has the bit of the cause's place alone. -/
theorem Cause.bitMask_getLsbD {n : Nat} {c : Cause} (h : Cause.inOrder[n]? = some c) {k : Nat} (hk : k < 8) :
    c.bitMask.getLsbD k = decide (k = n) := by
  have place : ∀ n k : Fin 8, (Cause.inOrder[n.val]'n.isLt).bitMask.getLsbD k.val = decide (k.val = n.val) := by decide
  obtain ⟨hn, rfl⟩ := List.getElem?_eq_some_iff.mp h
  exact place ⟨n, hn⟩ ⟨k, hk⟩

/-- A register of eight bits reads 0 above them. -/
theorem getLsbD_setWidth_byte (x : BitVec 8) (n : Nat) :
    (x.setWidth 32).getLsbD n = (decide (n < 8) && x.getLsbD n) := by
  rw [BitVec.getLsbD_setWidth]
  by_cases hn : n < 8
  · simp [hn, show n < 32 by omega]
  · rw [BitVec.getLsbD_of_ge x n (by omega), Bool.and_false, Bool.and_false]

/-! ## O58 -/

/-- Settles O58: the state after an engine clear, by its page writer, its kept order and the words cut off; the words it
may write; and the attention registers bit by bit. -/
theorem clearAndAttention : Obligations.ClearAndAttention := by
  refine ⟨fun s hin => ?_, fun s => ⟨fun a ha => ?_, fun q => State.mem_engineWrites⟩, fun s v => ⟨_, rfl, fun n hn => ?_⟩,
    fun s v => ⟨_, rfl, fun n hn => ?_⟩, fun s => State.interruptLine_iff, fun s n => ⟨?_, ?_⟩,
    fun s n c hc => ⟨_, rfl, fun k hk => ?_⟩⟩
  · obtain ⟨m, f, hclear, hread, hsame⟩ := s.clearEngine_exists
    refine ⟨_, (exec_engineClear hin).trans (congrArg _ hclear), rfl, ⟨?_, ?_, ?_, ?_, ?_, ?_, ?_⟩,
      ⟨rfl, rfl, rfl, rfl, rfl⟩, fun p hp hact => ?_, fun a cleared hact => ?_, fun cleared hact => ?_,
      fun why cleared hact hwhy => ?_, fun hp hact => ?_, fun i hjam hexch => ?_, fun i j hstep hj => ?_,
      fun e hstep he => ⟨fun hphase => ?_, fun hphase => ?_⟩, fun hexch => ?_, fun x hx => ?_, fun p hp haway => ?_,
      fun hno => ?_⟩
    · simp
    · simp
    · simp
    · simp
    · simp
    · simp
    · simp
    · rcases hact with hact | ⟨made, hact⟩ <;> simp only [PageWriter.clearedActivity, hact, hp]
    · simp only [PageWriter.clearedActivity, hact]
    · simp only [PageWriter.clearedActivity, hact]
    · cases why with
      | full => exact absurd rfl hwhy
      | flush | clear => simp only [PageWriter.clearedActivity, hact]
    · rcases hact with hact | hact <;> simp only [PageWriter.clearedActivity, hact, hp]
    · exact State.dropKept_slot hjam hexch
    · have hd := State.dropKept_jam hstep hj
      refine ⟨State.dropKept_exch (by rw [hstep]; exact nofun), ?_, fun k hk => ?_⟩
      · exact (congrArg (·.slot i) hd).trans (State.setSlot_slot_same _ _ _)
      · exact (congrArg (·.slot k) hd).trans (State.setSlot_slot_other _ _ _ _ hk)
    · have hd := State.dropKept_waits hstep he hphase
      refine ⟨congrArg State.exch hd, ?_, fun k hk => ?_⟩
      · exact (congrArg (·.slot e.slot) hd).trans (State.setSlot_slot_same _ _ _)
      · exact (congrArg (·.slot k) hd).trans (State.setSlot_slot_other _ _ _ _ hk)
    · have hd := State.dropKept_runs hstep he hphase
      exact ⟨congrArg State.exch hd, (congrArg State.slots hd).trans rfl⟩
    · exact State.dropKept_exch hexch
    · refine hread x fun q hq => hx q.1 ?_
      rw [State.clearAreas_eq]
      exact List.mem_map_of_mem hq
    · have hheader (x : Nat) (hlow : p.addr ≤ x) (hhigh : x < p.addr + 16) : Memory.read m x = Memory.read s.mem x := by
        refine hread x fun q hq => ?_
        rcases List.mem_append.mp hq with hq | hq
        · have := haway q hq
          omega
        · obtain ⟨made, p', r, rest, -, hp', -, k, -, -, hk⟩ := State.mem_recordCut hq
          obtain rfl : p = p' := Option.some.inj (hp.symm.trans hp')
          omega
      exact ⟨hheader, Memory.readWord_congr fun k hk => hheader _ (by omega) (by omega)⟩
    · rw [State.clearAreas_eq, List.map_eq_nil_iff] at hno
      exact hsame hno
  · rw [State.clearAreas_eq] at ha
    obtain ⟨q, hq, rfl⟩ := List.mem_map.mp ha
    rcases List.mem_append.mp hq with hq | hq
    · exact .inl ⟨q, hq, rfl⟩
    · exact .inr (State.mem_recordCut hq)
  · simp [hn]
  · simp [hn]
  · exact getLsbD_setWidth_byte s.oe.causes n
  · exact getLsbD_setWidth_byte s.oe.mask n
  · rw [BitVec.getLsbD_or, Cause.bitMask_getLsbD hc hk]

end Sys2Proof.Machine
end

section
/-! The words of a SNAPSHOT's image (R182, R194). -/

namespace Sys2Proof.Machine

variable {s : State}

/-! ## The sections of the image -/

theorem State.snapshotImage_general (s : State) {n : Nat} (hn : n < 16) :
    s.snapshotImage.getD n 0 = s.generalSection.getD n 0 := by
  rw [List.getD_eq_getElem?_getD, List.getD_eq_getElem?_getD, State.snapshotImage, List.append_assoc,
    List.getElem?_append_left (by exact hn)]

theorem channelSummaries_length (s : State) : (s.chans.toList.flatMap Channel.summary).length = 64 := by
  rw [flatMap_length_const Channel.summary (n := 4) (fun _ => rfl), Vector.length_toList]

theorem State.snapshotImage_channel (s : State) (c : Fin 16) {k : Nat} (hk : k < 4) :
    s.snapshotImage.getD (16 + k + 4 * c.val) 0 = (s.chan c).summary.getD k 0 := by
  have hc := c.isLt
  have hdiv : (k + 4 * c.val) / 4 = c.val ∧ (k + 4 * c.val) % 4 = k := by omega
  have hchan : s.chans.toList[c.val]? = some (s.chan c) := by simp [State.chan, Vector.get_eq_getElem]
  rw [List.getD_eq_getElem?_getD, List.getD_eq_getElem?_getD, State.snapshotImage, List.append_assoc,
    List.getElem?_append_right (by show 16 ≤ _; omega),
    List.getElem?_append_left (by rw [channelSummaries_length]; show 16 + k + 4 * c.val - 16 < 64; omega),
    show 16 + k + 4 * c.val - s.generalSection.length = k + 4 * c.val by show 16 + k + 4 * c.val - 16 = _; omega,
    flatMap_getElem? (n := 4) (fun _ => rfl) (by decide), hdiv.1, hdiv.2, hchan]
  rfl

theorem State.snapshotImage_slot (s : State) (i : Fin 48) {k : Nat} (hk : k < 4) :
    s.snapshotImage.getD (80 + k + 4 * i.val) 0 = (s.slot i).summary.getD k 0 := by
  have hi := i.isLt
  have hdiv : (k + 4 * i.val) / 4 = i.val ∧ (k + 4 * i.val) % 4 = k := by omega
  have hslot : s.slots.toList[i.val]? = some (s.slot i) := by simp [State.slot, Vector.get_eq_getElem]
  have hhead : (s.generalSection ++ s.chans.toList.flatMap Channel.summary).length = 80 := by
    rw [List.length_append, channelSummaries_length]
    rfl
  rw [List.getD_eq_getElem?_getD, List.getD_eq_getElem?_getD, State.snapshotImage,
    List.getElem?_append_right (by rw [hhead]; omega), hhead, show 80 + k + 4 * i.val - 80 = k + 4 * i.val by omega,
    flatMap_getElem? (n := 4) Device.summary_length (by decide), hdiv.1, hdiv.2, hslot]
  rfl

/-! ## The general section -/

theorem State.generalSection_state (s : State) :
    (s.generalSection.getD 2 0).toNat = s.tb.gen.toNat + 2 ^ 16 * s.tb.ref.code + 2 ^ 24 * (s.tb.qual % 2 ^ 5) := by
  have h := orAll_toNat [(0, 16, s.tb.gen.toNat), (16, 2, s.tb.ref.code), (24, 5, s.tb.qual)] (start := 0)
    (by simp [FieldsFit])
  simp only [List.map_cons, List.map_nil, List.sum_cons, List.sum_nil, Field.value_mk] at h
  have hg := s.tb.gen.isLt
  have hr := s.tb.ref.code_lt
  refine h.trans ?_
  omega

theorem State.generalSection_counter (s : State) :
    (s.generalSection.getD 5 0).toNat = s.lu.slate % 2 ^ 14 + 2 ^ 14 * (s.lu.take % 2 ^ 10) := by
  have h := orAll_toNat [(0, 14, s.lu.slate), (14, 10, s.lu.take)] (start := 0) (by simp [FieldsFit])
  simp only [List.map_cons, List.map_nil, List.sum_cons, List.sum_nil, Field.value_mk] at h
  refine h.trans ?_
  omega

theorem State.generalSection_lengths (s : State) :
    (s.generalSection.getD 6 0).toNat = s.lu.queue.length % 2 ^ 7 + 2 ^ 16 * (s.pw.stock.length % 2 ^ 6) := by
  have h := orAll_toNat [(0, 7, s.lu.queue.length), (16, 6, s.pw.stock.length)] (start := 0) (by simp [FieldsFit])
  simp only [List.map_cons, List.map_nil, List.sum_cons, List.sum_nil, Field.value_mk] at h
  refine h.trans ?_
  omega

theorem State.generalSection_page (s : State) :
    s.generalSection.getD 7 0 = BitVec.ofNat 32 ((s.pw.page.map OpenPage.addr).getD 0) := by
  show BitVec.ofNat 32 _ = _
  cases s.pw.page <;> rfl

/-! ## Channel summaries -/

/-- The state that a channel's summary shows: a RUNNING channel with a stop pending has a code of its own. -/
def Channel.shownState (ch : Channel) : Nat :=
  if ch.state = .stopped then 0 else if ch.state = .armed then 1 else if ch.stopPending then 3 else 2

theorem Channel.shownState_lt (ch : Channel) : ch.shownState < 4 := by
  unfold Channel.shownState
  split_ifs <;> decide

theorem Channel.summary_word1 (ch : Channel) :
    ch.summary.getD 1 0 =
      orAll ([(0, 23, ch.cfg.start), (23, 2, ch.shownState), (25, 1, (ch.kind == .sample).toNat),
        (26, 1, ch.staged.isSome.toNat), (27, 1, ch.prior.isSome.toNat), (28, 4, ch.cfg.fmt.code)].map Field.word) := by
  simp only [List.map_cons, List.map_nil, Field.word, ← flagBit_eq_field, Channel.shownState]
  unfold Channel.summary
  cases ch.state <;> rfl

theorem isSome_toNat {α : Type} [DecidableEq α] (x : Option α) : x.isSome.toNat = if x = none then 0 else 1 := by
  cases x <;> simp

theorem Channel.summary_state (ch : Channel) :
    (ch.summary.getD 1 0).toNat =
      ch.cfg.start % 2 ^ 23 + 2 ^ 23 * ch.shownState + 2 ^ 25 * (if ch.kind = .sample then 1 else 0) +
        2 ^ 26 * (if ch.staged = none then 0 else 1) + 2 ^ 27 * (if ch.prior = none then 0 else 1) +
        2 ^ 28 * ch.cfg.fmt.code := by
  have hs := ch.shownState_lt
  have hf := ch.cfg.fmt.code_lt
  have hkind : (ch.kind == .sample).toNat = if ch.kind = .sample then 1 else 0 := by cases ch.kind <;> rfl
  have h1 := Bool.toNat_le (ch.kind == .sample)
  have h2 := ch.staged.isSome.toNat_le
  have h3 := ch.prior.isSome.toNat_le
  rw [ch.summary_word1, orAll_toNat _ (start := 0) (by simp [FieldsFit])]
  simp only [List.map_cons, List.map_nil, List.sum_cons, List.sum_nil, Field.value_mk]
  rw [← hkind, ← isSome_toNat, ← isSome_toNat]
  omega

theorem Channel.summary_rate (ch : Channel) :
    (ch.summary.getD 2 0).toNat =
      ch.cfg.rate.n % 2 ^ 24 + 2 ^ 24 * (ch.bound % 2 ^ 6) + 2 ^ 30 * (if ch.cfg.labelOut then 1 else 0) := by
  have h := orAll_toNat [(0, 24, ch.cfg.rate.n), (24, 6, ch.bound), (30, 1, ch.cfg.labelOut.toNat)] (start := 0)
    (by simp [FieldsFit])
  simp only [List.map_cons, List.map_nil, List.sum_cons, List.sum_nil, Field.value_mk, Field.word,
    ← flagBit_eq_field] at h
  have hl : (if ch.cfg.labelOut then 1 else 0) = ch.cfg.labelOut.toNat := by cases ch.cfg.labelOut <;> rfl
  have h1 := ch.cfg.labelOut.toNat_le
  rw [hl]
  refine h.trans ?_
  omega

theorem Channel.summary_frame (ch : Channel) :
    (ch.summary.getD 3 0).toNat = ch.cfg.rate.d % 2 ^ 16 + 2 ^ 16 * (ch.frame % 2 ^ 16) := by
  have h := orAll_toNat [(0, 16, ch.cfg.rate.d), (16, 16, ch.frame)] (start := 0) (by simp [FieldsFit])
  simp only [List.map_cons, List.map_nil, List.sum_cons, List.sum_nil, Field.value_mk] at h
  refine h.trans ?_
  omega

/-! ## Slot summaries -/

/-- A number of the jam context, shown of a JAMMING slot alone. -/
def Device.shownJam (d : Device) (f : JamContext → Nat) : Nat :=
  if d.state = .jamming then (d.jam.map f).getD 0 else 0

theorem Device.summary_occupied {d : Device} (h : d.state ≠ .empty) :
    d.summary =
      [orAll ([(0, 3, d.state.code), (3, 1, d.held.toNat), (4, 6, d.linkAddr), (10, 2, d.cls.code),
          (12, 1, d.driftClamped.toNat), (13, 4, d.miss), (17, 5, lastResultCode d.lastResult),
          (22, 2, d.shownJam JamContext.retries), (24, 3, d.shownJam JamContext.reports)].map Field.word),
        signedWord d.drift, field 0 16 d.marksLogged.toNat, 0] := by
  have hjam (f : JamContext → Nat) : (match d.state, d.jam with | .jamming, some j => f j | _, _ => 0) = d.shownJam f := by
    unfold Device.shownJam
    cases d.state <;> cases d.jam <;> rfl
  simp only [List.map_cons, List.map_nil, Field.word, ← flagBit_eq_field, ← hjam]
  unfold Device.summary
  split
  next he => exact absurd he h
  next => rfl

theorem Device.summary_state {d : Device} (h : d.state ≠ .empty) :
    (d.summary.getD 0 0).toNat =
      d.state.code + 2 ^ 3 * (if d.held then 1 else 0) + 2 ^ 4 * (d.linkAddr % 2 ^ 6) + 2 ^ 10 * d.cls.code +
        2 ^ 12 * (if d.driftClamped then 1 else 0) + 2 ^ 13 * (d.miss % 2 ^ 4) +
        2 ^ 17 * lastResultCode d.lastResult +
        (2 ^ 22 * (d.shownJam JamContext.retries % 2 ^ 2) + 2 ^ 24 * (d.shownJam JamContext.reports % 2 ^ 3)) := by
  have hflag (b : Bool) : (if b then 1 else 0) = b.toNat := by cases b <;> rfl
  have hst := d.state.code_lt
  have hcls := d.cls.code_lt
  have hlast := lastResultCode_lt d.lastResult
  have h1 := d.held.toNat_le
  have h2 := d.driftClamped.toNat_le
  rw [Device.summary_occupied h, hflag, hflag]
  refine (orAll_toNat _ (start := 0) (by simp [FieldsFit])).trans ?_
  simp only [List.map_cons, List.map_nil, List.sum_cons, List.sum_nil, Field.value_mk]
  omega

theorem Device.summary_marks {d : Device} (h : d.state ≠ .empty) : d.summary.getD 2 0 = d.marksLogged.setWidth 32 := by
  rw [Device.summary_occupied h]
  refine BitVec.eq_of_toNat_eq ?_
  have hm := d.marksLogged.isLt
  show (field 0 16 d.marksLogged.toNat).toNat = _
  rw [field_toNat (by decide), BitVec.toNat_setWidth]
  omega

theorem Device.summary_empty {d : Device} (h : d.state = .empty) :
    d.summary = [field 17 5 (lastResultCode d.lastResult), 0, 0, 0] := by
  unfold Device.summary
  rw [h]

theorem lastResultField_toNat (r : Option Result) :
    (field 17 5 (lastResultCode r)).toNat = 2 ^ 17 * lastResultCode r := by
  have := lastResultCode_lt r
  rw [field_toNat (by decide)]
  omega

end Sys2Proof.Machine
end

section
/-! A block fetched, terminated and linked, and the orders PASS and SNAPSHOT (R173 to R177, R181 to R183, R189). -/

namespace Sys2Proof.Machine

variable {s : State} {got : List Word} {k : OrderKind}

/-! ## The kinds of an order (R189, R190) -/

/-- Each kind's code and its fixed number of parameter words. -/
def orderKinds : List (Nat × OrderKind × Nat) :=
  [(0x01, .pass, 0), (0x02, .snapshot, 2), (0x10, .setReference, 4), (0x20, .setChannel, 7),
    (0x21, .startChannel, 3), (0x22, .stopChannel, 1), (0x30, .enrol, 7), (0x31, .setDevice, 4),
    (0x32, .release, 1), (0x33, .adopt, 1), (0x34, .exchange, 2), (0x35, .jam, 3), (0x40, .setAction, 4),
    (0x41, .setTake, 2), (0x42, .injectMark, 4), (0x43, .translate, 16), (0x50, .givePages, 1),
    (0x51, .flushLog, 0)]

theorem orderKindOfCode_eq_find (c : Nat) :
    orderKindOfCode c = (orderKinds.find? (fun p => p.1 == c)).map (fun p => p.2.1) := by
  unfold orderKindOfCode
  split
  case h_19 =>
    rw [List.find?_eq_none.mpr]
    · rfl
    · simp only [orderKinds, List.forall_mem_cons, beq_iff_eq]
      and_intros
      all_goals simp_all [eq_comm]
  all_goals rfl

theorem orderKindOfCode_listed : ∀ p ∈ orderKinds, orderKindOfCode p.1 = some p.2.1 := by decide

theorem paramWords_listed : ∀ p ∈ orderKinds, p.2.1.paramWords = p.2.2 := by decide

theorem orderKindOfCode_unlisted {c : Nat} (h : ∀ p ∈ orderKinds, c ≠ p.1) : orderKindOfCode c = none := by
  rw [orderKindOfCode_eq_find, List.find?_eq_none.mpr fun p hp => by simpa using (h p hp).symm]
  rfl

/-! ## The fetch (R173, R174) -/

theorem State.blockKind_eq (s : State) (got : List Word) (b : Nat) :
    s.blockKind b got = orderKindOfCode ((got.getD 0 (Memory.readWord s.mem b)).toNat % 256) := by
  rw [State.blockKind, bits_low]
  rfl

theorem State.paramCount_eq (s : State) (b : Nat) (got : List Word) (k : OrderKind) :
    s.paramCount b got k =
      if k = .givePages ∧ 1 ≤ (got.getD 1 (Memory.readWord s.mem (b + 16))).toNat ∧
          (got.getD 1 (Memory.readWord s.mem (b + 16))).toNat ≤ 32
        then 1 + (got.getD 1 (Memory.readWord s.mem (b + 16))).toNat else k.paramWords := by
  cases k with
  | givePages =>
    have hword : s.fetchWord b got 1 = got.getD 1 (Memory.readWord s.mem (b + 16)) := rfl
    simp only [State.paramCount, hword, true_and, OrderKind.paramWords]
  | _ => exact (if_neg (by simp)).symm

theorem State.paramCount_ge (s : State) (b : Nat) (got : List Word) (k : OrderKind) :
    k.paramWords ≤ s.paramCount b got k := by
  rw [s.paramCount_eq]
  split_ifs with h
  · rw [h.1]
    exact Nat.le_add_right 1 _
  · exact le_rfl

theorem State.paramsFit_iff {b : Nat} :
    s.paramsFit b got k = true ↔ b + 16 + 4 * s.paramCount b got k ≤ s.windowSize := by
  have := s.paramCount_ge b got k
  rw [State.paramsFit, Bool.and_eq_true, State.paramsIn_iff, State.paramsIn_iff]
  omega

theorem exec_orderFetch (h : s.oe.step = .fetching got) : exec .orderFetch s = .next (s.fetched got) := by
  show execOrderFetch s = _
  rw [execOrderFetch, h]

theorem State.fetched_badBlock (h : s.headerFits s.oe.block = false) : s.fetched got = s.chainEnd .stopped := by
  rw [State.fetched]
  exact if_neg (by simp [h])

section
variable (hheader : s.headerFits s.oe.block = true)
include hheader

theorem State.fetched_unknown (h : s.blockKind s.oe.block got = none) : s.fetched got = s.report .refusedKind := by
  rw [State.fetched]
  dsimp only
  rw [if_pos hheader, h]

variable (hk : s.blockKind s.oe.block got = some k)
include hk

theorem State.fetched_misfit (h : s.windowSize < s.oe.block + 16 + 4 * s.paramCount s.oe.block got k) :
    s.fetched got = s.report .windowFault := by
  rw [State.fetched]
  dsimp only
  rw [if_pos hheader, hk]
  exact if_neg fun hfit => absurd (State.paramsFit_iff.mp hfit) h.not_ge

theorem State.fetched_taken (h : s.oe.block + 16 + 4 * s.paramCount s.oe.block got k ≤ s.windowSize) :
    s.fetched got =
      { s with
        mem := Memory.writeWord s.mem (s.oe.block + 12) takenWord
        oe := { s.oe with step := .taken (s.readOrder s.oe.block got k) } } := by
  rw [State.fetched]
  dsimp only
  rw [if_pos hheader, hk]
  exact if_pos (State.paramsFit_iff.mpr h)

end

theorem State.readOrder_params (s : State) (b : Nat) (got : List Word) (k : OrderKind) :
    (s.readOrder b got k).params.length = s.paramCount b got k ∧
      ∀ n < s.paramCount b got k,
        (s.readOrder b got k).p n = got.getD (n + 1) (Memory.readWord s.mem (b + 16 + 4 * n)) := by
  refine ⟨by simp [State.readOrder], fun n hn => ?_⟩
  rw [Order.p, State.readOrder, List.getD_eq_getElem?_getD, List.getElem?_map, List.getElem?_range hn]
  rfl

/-! ## The termination (R175) -/

theorem Result.code_lt (r : Result) : r.code < 256 := by cases r <;> decide

theorem terminationWord_toNat (code : Result) {detail : Nat} (h : detail < 65536) :
    (terminationWord code detail).toNat = code.code * 65536 + detail := by
  have hw := orAll_toNat [(0, 16, detail), (16, 8, code.code)] (start := 0) (by simp [FieldsFit])
  simp only [List.map_cons, List.map_nil, List.sum_cons, List.sum_nil, Field.value_mk] at hw
  have := code.code_lt
  refine hw.trans ?_
  omega

section
variable {base : Nat} {ws : List Word} {code : Result} {detail : Nat}

theorem exec_terminationWritten (h : s.oe.step = .terminating (wordsAt base ws) code detail)
    (hws : base + 4 * ws.length ≤ s.windowSize) (hblock : s.oe.block + 16 ≤ s.windowSize) :
    exec .terminationWritten s = .next (s.terminated (terminationWrites s.oe.block (wordsAt base ws) code detail) code) := by
  show execTerminationWritten s = _
  rw [execTerminationWritten, h]
  refine s.guarded_next _ _ (State.WordsIn.addresses fun q hq => ?_)
  rcases List.mem_append.mp hq with hq | hq
  · exact State.inWindow_wordsAt (State.inWindow_iff.mpr hws) q hq
  · rw [List.mem_singleton.mp hq]
    exact State.inWindow_iff.mpr (by show s.oe.block + 12 + 4 ≤ _; omega)

theorem terminationWrites_mem {m : List Host.Cell} (hwf : Memory.wf m = true) {b : Nat} (hbase : b + 16 ≤ base)
    (hdetail : detail < 65536) :
    let m' := Memory.writeAll m (terminationWrites b (wordsAt base ws) code detail)
    (∀ n < ws.length, Memory.readWord m' (base + 4 * n) = ws.getD n 0) ∧
      (Memory.readWord m' (b + 12)).toNat = code.code * 65536 + detail ∧
      ∀ x : Nat, (x < base ∨ base + 4 * ws.length ≤ x) → (x < b + 12 ∨ b + 16 ≤ x) →
        Memory.read m' x = Memory.read m x := by
  dsimp only
  rw [terminationWrites, Memory.writeAll_append]
  show (∀ n < ws.length, Memory.readWord (Memory.writeWord _ _ _) _ = _) ∧
    (Memory.readWord (Memory.writeWord _ _ _) _).toNat = _ ∧ ∀ x : Nat, _ → _ → Memory.read (Memory.writeWord _ _ _) x = _
  refine ⟨fun n hn => ?_, ?_, fun x hx hterm => ?_⟩
  · rw [Memory.readWord_writeWord_other _ _ (by omega), Memory.readWord_wordsAt _ _ _ _ hwf hn]
  · rw [Memory.readWord_writeWord _ _ _ (Memory.wf_writeAll _ _ hwf), terminationWord_toNat code hdetail]
  · rw [Memory.read_writeWord_outside _ _ hterm, Memory.read_wordsAt_outside _ _ hx]

/-! ## The link (R176) -/

theorem exec_linkRead (h : s.oe.step = .linking code) (hblock : s.oe.block + 16 ≤ s.windowSize) :
    exec .linkRead s = .next (s.linked code) := by
  show execLinkRead s = _
  rw [execLinkRead, h]
  refine s.guarded_next _ _ fun a ha => State.inWindow_iff.mpr ?_
  rw [List.mem_singleton.mp ha, linkAddress]
  split_ifs <;> omega

theorem Result.followsNext_iff : code.followsNext = true ↔ code = .done ∨ code = .accepted := by
  simp [Result.followsNext]

theorem State.linked_stopped (h : s.oe.stopAfter = true) : s.linked code = s.chainEnd .stopped := by
  rw [State.linked]
  exact if_pos h

variable (hgo : s.oe.stopAfter = false)
include hgo

theorem State.linked_zero (h : (Memory.readWord s.mem (linkAddress s.oe.block code)).toNat = 0) :
    s.linked code = s.chainEnd (if code.followsNext then .done else .stopped) := by
  rw [State.linked, if_neg (by simp [hgo])]
  exact if_pos h

theorem State.linked_fetches (h : (Memory.readWord s.mem (linkAddress s.oe.block code)).toNat ≠ 0) :
    s.linked code = s.beginFetch (Memory.readWord s.mem (linkAddress s.oe.block code)).toNat := by
  rw [State.linked, if_neg (by simp [hgo])]
  exact if_neg h

end

theorem linkAddress_next (b : Nat) {code : Result} (h : code = .done ∨ code = .accepted) : linkAddress b code = b + 4 :=
  if_pos (Result.followsNext_iff.mpr h)

theorem linkAddress_fault (b : Nat) {code : Result} (h : ¬(code = .done ∨ code = .accepted)) : linkAddress b code = b + 8 :=
  if_neg fun hf => h (Result.followsNext_iff.mp hf)

/-! ## PASS and SNAPSHOT (R181 to R183) -/

section
variable {o : Order}

theorem exec_pass_taken (hstep : s.oe.step = .taken o) (hk : o.kind = .pass) :
    exec .pass s = .next (s.report .done) :=
  congrArg Host.Outcome.next (s.handOrder_taken _ _ o hstep hk)

theorem exec_snapshot_taken (hstep : s.oe.step = .taken o) (hk : o.kind = .snapshot) :
    exec .snapshot s = .next (snapshotOrder o s) :=
  congrArg Host.Outcome.next (s.handOrder_taken _ _ o hstep hk)

theorem snapshotOrder_fault
    (h : (o.p 0).toNat = 0 ∨ (o.p 0).toNat % 4 ≠ 0 ∨ s.windowSize < (o.p 0).toNat + 1088) :
    snapshotOrder o s = s.report .windowFault :=
  if_pos (h.imp_right (Or.imp_right fun hw => State.inWindow_eq_false.mpr hw))

theorem snapshotOrder_captures (h0 : (o.p 0).toNat ≠ 0) (h4 : (o.p 0).toNat % 4 = 0)
    (hin : (o.p 0).toNat + 1088 ≤ s.windowSize) :
    snapshotOrder o s = { s with oe := { s.oe with step := .imaging (o.p 0).toNat s.snapshotImage } } := by
  refine if_neg ?_
  rintro (h | h | h)
  · exact h0 h
  · exact h h4
  · rw [State.inWindow_iff.mpr hin] at h
    cases h

theorem exec_snapshotWritten {a : Nat} {image : List Word} (h : s.oe.step = .imaging a image)
    (hin : a + 4 * image.length ≤ s.windowSize) : exec .snapshotWritten s = .next (s.imageWritten a image) := by
  show execSnapshotWritten s = _
  rw [execSnapshotWritten, h]
  exact s.guarded_next _ _ (State.WordsIn.addresses (State.inWindow_wordsAt (State.inWindow_iff.mpr hin)))

end

theorem Memory.readWords_getElem? (m : List Host.Cell) (a : Nat) {n i : Nat} (h : i < n) :
    (Memory.readWords m a n)[i]? = some (Memory.readWord m (a + 4 * i)) := by
  rw [Memory.readWords, List.getElem?_map, List.getElem?_range h]
  rfl

/-! ## O59 -/

/-- Settles O59: the fetch by the header, the kind and the parameter words; termination and link; PASS and SNAPSHOT with
the fields of the image; the codes; and words laid from an address. -/
theorem blockSteps : Obligations.BlockSteps := by
  unfold Obligations.BlockSteps
  intro ended kinds
  refine ⟨fun s got hstep => ?fetch, fun s base ws code detail hstep hbase hws hblock hdetail hwf => ?termination,
    fun s code hstep hblock => ?link, fun s o hstep hk => exec_pass_taken hstep hk, fun s o hstep hk => ?snapshot,
    fun s a image hstep hin hwf => ⟨_, exec_snapshotWritten hstep hin,
      fun n hn => Memory.readWord_wordsAt image s.mem a n hwf hn, fun x hx => Memory.read_wordsAt_outside s.mem image hx⟩,
    fun c _ => orderKindOfCode_eq_find c, paramWords_listed, ⟨by decide, rfl, fun r => rfl, by decide, by decide,
      fun f => rfl, by decide⟩, fun s code detail results k => ⟨rfl, rfl⟩, fun m a n ws => ⟨fun i => ?_,
      fun i hi => Memory.readWords_getElem? m a hi, by simp [Memory.readWords]⟩⟩
  case fetch =>
    intro b w refused
    rw [exec_orderFetch hstep]
    have hkind : s.blockKind b got = orderKindOfCode (w.toNat % 256) := s.blockKind_eq got b
    refine ⟨fun hbad => ?_, fun h0 h4 hin => ?_⟩
    · rw [State.fetched_badBlock]
      · rfl
      · rw [Bool.eq_false_iff, ne_eq, State.headerFits_iff]
        rintro ⟨h0, h4, hin⟩
        rcases hbad with h | h | h
        · exact h0 h
        · exact h h4
        · exact absurd hin h.not_ge
    · have hheader : s.headerFits s.oe.block = true := State.headerFits_iff.mpr ⟨h0, h4, hin⟩
      refine ⟨fun hno => ?_, fun p hp hcode => ?_⟩
      · rw [State.fetched_unknown hheader (hkind.trans (orderKindOfCode_unlisted hno))]
        rfl
      · intro count n
        have hk : s.blockKind s.oe.block got = some p.2.1 :=
          hkind.trans ((congrArg orderKindOfCode hcode).trans (orderKindOfCode_listed p hp))
        have hn : s.paramCount s.oe.block got p.2.1 = n := by
          rw [s.paramCount_eq, paramWords_listed p hp]
        refine ⟨fun h => ?_, fun h hwf => ?_⟩
        · rw [State.fetched_misfit hheader hk (by rw [hn]; exact h)]
          rfl
        · obtain ⟨hlen, hparams⟩ := s.readOrder_params s.oe.block got p.2.1
          rw [hn] at hlen hparams
          exact ⟨_, s.readOrder s.oe.block got p.2.1,
            congrArg Host.Outcome.next (State.fetched_taken hheader hk (by rw [hn]; exact h)), rfl, rfl, rfl, rfl, hlen,
            hparams, Memory.readWord_writeWord _ _ _ hwf, fun x hx => Memory.read_writeWord_outside _ _ hx⟩
  case termination =>
    refine ⟨_, fun hstop => ?_, fun hgo => ?_, terminationWrites_mem hwf hbase hdetail⟩
    · rw [exec_terminationWritten hstep hws hblock, State.terminated, if_pos hstop]
      rfl
    · rw [exec_terminationWritten hstep hws hblock, State.terminated, if_neg (by simp [hgo])]
  case link =>
    intro onward next fault fetch
    rw [exec_linkRead hstep hblock]
    refine ⟨fun hstop => ?_, fun hgo h h0 => ?_, fun hgo h h0 => ?_, fun hgo h h0 => ?_, fun hgo h h0 => ?_⟩
    · rw [State.linked_stopped hstop]
      rfl
    · rw [State.linked_zero hgo (by rw [linkAddress_next _ h]; exact h0), if_pos (Result.followsNext_iff.mpr h)]
      rfl
    · rw [State.linked_fetches hgo (by rw [linkAddress_next _ h]; exact h0), linkAddress_next _ h]
      rfl
    · rw [State.linked_zero hgo (by rw [linkAddress_fault _ h]; exact h0),
        if_neg fun hf => h (Result.followsNext_iff.mp hf)]
      rfl
    · rw [State.linked_fetches hgo (by rw [linkAddress_fault _ h]; exact h0), linkAddress_fault _ h]
      rfl
  case snapshot =>
    intro a
    rw [exec_snapshot_taken hstep hk]
    refine ⟨fun h => ?_, fun h0 h4 hin => ⟨s.snapshotImage, ?_, ?_⟩⟩
    · rw [snapshotOrder_fault h]
      rfl
    · rw [snapshotOrder_captures h0 h4 hin]
    · intro word
      have hg (n : Nat) (hn : n < 16) : s.snapshotImage.getD n 0 = s.generalSection.getD n 0 := s.snapshotImage_general hn
      have hw (n : Nat) (hn : n < 16) : word n = (s.generalSection.getD n 0).toNat :=
        congrArg BitVec.toNat (s.snapshotImage_general hn)
      refine ⟨s.snapshotImage_length, hg 0 (by decide), (hw 2 (by decide)).trans s.generalSection_state,
        (hw 5 (by decide)).trans s.generalSection_counter, (hw 6 (by decide)).trans s.generalSection_lengths,
        hw 14 (by decide), hw 15 (by decide), hg 1 (by decide), hg 3 (by decide), hg 4 (by decide),
        (hg 7 (by decide)).trans s.generalSection_page, hg 8 (by decide), hg 9 (by decide), hg 10 (by decide),
        hg 11 (by decide), hg 12 (by decide), hg 13 (by decide), fun c => ?_, fun i => ⟨fun hocc => ?_, fun hempty => ?_⟩⟩
      · have hc (k : Nat) (hk : k < 4) := s.snapshotImage_channel c hk
        exact ⟨hc 0 (by decide), (congrArg BitVec.toNat (hc 1 (by decide))).trans (s.chan c).summary_state,
          (congrArg BitVec.toNat (hc 2 (by decide))).trans (s.chan c).summary_rate,
          (congrArg BitVec.toNat (hc 3 (by decide))).trans (s.chan c).summary_frame⟩
      · have hi (k : Nat) (hk : k < 4) := s.snapshotImage_slot i hk
        have hsum := Device.summary_occupied hocc
        refine ⟨(congrArg BitVec.toNat (hi 0 (by decide))).trans ((Device.summary_state hocc).trans ?_), ?_,
          (hi 2 (by decide)).trans (Device.summary_marks hocc), ?_⟩
        · rw [Nat.add_left_cancel_iff]
          unfold Device.shownJam
          cases (s.slot i).state <;> cases (s.slot i).jam <;> rfl
        · rw [hi 1 (by decide), hsum]
          rfl
        · refine (congrArg BitVec.toNat (hi 3 (by decide))).trans ?_
          rw [hsum]
          rfl
      · have hi (k : Nat) (hk : k < 4) := congrArg BitVec.toNat (s.snapshotImage_slot i hk)
        rw [Device.summary_empty hempty] at hi
        exact ⟨(hi 0 (by decide)).trans (lastResultField_toNat _), hi 1 (by decide), hi 2 (by decide), hi 3 (by decide)⟩
  · rw [wordsAt_getElem?]

end Sys2Proof.Machine
end
